-- ==== Sys2Proof/Word.lean ====
section
/-! DEFINITION. The word types: a register word of 64 bits (R5) and a byte. -/

namespace Sys2Proof

/-- A 64-bit register or instruction word (R5, R84). -/
abbrev Word := BitVec 64

/-- A byte of a frame, a store or a table. -/
abbrev Byte := BitVec 8

end Sys2Proof
end

