-- ==== Sys2Proof/Syntax.lean ====
section
/-! DEFINITION. The commands of the block: one constructor for each row of spec/opcode_table.json, with its operands. The operands t (an
instant of device time in units of 2^-16 ns), sq and c (a Control Sequencer and one of its contexts), sl (a slice), m (a MAC slot), p (a port),
q (a queue), f (a frame's number, or what a port receives), bad (failing rows or words found) and ue (an uncorrectable error in the word that
is read) mean the same everywhere, and of a sequencer's instruction e says what ECC and shadowing found as it issued, bit 0 a corrected error,
bit 1 a difference between the two sequencers. The docstring of a constructor names the others. -/

namespace Sys2Proof

/-- A TVX frame as a control port receives it (R59): port, addresses, MACsec (`sec` 0 unprotected, 1 protected with an ICV that
verifies under the association's key, 2 protected with one that does not), header fields, and the payload bytes present. -/
structure TvxRx where
  port : Nat
  src : Nat
  dst : Nat
  sec : Nat
  sci : Word
  an : Nat
  pn : Nat
  ver : Nat
  typ : Nat
  code : Nat
  sid : Nat
  seq : Nat
  ackv : Bool
  ack : Nat
  more : Bool
  len : Nat
  win : Nat
  tag : Nat
  payload : List Byte
  deriving DecidableEq, Repr

/-- A domain message as it reaches the domain engine (R354): the link it arrived on, the header fields, and the payload bytes present. -/
structure DomRx where
  port : Nat
  ver : Nat
  typ : Nat
  hops : Nat
  tomgr : Bool
  domain : Nat
  origin : Nat
  term : Nat
  seq : Nat
  len : Nat
  payload : List Byte
  deriving DecidableEq, Repr

/-- A command of the block: what comes about at one of its registers, ports, pins or engines as one step (spec/opcode_table.json). -/
inductive Instr where
  /-- REGISTER_WRITE (R12): context c of sequencer sq writes v to a whole register; addr is the address. -/
  | registerWrite (sq c addr : Nat) (v : Word)
  /-- B_FIELD_TAKES_EFFECT (R10): the boundary of the block has come for the register at addr. -/
  | bFieldTakesEffect (addr : Nat)
  /-- QVIOL_CLEAR (R24): GLB_QVIOL.VALID is written 1. -/
  | qviolClear
  /-- POWER_UP (R418, R420): ROLE is strapped to `role`. -/
  | powerUp (t role : Nat)
  /-- PORESET_N (R422, R423): a low pulse of `width` ns ends at t with the strap at `role`. -/
  | poresetN (t width role : Nat)
  /-- RESET_N (R422, R423): a low pulse of `width` ns ends at t with the strap at `role`; while PORESET_N is low too, that pin governs;
  `porLow` says that PORESET_N is low. -/
  | resetN (t width role : Nat) (porLow : Bool)
  /-- SOFTWARE_RESTART (R9, R66): the routine of context c of sequencer sq writes GLB_RESET.WARM = 1 while ROLE is strapped to `role`. A
  routine that is not admin's is stopped instead. -/
  | softwareRestart (sq c role : Nat)
  /-- SUPPLY_LOSS (R420): rail r is lost in Standby or Active. -/
  | supplyLoss (t r : Nat)
  /-- READ_TIM_NOW_SEC (R26): into G[rd]. -/
  | readTimNowSec (sq c rd : Nat)
  /-- READ_CYC_NOW_NUM (R26): into G[rd]. -/
  | readCycNowNum (sq c rd : Nat)
  /-- SERVO_DISABLE (R31). -/
  | servoDisable
  /-- SOURCE_QUALIFIES (R30): a source of this kind has been continuously available for 10 s. -/
  | sourceQualifies (t kind : Nat)
  /-- WAIT_TO_RESTORE_EXPIRY (R30). -/
  | waitToRestoreExpiry (t : Nat)
  /-- SOURCE_LOST (R30, R31): a source of this kind is lost. -/
  | sourceLost (t kind : Nat)
  /-- PPS_IN_EDGE (R29): an integer second of fabric time for the servo, where the phase list selects PPS. -/
  | ppsInEdge (t : Nat)
  /-- DPLL_LOCK (R31): 10 s in ACQUIRE within the limits, with the frequency correction `adj` that the loop has reached. -/
  | dpllLock (t adj : Nat)
  /-- DPLL_OFFSET_LOSS (R31). -/
  | dpllOffsetLoss (t : Nat)
  /-- HOLDOVER_HISTORY_VALID (R30): LOCKED for 60 s since the DPLL last left FREERUN. -/
  | holdoverHistoryValid (t : Nat)
  /-- TIM_ADJ_GO (R32): TIM_ADJ is written with this MODE and OFFSET. -/
  | timAdjGo (mode off : Nat)
  /-- SLEW_END (R32). -/
  | slewEnd (t : Nat)
  /-- PTP_MESSAGE_RX (R28): a message directed to the engine; `best` is the state that the best master clock algorithm gives the port on an
  Announce; answers go out on queue q; `msg` is the message from its header on. -/
  | ptpMessageRx (t p q best : Nat) (msg : List Byte)
  /-- PTP_MESSAGE_TX (R28): message kind 0 Sync, 1 Delay_Req, 2 Pdelay_Req or 11 Announce, on queue q. -/
  | ptpMessageTx (t p q kind : Nat)
  /-- CALIBRATION_STEP (R35): in Precision, 4 ms after the slice's last step, the next lane's correction departs `dev` ps from its test
  value. -/
  | calibrationStep (t sl : Nat) (dev : Int)
  /-- PPS_OUT_PULSE (R36): fabric time less PPS_COMP passes an integer second. -/
  | ppsOutPulse (t : Nat)
  /-- CYCLE_RUN (R41). -/
  | cycleRun
  /-- CYCLE_STOP (R41). -/
  | cycleStop
  /-- CYCLE_BOUNDARY (R39). -/
  | cycleBoundary (t : Nat)
  /-- REALIGN (R43): in RUN. -/
  | realign
  /-- CYCLE_IN_EDGE (R42). -/
  | cycleInEdge (t : Nat)
  /-- CYCLE_IN_MISS (R42). -/
  | cycleInMiss (t : Nat)
  /-- FLYWHEEL_BOUNDARY (R42). -/
  | flywheelBoundary (t : Nat)
  /-- PHASE_ENTRY_FIRE (R45, R47): the tick at instant t. -/
  | phaseEntryFire (t : Nat)
  /-- PHASE_TABLE_COMMIT (R48). -/
  | phaseTableCommit
  /-- PHASE_TABLE_CHECK_DONE (R48). -/
  | phaseTableCheckDone (t : Nat)
  /-- PHASE_TABLE_ENTRY_WRITE (R48): a write of entry n < 4,096, or of LEN (n = 4,096); w is the value. -/
  | phaseTableEntryWrite (n : Nat) (w : Word)
  /-- CP_LINK_UP (R54, R63); `fec` says that the partner asks for Clause 74 FEC: k is the control port. -/
  | cpLinkUp (t k : Nat) (fec : Bool)
  /-- CP_LINK_LOSS (R70): of control port k. -/
  | cpLinkLoss (t k : Nat)
  /-- CP_MODE_ALTERNATE (R54): of control port k. -/
  | cpModeAlternate (t k : Nat)
  /-- CP_CONFIG_WRITE (R54, R80): CTL_CP[k] is written v. -/
  | cpConfigWrite (sq c k : Nat) (v : Word)
  /-- CP_FRAME_DISCARD (R53): a MAC control frame, or one of more than 9,000 B of MAC client data; k is the control port, `len` the bytes of
  client data. -/
  | cpFrameDiscard (k : Nat) (control : Bool) (len : Nat)
  /-- TVX_MALFORMED (R60). -/
  | tvxMalformed (t : Nat) (f : TvxRx)
  /-- DISCOVER_SOLICIT (R63). -/
  | discoverSolicit (t : Nat) (f : TvxRx)
  /-- DISCOVER_OPEN (R64). -/
  | discoverOpen (t : Nat) (f : TvxRx)
  /-- DISCOVER_CLOSE (R67). -/
  | discoverClose (t : Nat) (f : TvxRx)
  /-- HEARTBEAT_RX (R78). -/
  | heartbeatRx (t : Nat) (f : TvxRx)
  /-- ADVERTISE_TIMER (R63). -/
  | advertiseTimer (t : Nat)
  /-- ACK_HEARTBEAT (R69): of session n, 8 for the exchange of the boot ROM. -/
  | ackHeartbeat (t n : Nat)
  /-- TVX_RETRANSMIT (R69): of session n, 8 for the exchange of the boot ROM. -/
  | tvxRetransmit (t n : Nat)
  /-- SESSION_HEARTBEAT_MISS (R67): of session n. -/
  | sessionHeartbeatMiss (t n : Nat)
  /-- SESSION_CLOSE_WRITE (R67): of session n. -/
  | sessionCloseWrite (n : Nat)
  /-- HEARTBEAT_SEND (R78): of session n, or with SID 0xFF on port n − 8. -/
  | heartbeatSend (t n : Nat)
  /-- EVENT_RECORD_SEND (R74): of session n. -/
  | eventRecordSend (t n : Nat)
  /-- BULK_FRAME_SEND (R77): of session n. -/
  | bulkFrameSend (t n : Nat)
  /-- EXPORT_BUFFER_ROOM (R77, R102). -/
  | exportBufferRoom (t sq c : Nat)
  /-- SAK_INSTALL (R58): CTL_SAK_CMD is written w. -/
  | sakInstall (w : Word)
  /-- SAK_CLEAR (R58): CTL_SAK_CMD is written w. -/
  | sakClear (w : Word)
  /-- LOAD_RUN (R71): a COMMAND frame whose COMMAND has OP 0, or an OP that R71 does not list. -/
  | loadRun (t : Nat) (f : TvxRx)
  /-- RUN (R71). -/
  | run (t : Nat) (f : TvxRx)
  /-- ABORT (R71). -/
  | abort (t : Nat) (f : TvxRx)
  /-- ABORT_AT_SAFE_POINT (R95). -/
  | abortAtSafePoint (t sq c : Nat)
  /-- NOP (R85). -/
  | nop (t sq c e : Nat)
  /-- HALT (R108). -/
  | halt (t sq c e : Nat)
  /-- LD (R86). -/
  | ld (t sq c e : Nat)
  /-- ST (R86 to R88). -/
  | st (t sq c e : Nat)
  /-- STF (R86 to R88): the field's bits come from the low bits of G[RB], and the others are masked. -/
  | stf (t sq c e : Nat)
  /-- ALU (R90). -/
  | alu (t sq c e : Nat)
  /-- MOVI (R84). -/
  | movi (t sq c e : Nat)
  /-- MOVHI (R84). -/
  | movhi (t sq c e : Nat)
  /-- CMP (R91). -/
  | cmp (t sq c e : Nat)
  /-- BFX (R91). -/
  | bfx (t sq c e : Nat)
  /-- BFI (R91). -/
  | bfi (t sq c e : Nat)
  /-- BR (R92, R93, R98): a backward BR is a safe point whether or not it is taken, and may call the handler from where it leads. -/
  | br (t sq c e : Nat)
  /-- CALL (R92). -/
  | call (t sq c e : Nat)
  /-- RET (R92, R98): the RET that pops the address of the implicit call ends the handler. -/
  | ret (t sq c e : Nat)
  /-- JR (R92). -/
  | jr (t sq c e : Nat)
  /-- SETH (R98). -/
  | seth (t sq c e : Nat)
  /-- EVSEL (R96). -/
  | evsel (t sq c e : Nat)
  /-- TBL (R99): a context that already waits for the command path looks again. -/
  | tbl (t sq c e : Nat)
  /-- CREAD (R100). -/
  | cread (t sq c e : Nat)
  /-- WAIT (R103). -/
  | wait (t sq c e : Nat)
  /-- WAIT_COMPLETE (R103). -/
  | waitComplete (t sq c : Nat)
  /-- AT (R104). -/
  | armAt (t sq c e : Nat)
  /-- HINT (R106). -/
  | hint (t sq c e : Nat)
  /-- EMIT (R107). -/
  | emit (t sq c e : Nat)
  /-- XPORT (R102). -/
  | xport (t sq c e : Nat)
  /-- POLL (R93, R97). -/
  | poll (t sq c e : Nat)
  /-- SAFEPT_FAULT (R94). -/
  | safeptFault (t sq c : Nat)
  /-- AT_DISPATCH (R105). -/
  | atDispatch (t : Nat)
  /-- SEQUENCER_FAULT (R110). -/
  | sequencerFault (t sq : Nat)
  /-- WATCHDOG_EXPIRY (R110). -/
  | watchdogExpiry (t sq : Nat)
  /-- TAKEOVER_COMPLETE (R111). -/
  | takeoverComplete (t : Nat)
  /-- RESYNC_COMPLETE (R111). -/
  | resyncComplete (t : Nat)
  /-- XO_CHECK_PASS (R115, R319). -/
  | xoCheckPass (t : Nat)
  /-- XO_CHECK_ALERT (R115, R390). -/
  | xoCheckAlert (t : Nat)
  /-- IMAGE_CHUNK (R115, R116, R439): an IMAGE frame with CODE 0, or with a CODE that is discarded. -/
  | imageChunk (t : Nat) (f : TvxRx)
  /-- IMAGE_CANCEL (R116). -/
  | imageCancel (t : Nat) (f : TvxRx)
  /-- IMAGE_CHUNK_TIMEOUT (R115, R116). -/
  | imageChunkTimeout (t : Nat)
  /-- IMAGE_VERIFY_DONE (R115, R119, R123, R439). -/
  | imageVerifyDone (t : Nat) (bad : List Nat)
  /-- IMAGE_LOAD_DONE (R115, R120, R123): `train` says that the spill PHYs trained, `bad` are the sections whose write-back differs. -/
  | imageLoadDone (t : Nat) (train : Bool) (bad : List Nat)
  /-- BUNDLE_CHUNK (R66, R116, R125, R126). -/
  | bundleChunk (t : Nat) (f : TvxRx)
  /-- BUNDLE_VERIFY_DONE (R125, R126, R439). -/
  | bundleVerifyDone (t : Nat)
  /-- PATCH_SECTION_APPLY (R127, R128). -/
  | patchSectionApply (t : Nat)
  /-- PATCH_TIMEOUT (R128). -/
  | patchTimeout (t : Nat)
  /-- FUSE_REVOKE (R124): IMG_FUSE_CMD is written w. -/
  | fuseRevoke (w : Word)
  /-- FUSE_ADVANCE (R124): IMG_FUSE_CMD is written w. -/
  | fuseAdvance (w : Word)
  /-- FUSE_DEADBOLT (R124, R129): IMG_FUSE_CMD is written w. -/
  | fuseDeadbolt (w : Word)
  /-- FUSE_COMMAND_DONE (R124, R129): the fuses of the command in progress that have had their 1 ms are blown. -/
  | fuseCommandDone (t : Nat)
  /-- STORE_READBACK (R129, R130): IMG_RDBK_ADDR is written with GO = 1; w is the value written. -/
  | storeReadback (w : Word)
  /-- FRAME_RECEIVE (R291): the first bytes of a frame at the MAC of port p, or with `fresh` false more bytes of the frame that arrives. -/
  | frameReceive (t p : Nat) (fresh : Bool) (bytes : List Byte)
  /-- FRAME_TAIL_ARRIVE (R141): the last bytes of the frame that arrives on port p; `err` 1 for a code error, 6 for a lost link. -/
  | frameTailArrive (t p err : Nat) (bytes : List Byte)
  /-- FRAME_BIND (R132): of frame f. -/
  | frameBind (f : Nat)
  /-- EXT (R139); `ue` here and below: the read of the parse word finds an uncorrectable error (R137). -/
  | ext (f : Nat) (ue : Bool)
  /-- EXTF (R139). -/
  | extf (f : Nat) (ue : Bool)
  /-- ADV (R140). -/
  | adv (f : Nat) (ue : Bool)
  /-- SEL (R140). -/
  | sel (f : Nat) (ue : Bool)
  /-- CHK_LENGTH (R141). -/
  | chkLength (f : Nat) (ue : Bool)
  /-- CHK_CSUM (R141). -/
  | chkCsum (f : Nat) (ue : Bool)
  /-- CHK_OPTION (R141). -/
  | chkOption (f : Nat) (ue : Bool)
  /-- SCAN (R139). -/
  | scan (f : Nat) (ue : Bool)
  /-- PARSE_WAIT_BYTES (R140). -/
  | parseWaitBytes (f : Nat) (ue : Bool)
  /-- PARSE_WAIT_SCAN (R140). -/
  | parseWaitScan (f : Nat) (ue : Bool)
  /-- PARSE_SET (R139). -/
  | parseSet (f : Nat) (ue : Bool)
  /-- PARSE_HASH (R139). -/
  | parseHash (f : Nat) (ue : Bool)
  /-- END (R134). -/
  | endParse (f : Nat) (ue : Bool)
  /-- PARSE_BUDGET_EXCEEDED (R133). -/
  | parseBudgetExceeded (f : Nat)
  /-- SCAN_COMPLETE (R144). -/
  | scanComplete (f : Nat)
  /-- HV_RELEASE (R134). -/
  | hvRelease (f : Nat)
  /-- PATTERN_WRITE (R145): of pattern i. -/
  | patternWrite (sl i : Nat)
  /-- PATTERN_READ (R145): of pattern i. -/
  | patternRead (sl i : Nat)
  /-- PATTERN_INVALIDATE (R145): of pattern i. -/
  | patternInvalidate (sl i : Nat)
  /-- MATCH_STAGE (R149): frame, or with `eg` copy, f passes its next stage; `bad` are the 16 B units of table memory whose read in it finds
  an uncorrectable error, `ue` says that the read of the action word does. -/
  | matchStage (eg : Bool) (f : Nat) (bad : List Nat) (ue : Bool)
  /-- SASH_SWAP_TRIGGER (R163): a write of MAI_SWAP[sl] with GO = 1; SCOPE and GROUP. -/
  | sashSwapTrigger (sl scope g : Nat)
  /-- SASH_SWAP_TAKES_EFFECT (R164): a packet boundary of slice sl, at which no frame need be bound while its stages hold no vector. -/
  | sashSwapTakesEffect (sl : Nat)
  /-- SASH_SETTLE_END (R165). -/
  | sashSettleEnd (sl : Nat)
  /-- TBL_INSERT (R179): TABLE, SASH and INDEX. -/
  | tblInsert (sl tab sash idx : Nat)
  /-- TBL_DELETE (R179): TABLE, SASH and INDEX. -/
  | tblDelete (sl tab sash idx : Nat)
  /-- TBL_UPDATE (R179): TABLE, SASH and INDEX. -/
  | tblUpdate (sl tab sash idx : Nat)
  /-- TBL_LOOKUP (R179): TABLE, SASH and INDEX. -/
  | tblLookup (sl tab sash idx : Nat)
  /-- TBL_READ (R179); `bad` as for MATCH_STAGE: TABLE, SASH and INDEX. -/
  | tblRead (sl tab sash idx : Nat) (bad : List Nat)
  /-- TBL_WRITE (R179): TABLE, SASH and INDEX. -/
  | tblWrite (sl tab sash idx : Nat)
  /-- TBL_AGE (R188): TABLE, SASH and INDEX. -/
  | tblAge (sl tab sash idx : Nat)
  /-- TBL_WDATA (R179): TABLE, SASH and INDEX. -/
  | tblWdata (sl tab sash idx : Nat)
  /-- TBL_RDATA (R179); `bad` as for MATCH_STAGE: TABLE, SASH and INDEX. -/
  | tblRdata (sl tab sash idx : Nat) (bad : List Nat)
  /-- LEARN_APPLY (R184). -/
  | learnApply (sl : Nat)
  /-- LEARN_RING_MESSAGE (R186). -/
  | learnRingMessage (sl : Nat)
  /-- AGEING_PASS_START (R187): unit a of slice sl at instant t. -/
  | ageingPassStart (t sl a : Nat)
  /-- AGEING_STEP (R181): of ageing unit a. -/
  | ageingStep (sl a : Nat)
  /-- MCG_WRITE (R189): of group g, with PRUNE. -/
  | mcgWrite (g : Nat) (prune : Bool)
  /-- MCG_READ (R189): of group g. -/
  | mcgRead (g : Nat)
  /-- BADLOG_CLEAR (R191). -/
  | badlogClear (sl : Nat)
  /-- ADMISSION (R204): the first cell of frame f reaches admission. -/
  | admission (f : Nat)
  /-- CELL_CHARGE (R205): the cell that crossed first is written at the free pointer `ptr`, or its frame is truncated. -/
  | cellCharge (ptr : Nat)
  /-- CROSSBAR_MATCH (R213): one cell slot. -/
  | crossbarMatch
  /-- ENQUEUE (R209): of copy c. -/
  | enqueue (c : Nat)
  /-- CELL_RETURN (R198): the unit that frees is an egress slice 0–31, the auditor 32, or a spill controller 33–36; ptr is the cell. -/
  | cellReturn (ptr unit : Nat)
  /-- PFC_REPEAT (R207): of port group g. -/
  | pfcRepeat (t p g : Nat)
  /-- PFC_FRAME_RX (R208): the priority-enable vector and the eight timers. -/
  | pfcFrameRx (t p mask : Nat) (timers : List Nat)
  /-- PFC_TIMER_EXPIRE (R208): of priority `pri`. -/
  | pfcTimerExpire (t p pri : Nat)
  /-- PAUSE_FRAME_RX (chapter 09, Priority flow control). -/
  | pauseFrameRx (t p : Nat)
  /-- QUEUE_AGE_VISIT (R210). -/
  | queueAgeVisit (t p q : Nat)
  /-- BUFFER_AUDIT_CHECK (R211). -/
  | bufferAuditCheck (t : Nat)
  /-- AUDIT_WALK_START (R211): WALK = 1 is written. -/
  | auditWalkStart
  /-- AUDIT_WALK_DONE (R212). -/
  | auditWalkDone (t : Nat)
  /-- BUF_HOLD_RELEASE (R202): HOLD of port p, or of the device with p = 1,024, is written 0. -/
  | bufHoldRelease (p : Nat)
  /-- SCHEDULER_SELECT (R249): the scheduler of port p makes its next selection. -/
  | schedulerSelect (p : Nat)
  /-- FRAME_TX_START (R276): the first bit of port p's next frame is due. -/
  | frameTxStart (t p : Nat)
  /-- FRAME_TX_END (R198): `ecc` are the cells whose read found an uncorrectable error, `corr` those of the corrected ones, one entry each. -/
  | frameTxEnd (t p : Nat) (ecc corr : List Nat)
  /-- SPILL_FRAME (R226): copy c is written to the pages that the device allocates for it. -/
  | spillFrame (c : Nat) (pages : List Nat)
  /-- SPILL_WRITE_DONE (R228): `perr` are the pages whose write reported a parity error, `pages` those that reissues take; of copy c. -/
  | spillWriteDone (c : Nat) (perr pages : List Nat)
  /-- RETURN_FRAME (R227). -/
  | returnFrame (p q : Nat)
  /-- RETURN_READ_DONE (R227): the free cells that take the frame, and what the reads found; of copy c: `ptrs` are the cells, `ue` and
  `corr` the pages with uncorrectable and corrected errors, `lost` that the read never returns. -/
  | returnReadDone (c : Nat) (ptrs ue corr : List Nat) (lost : Bool)
  /-- REFRESH (R234): a bank set of stack k is refreshed; b is the bank set. -/
  | refresh (k b : Nat)
  /-- SPILL_TRAIN_STEP (R237): of pseudo-channel c of stack k: the margin, or a failure. -/
  | spillTrainStep (t k c margin : Nat) (fails : Bool)
  /-- SR_ENTER (R238): of stack k. -/
  | srEnter (t k : Nat)
  /-- SR_ENTRY_DONE (R238): of stack k. -/
  | srEntryDone (t k : Nat)
  /-- SR_EXIT_REQUEST (R239): a request arrives, or with `off` SR_EN is written 0; of stack k. -/
  | srExitRequest (t k : Nat) (off : Bool)
  /-- SR_EXIT_DONE (R238): of stack k. -/
  | srExitDone (t k : Nat)
  /-- SR_LAT_CLEAR (R239): of stack k. -/
  | srLatClear (k : Nat)
  /-- SPILL_AUDIT_CHECK (R242): of stack k. -/
  | spillAuditCheck (t k : Nat)
  /-- SPILL_WALK_START (R242): WALK = 1 is written; of stack k. -/
  | spillWalkStart (k : Nat)
  /-- SPILL_WALK_DONE (R242): of stack k. -/
  | spillWalkDone (t k : Nat)
  /-- PAGE_RETURN (R240): of this page. -/
  | pageReturn (page : Nat)
  /-- PAGE_CACHE_REFILL (R240): of stack k. -/
  | pageCacheRefill (k : Nat)
  /-- SPL_Q_ENABLE (R229): EN of SPL_Q[p][q] is written 1; it is a quiesce field. -/
  | splQEnable (p q : Nat)
  /-- PSEUDO_CHANNEL_RETIRE (R243): SPL_RETIRE.GO is written for pseudo-channel c; of stack k. -/
  | pseudoChannelRetire (k c : Nat)
  /-- PC_READ_TIMEOUT (R243): of pseudo-channel c of stack k. -/
  | pcReadTimeout (t k c : Nat)
  /-- RETIREMENT_DONE (R244); `golden` as for retireDone: of stack k; `golden` says that the golden copy on the pseudo-channel could be
  read. -/
  | retirementDone (t k : Nat) (golden : Bool)
  /-- SHAPER_ELIGIBLE (R255): shaper k of MAC slot m of slice sl. -/
  | shaperEligible (t sl m k : Nat)
  /-- COARSE_SLOT_BEGIN (R255). -/
  | coarseSlotBegin (t sl : Nat)
  /-- METER_RESET (R261): MTR_A.RESET of meter i of slice sl is written 1. -/
  | meterReset (sl i : Nat)
  /-- PEP_RING_ENABLE (R262): of ring r. -/
  | pepRingEnable (r : Nat)
  /-- PEP_RING_DISABLE (R262): of ring r. -/
  | pepRingDisable (r : Nat)
  /-- PEEPHOLE_RECORD_WRITE (R263). -/
  | peepholeRecordWrite (sl : Nat)
  /-- SHUTTER_MASK_CHANGE (R272). -/
  | shutterMaskChange (t p : Nat)
  /-- SHUTTER_COMMIT (R273): SHU_CTL.COMMIT of MAC slot m of slice sl is written 1. -/
  | shutterCommit (sl m : Nat)
  /-- SHUTTER_CHECK_DONE (R273). -/
  | shutterCheckDone (t sl m : Nat)
  /-- SHUTTER_ENTRY_WRITE (R273): n = 256 is a write of LEN; entry n is written w. -/
  | shutterEntryWrite (sl m n : Nat) (w : Word)
  /-- PREEMPTION_VERIFY (R280): `ok` says that the partner answered. -/
  | preemptionVerify (t p : Nat) (ok : Bool)
  /-- PORT_ENABLE (R292); `bad` are the rows that the self-test of a domain now powered on finds failing (R405). -/
  | portEnable (p : Nat) (bad : List Nat)
  /-- PORT_DISABLE (R293). -/
  | portDisable (p : Nat)
  /-- AN_COMPLETE (R294): the partner offers `rates`, an FEC and LPI, and its join record holds UID, domain, lane count and WIRED, if it
  sent one. -/
  | anComplete (t p : Nat) (rates : List Nat) (fec : Nat) (lpi : Bool) (recd : List Nat)
  /-- AN_RESTART (R293). -/
  | anRestart (t p : Nat)
  /-- TRAIN_COMPLETE (R293): the margins of the lanes, the lanes whose polarity was corrected, and the position that the partner names as
  failed, 8 for none. -/
  | trainComplete (t p : Nat) (margins inv : List Nat) (theirs : Nat)
  /-- TRAIN_TIMEOUT (R295): `failed` are the lanes that did not train. -/
  | trainTimeout (t p : Nat) (failed : List Nat)
  /-- RETRAIN_DELAY (R295). -/
  | retrainDelay (t p : Nat)
  /-- ASYM_MEASURED (R299): the delays of the receive and the transmit channel in 2^-16 ns. -/
  | asymMeasured (t p rx tx : Nat)
  /-- ALIGN_COMPLETE (R293): lanes reversed, permuted, and those with inverted polarity. -/
  | alignComplete (t p : Nat) (rev perm : Bool) (inv : List Nat)
  /-- ALIGN_TIMEOUT (R293). -/
  | alignTimeout (t p : Nat)
  /-- LINK_LOSS (R296): `lost` are the lanes that lost signal or lock. -/
  | linkLoss (t p : Nat) (lost : List Nat)
  /-- PORT_RETRAIN (R293): LN_PCTL.RETRAIN is written 1. -/
  | portRetrain (p : Nat)
  /-- LOOP_SET (R302): LN_PCTL.LOOP is written v ≠ 0. -/
  | loopSet (p v : Nat)
  /-- LOOP_CLEAR (R302). -/
  | loopClear (p : Nat)
  /-- DORMANT_SET (R305). -/
  | dormantSet (p : Nat)
  /-- DORMANT_EXIT (R305). -/
  | dormantExit (p : Nat)
  /-- ADAPT_FREEZE (R300). -/
  | adaptFreeze (t p : Nat)
  /-- ADAPT_SNAPSHOT (R301): of lane n. -/
  | adaptSnapshot (t n : Nat)
  /-- MARGIN_MEASURE (R301): lane n measures the margin m. -/
  | marginMeasure (t n m : Nat)
  /-- SYMBOL_TRIGGER (R309): `cnt` symbols of lane n were corrected within 1 s; `inj` says that the partner reports injection. -/
  | symbolTrigger (t n cnt : Nat) (inj : Bool)
  /-- TX_QUIET_ENTER (R303). -/
  | txQuietEnter (t p : Nat)
  /-- TX_QUIET_EXIT (R303). -/
  | txQuietExit (t p : Nat)
  /-- QUIET_WAKE_BEFORE_OPENING (R304). -/
  | quietWakeBeforeOpening (t p : Nat)
  /-- LPI_REFRESH (R303). -/
  | lpiRefresh (t p : Nat)
  /-- RX_QUIET_ENTER (R303). -/
  | rxQuietEnter (t p : Nat)
  /-- RX_QUIET_EXIT (R303). -/
  | rxQuietExit (t p : Nat)
  /-- LANE_GROUP_POWER_ON_DONE (R306): of lane group g. -/
  | laneGroupPowerOnDone (t g : Nat)
  /-- LANE_FAULT (R307): fault k of R307 on lane n. -/
  | laneFault (t n k : Nat)
  /-- LANE_FAULT_CLEAR (R307): fault k of R307 on lane n. -/
  | laneFaultClear (t n k : Nat)
  /-- LANE_SPARE_GO (R309): LN_SPARE[sl] is written with GO = 1 and TARGET = i. -/
  | laneSpareGo (sl i : Nat)
  /-- SPARE_TRAIN_DONE (R309): `ok` says that both spares trained. -/
  | spareTrainDone (t sl : Nat) (ok : Bool)
  /-- SPARE_SWITCH (R309). -/
  | spareSwitch (t sl : Nat)
  /-- INJECTOR_ENABLE (R312). -/
  | injectorEnable (p : Nat)
  /-- INJECTOR_DISABLE (R315, R129). -/
  | injectorDisable (p : Nat)
  /-- INJECT_DROP (R314). -/
  | injectDrop (p : Nat)
  /-- INJECT_CORRUPT (R314). -/
  | injectCorrupt (p : Nat)
  /-- INJECT_REORDER (R314). -/
  | injectReorder (t p : Nat)
  /-- REORDER_TIMEOUT (R314). -/
  | reorderTimeout (t p : Nat)
  /-- INJECT_DELAY (R314). -/
  | injectDelay (t p : Nat)
  /-- DELAY_RELEASE (R314). -/
  | delayRelease (t p : Nat)
  /-- INJECT_SYMBOL (R314): one codeword on the lane of INJ_SYM.LANE. -/
  | injectSymbol (p : Nat)
  /-- XO_LOST (R319). -/
  | xoLost (t : Nat)
  /-- XO_RESTORED (R319). -/
  | xoRestored (t : Nat)
  /-- REF_LOST (R320): of reference k. -/
  | refLost (t k : Nat)
  /-- REF_GOOD (R320): of reference k. -/
  | refGood (t k : Nat)
  /-- PLL_RELOCK (R322): of PLL i. -/
  | pllRelock (t i : Nat)
  /-- MUX_SWITCH (R323): `ratio` is the measured ratio of the two oscillators for TIMMUX, in 2^-16 ppb (R322); of mux m. -/
  | muxSwitch (t m : Nat) (ratio : Int)
  /-- MUX_FORCED_SWITCH (R324): of mux m; `ratio` as for MUX_SWITCH. -/
  | muxForcedSwitch (t m : Nat) (ratio : Int)
  /-- DVFS_STEP_START (R325). -/
  | dvfsStepStart (t : Nat)
  /-- CPLL_RAMP_DONE (R325). -/
  | cpllRampDone (t : Nat)
  /-- SETTLING_REPORT (R325). -/
  | settlingReport (t : Nat)
  /-- SETTLE_TIMEOUT (R327). -/
  | settleTimeout (t : Nat)
  /-- FREQ_MEASURE_START (R329). -/
  | freqMeasureStart
  /-- FREQ_MEASURE_DONE (R329): the gate ends with `count` target cycles. -/
  | freqMeasureDone (t count : Nat)
  /-- FREQ_MEASURE_TIMEOUT (R329): the count so far. -/
  | freqMeasureTimeout (t count : Nat)
  /-- ACTIVE_REQUEST (R334): PWR_STATE.REQ = 2 is written, or a REQ of 2 that was held acts; `bad` are the failing rows that the self-tests
  find. -/
  | activeRequest (t : Nat) (bad : List Nat)
  /-- STANDBY_REQUEST (R334). -/
  | standbyRequest (t : Nat)
  /-- REST_REQUEST (R334). -/
  | restRequest (t : Nat)
  /-- ACTIVE_DRAIN_END (R334): the queues are empty, or 10 ms have passed. -/
  | activeDrainEnd (t : Nat)
  /-- REST_ENTRY_COMPLETE (R335): the device, in Standby with REQ = 0, enters Rest. -/
  | restEntryComplete (t : Nat)
  /-- WARMUP_DONE (R336): every reading is at or above WARM_T. -/
  | warmupDone (t : Nat) (bad : List Nat)
  /-- WARMUP_TIMEOUT (R336): WARM_TMO seconds have passed in warm-up. -/
  | warmupTimeout (t : Nat) (bad : List Nat)
  /-- JHI_COMPARATOR (R337): the transom sensor reads `temp` in °C. -/
  | jhiComparator (t : Nat) (temp : Int)
  /-- JLO_COMPARATOR (R337): the transom sensor reads `temp` in °C. -/
  | jloComparator (t : Nat) (temp : Int)
  /-- VUV_COMPARATOR (R337): VDD_CORE is at `mv` millivolts, and has been on that side of UV_T for 1 µs: above it, it wakes a device in
  Rest; below it, it forces a running device toward OP5. -/
  | vuvComparator (t mv : Nat)
  /-- VUV_RECOVER (R337): VDD_CORE has been at or above UV_T + 20 mV for 1 ms; VDD_CORE is at `mv` millivolts. -/
  | vuvRecover (t mv : Nat)
  /-- CPED_ENERGY (R337): signal energy on a control port's receive pins. -/
  | cpedEnergy (t : Nat)
  /-- TIME_ALARM (R337). -/
  | timeAlarm (t : Nat)
  /-- VDD_CORE_PRESENT (R336): VDD_CORE exceeds UV_T, and a pending wake proceeds. -/
  | vddCorePresent (t : Nat)
  /-- PMBUS_ROUND (R339 to R341): the readings of the rails, their STATUS_WORDs, the estimate of each rail in 0.1 W and the estimate
  averaged over the round. -/
  | pmbusRound (t : Nat) (reads status est : List Nat) (avg : Nat)
  /-- CAP_LOOP_ITERATION (R342): what the loop measures (CapInput). -/
  | capLoopIteration (t raw links control p0 spill : Nat) (compute frames cells : List Nat)
  /-- HINT_START (R343). -/
  | hintStart (t : Nat)
  /-- HINT_END (R343). -/
  | hintEnd (t : Nat)
  /-- SENSOR_READ (R345): the readings of the 64 sensors in 1/8 °C and the stacks' reports in °C. -/
  | sensorRead (t : Nat) (temps stk : List Int)
  /-- THROTTLE_STEP (R345). -/
  | throttleStep (t : Nat)
  /-- AGE_REPLAN (R347): `shift` is the worst slowdown that the monitors show, in ppm. -/
  | ageReplan (t shift : Nat)
  /-- AGE_GO (R347): AGE_CTL.GO is written 1; `shift` is the measured SHIFT. -/
  | ageGo (t shift : Nat)
  /-- FAB_ENABLE (R353): FAB_CTL.EN is written 1. -/
  | fabEnable (t : Nat)
  /-- HELLO_SEND (R358). -/
  | helloSend (t : Nat)
  /-- HELLO_RX (R355 to R358). -/
  | helloRx (t : Nat) (m : DomRx)
  /-- MEMBER_TIMEOUT (R358): of member n. -/
  | memberTimeout (t n : Nat)
  /-- NUMBER_RELEASE (R358): of number n. -/
  | numberRelease (t n : Nat)
  /-- ROSTER_SEND (R358). -/
  | rosterSend (t : Nat)
  /-- ROSTER_RX (R355 to R358, R363). -/
  | rosterRx (t : Nat) (m : DomRx)
  /-- CYCLE_MSG_RX (R355 to R357, R360, R363). -/
  | cycleMsgRx (t : Nat) (m : DomRx)
  /-- EPOCH_ISSUE (R361): FAB_EPOCH_CMD is written with GO = 1 and CYCLE; `cycle` is CYCLE. -/
  | epochIssue (t cycle : Nat)
  /-- EPOCH_RX (R355 to R357, R361). -/
  | epochRx (t : Nat) (m : DomRx)
  /-- PACE_RX (R355 to R357, R364, R365). -/
  | paceRx (t : Nat) (m : DomRx)
  /-- SHED_RX (R355 to R357, R366). -/
  | shedRx (t : Nat) (m : DomRx)
  /-- MANAGER_SILENT (R362). -/
  | managerSilent (t : Nat)
  /-- TAKEOVER_RX (R355 to R357, R363). -/
  | takeoverRx (t : Nat) (m : DomRx)
  /-- ORIGIN_FORGET (R356): of origin o. -/
  | originForget (t o : Nat)
  /-- FAB_RECLAIM (R363). -/
  | fabReclaim (t : Nat)
  /-- FAB_REJOIN (R358). -/
  | fabRejoin (t : Nat)
  /-- STACK_CONTROL_SEND (R369). -/
  | stackControlSend (t : Nat)
  /-- STACK_CONTROL_RX (R369): a stack control frame with the UID, priority and number of its sender. -/
  | stackControlRx (t p uid pri num : Nat)
  /-- STACK_MEMBER_TIMEOUT (R369): of the device with this UID. -/
  | stackMemberTimeout (t uid : Nat)
  /-- DIGEST_SCAN (R379). -/
  | digestScan (t sl : Nat)
  /-- DIGEST_FLUSH (R379). -/
  | digestFlush (sl : Nat)
  /-- DIGEST_DISABLE (R379): of profile j. -/
  | digestDisable (sl j : Nat)
  /-- COUNTER_SELECTION_POLL (R386). -/
  | counterSelectionPoll (t sl : Nat)
  /-- EVENT_STATUS_CLEAR (R390): the bits written 1 in group g. -/
  | eventStatusClear (g bits : Nat)
  /-- EVENT_MASK_WRITE (R390): MASK of group g becomes v. -/
  | eventMaskWrite (g v : Nat)
  /-- SLICE_REPAIR_GO (R396). -/
  | sliceRepairGo (sl : Nat)
  /-- SLICE_DRAIN_DONE (R398). -/
  | sliceDrainDone (t : Nat)
  /-- SLICE_REBUILD_DONE (R399): `res` is 0, 1 for a digest that differs, 2 for an error that survives repair; `rows` are the macros
  repaired, `log` the addresses logged and `bad` the 16 B units lost. -/
  | sliceRebuildDone (t res : Nat) (rows log bad : List Nat)
  /-- SLICE_RETURN_DONE (R401). -/
  | sliceReturnDone (t : Nat)
  /-- SEQUENCER_REPAIR_GO (R406). -/
  | sequencerRepairGo (sq : Nat)
  /-- SEQUENCER_REPAIR_AUTO (R406). -/
  | sequencerRepairAuto (t sq : Nat)
  /-- SEQUENCER_REPAIR_DONE (R406): `res` is 0, 1 for a digest that differs, 2 for a failed self-test. -/
  | sequencerRepairDone (t sq res : Nat)
  /-- LANE_RESTORE_GO (R407). -/
  | laneRestoreGo (sl : Nat)
  /-- LANE_RETEST_DONE (R407): `ok` says that the lane passed. -/
  | laneRetestDone (t sl : Nat) (ok : Bool)
  /-- FLOWLET_FLUSH (R410). -/
  | flowletFlush (sl : Nat)
  /-- SUPPLY_REMOVAL (R419): the board removes rail r in Rest. -/
  | supplyRemoval (t r : Nat)
  /-- TEST_ACCESS_INSTRUCTION (R129, R433): k is 0 BYPASS, 1 IDCODE, 2 another boundary-scan instruction of IEEE 1149.1 or 1149.6, 3 a
  private instruction, 4 internal scan. Once the deadbolt is blown the last two act as BYPASS, with event 94; before it the spec does not
  say what they do. -/
  | testAccessInstruction (k : Nat)
  /-- ROW_OPEN_TIME_EXPIRY (R233): the row that bank set b of stack k holds open is closed. -/
  | rowOpenTimeExpiry (k b : Nat)
  /-- PACE_INTERVAL (R364). -/
  | paceInterval (t : Nat)
  deriving DecidableEq, Repr

end Sys2Proof
end

