-- ==== Sys2Proof/Decode.lean ====
section
/-! DEFINITION. The command that a word spells. The table gives none of its rows any bits: the block takes commands, and no word spells one. -/

namespace Sys2Proof

/-- The command of an nbits-wide word w: none, since no row of the table has bits. -/
def decodeTableWord (_nbits _w : Nat) : Option Instr := none

end Sys2Proof
end

