-- ==== Sys2Proof/Config.lean ====
section
/-! DEFINITION. What the spec leaves open: free values (R382's generation number, random draws, values the spec states no result for)
and the arguments of events for which it defines none. Each constant is opaque: no proof can see a value of it. -/

namespace Sys2Proof.Config

/-- The n-th free value the machine has drawn: nothing constrains it (log entry 2). -/
opaque freeValue : Nat → Word

/-- The argument of an event for which the spec defines none (R73; log entry 4). -/
opaque eventArg : Nat → Nat

end Sys2Proof.Config
end

