-- ==== Sys2Proof/Machine/State.lean ====
section
/-! DEFINITION. The machine's state as plain data: every register, store, FIFO, table, queue, counter, mode and pin the
spec gives the AXF-1024, the queue of waiting commands, and the state after reset.

Software-visible registers have ONE home, the sparse register file `State.regs` (an unlisted address reads its reset value,
`Machine/RegMap`); the structures below hold what lies behind the registers. Stores and per-slice tables are sparse maps, keyed
by unit number × size + index. -/

namespace Sys2Proof.Machine

/-- The four device states of R334. -/
inductive DevState where
  | off | rest | standby | active
  deriving DecidableEq, Repr

/-- The image-load states of R115. -/
inductive BootState where
  | reset | xoCheck | advertising | receiving | verify | load | standby
  deriving DecidableEq, Repr

/-- The supplies of R418, in the order in which they are brought up. -/
inductive Supply where
  | aon | core | sram | laneA | laneB | laneC | io | hbm | qhbm
  deriving DecidableEq, Repr

/-- An event record (R73, R96): ID, severity of the raise, argument, fabric time of the raise, LOST, REPEAT,
and the device time of the raise (R74). -/
structure EvRec where
  id : Nat
  sev : Nat
  arg : Nat
  time : Nat
  lost : Bool := false
  rep : Nat := 0
  raised : Nat := 0
  deriving DecidableEq, Repr

/-- A TVX frame that the device sends on a control port (R59). -/
structure CpFrame where
  port : Nat
  typ : Nat
  code : Nat
  sid : Nat
  seq : Nat := 0
  ackv : Bool := false
  ack : Nat := 0
  more : Bool := false
  retx : Bool := false
  win : Nat := 32
  tag : Nat := 0
  dst : Nat := 0
  payload : List Byte := []
  deriving DecidableEq, Repr

/-- What lies behind one TVX session, or the boot ROM's IMAGE exchange (R67 to R78): sequence numbers, unacknowledged
frames, frames waiting for the window, timers, the event queue and the BULK streams. -/
structure Session where
  rxNext : Nat := 0
  txNext : Nat := 0
  unacked : List CpFrame := []
  outq : List CpFrame := []
  bulkq : List CpFrame := []
  hostWin : Nat := 0
  ackDue : Option Nat := none
  rto : Nat := 0
  rtoStart : Nat := 0
  retries : Nat := 0
  lastRx : Nat := 0
  lastTx : Nat := 0
  otherPort : Bool := false
  evq : List EvRec := []
  evLost : Bool := false
  cmdBytes : List Byte := []
  cmdFrames : Nat := 0
  cmdTag : Nat := 0
  streams : List (Nat × Nat) := []
  history : Bool := false
  deriving DecidableEq, Repr

/-- One security association slot of a control port (R56, R58). -/
structure Sa where
  valid : Bool := false
  an : Nat := 0
  pn : Nat := 1
  low : Nat := 0
  sci : Word := 0
  key : List Word := []
  deriving DecidableEq, Repr

/-- An answered OPEN, kept for 1 s so that a repeated TAG gets the same answer (R64). -/
structure OpenAnswer where
  mac : Nat
  tag : Nat
  time : Nat
  answer : CpFrame
  deriving DecidableEq, Repr

/-- The control complex behind its registers: sessions, security associations, the mode search of R54, the export buffer
and what the control ports have sent (newest first). -/
structure CtlUnit where
  sessions : List Session := List.replicate 8 {}
  boot : Session := {}
  sas : List (Nat × Sa) := []
  stopped : List Nat := []
  opens : List OpenAnswer := []
  inKr : List Bool := [true, true]
  modeSince : List Nat := [0, 0]
  exportUsed : Nat := 0
  lastPort : Nat := 0
  bulkNext : List Nat := [0, 0]
  hbAt : List Nat := [0, 0]
  sent : List CpFrame := []
  deriving DecidableEq, Repr

/-- A WAIT in progress (R103): its condition, the operand values it reads, its predicate and its deadline. -/
structure WaitSt where
  cond : Nat
  neg : Bool
  a : Word
  b : Word
  d : Word
  pred : Nat
  deadline : Option Nat
  deriving DecidableEq, Repr

/-- The states of a sequencer context that CSQ_CTX.STATE codes (R113). -/
inductive CtxState where
  | idle | ready | waiting | inAccess | stopped
  deriving DecidableEq, Repr

/-- One sequencer context (chapter 04, Programming model). -/
structure Ctx where
  st : CtxState := .idle
  pc : BitVec 16 := 0
  g : List Word := List.replicate 32 0
  p : BitVec 8 := 1
  rstack : List (BitVec 16) := []
  evq : List EvRec := []
  evLost : Bool := false
  groups : BitVec 48 := 0
  handler : BitVec 16 := 0
  hen : Bool := false
  inh : Option Nat := none
  since : Nat := 0
  icount : Nat := 0
  tag : Nat := 0
  sid : Nat := 0
  priv : Nat := 0
  wait : Option WaitSt := none
  resumeDeadline : Option (Option Nat) := none
  aborts : List Nat := []
  ending : Bool := false
  nsf : Word := 0
  phase : Word := 0x100000000
  xport : Option (Nat × Nat × Nat) := none
  deriving DecidableEq, Repr

/-- An armed AT (R104); `pend` is k while its cycle waits for the first cycle after the unit returns to RUN. -/
structure AtSlot where
  seq : Nat
  slot : Nat
  ctx : Nat
  sid : Nat
  priv : Nat
  cyc : Nat
  phase : Nat
  addr : Nat
  val : Word
  due : Bool := false
  pend : Option Nat := none
  deriving DecidableEq, Repr

/-- The Control Sequencers: both stores, their contexts, the armed ATs and which sequencers are out of service. -/
structure CsqUnit where
  store : List (Nat × Word) := []
  ctxs : List Ctx := List.replicate 16 {}
  ats : List AtSlot := []
  faulted : List Nat := []
  faultTime : List (Nat × Nat) := []
  repairing : List Nat := []
  lastRetire : List Nat := [0, 0]
  deriving DecidableEq, Repr

/-- The fuses and test-fused values (R24, R55, R124, R129, R319, R348). -/
structure Fuses where
  uid : Word := 0
  programmed : BitVec 4 := 15
  revoked : BitVec 4 := 0
  keyHash : List (BitVec 384) := [0, 0, 0, 0]
  rollback : Nat := 0
  deadbolt : Bool := false
  xoNom : Nat := 32
  deriving DecidableEq, Repr

/-- A fuse command being performed (R124): its operation, slot and target, when it started, and the counter then. -/
structure FuseCmd where
  op : Nat
  slot : Nat
  target : Nat
  start : Nat
  base : Nat
  deriving DecidableEq, Repr

/-- A bundle being staged, verified or applied (R125 to R128): the session that sends it, its bytes, when its last chunk came, whether it
is whole, and, once it is applied, the index of its record in the bundle area, the parts still to be applied (section, store, instance),
and since when the first of them waits for its safe point. -/
structure Staging where
  sid : Nat
  bytes : List Byte := []
  lastChunk : Nat := 0
  whole : Bool := false
  applying : Bool := false
  bundle : Nat := 0
  parts : List (Nat × Nat × Nat) := []
  since : Nat := 0
  deriving DecidableEq, Repr

/-- The image loader: the boot state and since when, the image being received and its bound source, the golden copy with the bundles
recorded in it and the bundle sections that have been applied (bundle, section, instance) in their order, how many bundles were fully
applied and whether one stopped part-way, the bundle in progress, the microcode stores, the fuse command in progress, and whether a
retained image is being loaded (R115 to R128). -/
structure ImgUnit where
  boot : BootState := .reset
  since : Nat := 0
  xoAlert : Bool := false
  bound : Option Nat := none
  staged : List Byte := []
  lastChunk : Nat := 0
  golden : List Byte := []
  bundles : List (List Byte) := []
  patches : List (Nat × Nat × Nat) := []
  fulls : Nat := 0
  mixed : Bool := false
  staging : Option Staging := none
  pwrUcode : List (Nat × Word) := []
  laneUcode : List (Nat × Word) := []
  fuseBusy : Option FuseCmd := none
  historyDone : Bool := false
  advAt : Option Nat := none
  retained : Bool := false
  deriving DecidableEq, Repr

/-- What a PTP port keeps between messages, in 2^-16 ns: the instants t1, t2, t3 of IEEE 1588, of a two-step peer delay answer the receipt
timestamp it carried, its arrival and its correction, and the measured path delay. -/
structure PtpPort where
  t1 : Int := 0
  t2 : Int := 0
  t3 : Int := 0
  delay : Int := 0
  syncSeq : Nat := 0
  peerT2 : Int := 0
  peerT4 : Int := 0
  peerCorr : Int := 0
  deriving DecidableEq, Repr

/-- Timing unit 0 behind its registers: qualified source kinds, wait-to-restore starts of the two lists (R30), the DPLL's times
(R31), the slew in progress (R32), the PTP ports and the Announce of the port in SLAVE with its port, the delay calibration of R35 and the outputs of R36 and R37. -/
structure TimUnit where
  qual : List Nat := []
  wtrF : Option Nat := none
  wtrP : Option Nat := none
  dpllSince : Nat := 0
  fromFree : Bool := false
  lockedTotal : Nat := 0
  offSince : Option Nat := none
  slew : Option Int := none
  ptp : List (Nat × PtpPort) := []
  ptpSent : List (Nat × Nat) := []
  ptpSeq : List (Nat × Nat) := []
  parent : Option (Nat × List Byte) := none
  calLane : List (Nat × Nat) := []
  calAt : List (Nat × Nat) := []
  calCorr : List (Nat × Int) := []
  ppsSec : Nat := 0
  ppsUntil : Nat := 0
  rclkHeld : List Nat := []
  deriving DecidableEq, Repr

/-- A pending change of cycle parameters that a domain message named (R360). -/
structure CycChange where
  eff : Nat
  period : Nat
  stretch : Nat
  deriving DecidableEq, Repr

/-- An armed rule epoch (R361). -/
structure Epoch where
  id : Nat
  groups : Word
  cyc : Nat
  phase : Nat
  deriving DecidableEq, Repr

/-- Timing unit 1: the start of the current cycle and its period, both in 2^-32 ns of fabric time, and its number, and the base of R39, in 2^-32 ns,
with its number; what
STOPPED and PARKED wait for; a period change that a domain message named (R360); the phase table's active copy, its entries fired
and those left over (R47, R48); CYCLE_IN following (R42); until when CYCLE_OUT is high; and the armed epochs (R361). -/
structure CycUnit where
  base : Nat := 0
  num : Nat := 0
  per : Nat := 0
  startAt : Option Nat := none
  startNum : Nat := 0
  stopReq : Bool := false
  change : Option CycChange := none
  fired : Nat := 0
  carry : List Word := []
  gbase : Nat := 0
  gnum : Nat := 0
  tick : Nat := 0
  tickFires : Nat := 0
  active : List (Nat × Word) := []
  activeLen : Nat := 0
  checking : Bool := false
  checked : Bool := false
  intervals : List Nat := []
  lastEdge : Option Nat := none
  lastReal : Bool := false
  synth : Nat := 0
  outUntil : Nat := 0
  epochs : List Epoch := []
  deriving DecidableEq, Repr

/-- Where a frame stands on the packet path (R18). -/
inductive FrameLoc where
  | fifo | bound | formed | stage (i : Nat) | exit | admitted | gone
  deriving DecidableEq, Repr

/-- A LENGTH relation deferred to the frame's end (R141): the value, whether equality is required, and CUR. -/
structure Deferred where
  value : Nat
  rel : Bool
  cur : Nat
  deriving DecidableEq, Repr

/-- One edit of a frame's edit list (R172). -/
structure EditOp where
  kind : Nat
  mark : Nat
  off : Nat
  len : Nat
  data : List Byte
  deriving DecidableEq, Repr

/-- One checksum operation of a frame's edit list (R172). -/
structure CsumOp where
  kind : Nat
  fmark : Nat
  foff : Nat
  rmark : Nat
  roff : Nat
  rlen : Nat
  deriving DecidableEq, Repr

/-- An IOAM trace fill to be applied (R376, R377). -/
structure IoamOp where
  profile : Nat
  mark : Nat
  off : Nat
  deriving DecidableEq, Repr

/-- A header vector (R135). -/
abbrev Hv := BitVec 6144

/-- A disposition (R152). -/
abbrev Disp := BitVec 128

/-- What a vector carries through the stages of either direction: header vector, disposition, sash stamp, edit list. -/
structure Vec where
  hv : Hv := 0
  disp : Disp := 0
  stamp : Word := 0
  edits : List EditOp := []
  csums : List CsumOp := []
  ioam : Option IoamOp := none
  hists : List Nat := []
  learnFull : Bool := false
  learnOver : Bool := false
  learnDrop : Bool := false
  dropped : Bool := false
  tv : List Byte := []
  scanV : Nat := 0
  snap : List (Nat × Word) := []
  hop : Nat := 0
  deriving DecidableEq, Repr

/-- The parse context of a bound frame (chapter 06, Contexts and binding) with the values in force at its binding. -/
structure Parse where
  cur : Nat := 0
  scratch : List Nat := [0, 0, 0, 0]
  loops : Nat := 0
  depth : Nat := 0
  pc : Nat := 0
  slots : Nat := 0
  window : Nat := 128
  budget : Nat := 48
  loopMax : Nat := 16
  depthMax : Nat := 8
  scan : Option (Nat × Nat) := none
  scanHalf : Option Bool := none
  scanDone : Bool := false
  h0 : Option Nat := none
  h1 : Option Nat := none
  deferred : List Deferred := []
  ended : Bool := false
  snap : List (Nat × Word) := []
  deriving DecidableEq, Repr

/-- A record that waits for its data bytes (R263): ring, kind, data bytes wanted, egress port, time, intrinsic region and
disposition at capture. -/
structure Capture where
  ring : Nat
  kind : Nat
  want : Nat
  eport : Nat
  time : Nat
  intr : BitVec 512
  disp : Disp
  flen : Nat
  deriving DecidableEq, Repr

/-- A frame from its first bit to its admission (R18 steps 1 to 5). -/
structure Frame where
  id : Nat
  port : Nat
  bytes : List Byte := []
  ended : Bool := false
  bad : Option Nat := none
  ts : Nat := 0
  phase : Nat := 0
  cyc : Nat := 0
  pinv : Bool := true
  loc : FrameLoc := .fifo
  boundSeq : Nat := 0
  parse : Parse := {}
  vec : Vec := {}
  stk : List Byte := []
  cells : Nat := 0
  metered : List (Nat × Bool × Bool) := []
  digested : List (Nat × Nat) := []
  mir : Option Nat := none
  caps : List Capture := []
  deriving DecidableEq, Repr

/-- A queue segment (R225). -/
inductive Seg where
  | crossing | head | middle | tail | spilling | returning
  deriving DecidableEq, Repr

/-- What the PTP engine remembers of a message of its own until its first bit leaves (R28): where its PTP header stands in the frame, its
kind, whether it is one-step, its sequence number, and of a Pdelay_Resp the arrival of the request, its correctionField and the port identity
that asked. -/
structure PtpTx where
  off : Nat := 0
  kind : Nat
  onestep : Bool := false
  seq : Nat
  t2 : Int := 0
  corr : Nat := 0
  req : List Byte := []
  deriving DecidableEq, Repr

/-- One copy of an admitted frame, from admission to the end of its transmission (R18 steps 5 to 11). -/
structure Copy where
  id : Nat
  fid : Option Nat := none
  stk : List Byte := []
  inPort : Nat
  port : Nat
  queue : Nat
  mcopy : Bool := false
  vec : Vec := {}
  pg : Option Nat := none
  pool : Nat := 0
  lossless : Bool := false
  toHeadroom : Bool := false
  cells : List Nat := []
  cellsDone : Bool := false
  ended : Bool := false
  bad : Option Nat := none
  cut : Bool := false
  len : Option Nat := none
  charged : Nat := 0
  bytes : List Byte := []
  out : List Byte := []
  seg : Seg := .crossing
  enqueued : Bool := false
  qdepth : Nat := 0
  spilled : Bool := false
  pages : List Nat := []
  pcells : List Nat := []
  ecn : Bool := false
  selected : Bool := false
  staged : Bool := false
  started : Bool := false
  startTime : Nat := 0
  dqTime : Nat := 0
  estage : Nat := 0
  suspended : Bool := false
  sentBytes : Nat := 0
  ts : Nat := 0
  held : Bool := false
  trunc : Nat := 0
  overrun : Bool := false
  domMsg : Bool := false
  ptp : Option PtpTx := none
  caps : List Capture := []
  vec0 : Option Vec := none
  rewLen : Nat := 0
  ets : Nat := 0
  frag : Option Nat := none
  injDone : Bool := false
  corrupt : Option (Nat × Nat × Bool) := none
  deriving DecidableEq, Repr

/-- A pattern of the pattern scanner (R144, R145). -/
structure Pattern where
  valid : Bool := false
  anchor : Bool := false
  aoff : Nat := 0
  len : Nat := 1
  cls : Nat := 0
  data : List Word := [0, 0, 0, 0, 0, 0, 0, 0]
  deriving DecidableEq, Repr

/-- The slices' front ends: frames not yet admitted, pattern stores, Parse Stores. -/
structure ParseUnit where
  store : List (Nat × BitVec 128) := []
  pats : List (Nat × Pattern) := []
  frames : List Frame := []
  nextId : Nat := 0
  nextBind : Nat := 0
  deriving DecidableEq, Repr

/-- A TCAM entry (R160, R177). -/
structure TcamEntry where
  valid : Bool := false
  par : BitVec 4 := 0
  value : BitVec 160 := 0
  mask : BitVec 160 := 0
  deriving DecidableEq, Repr

/-- A queued learn (R183, R184). -/
structure Learn where
  slice : Nat
  table : Nat
  key : List Byte
  act : Nat
  data : Nat
  port : Nat
  deriving DecidableEq, Repr

/-- What a message of the learn ring does to a sharing table (R186). -/
inductive RingOp where
  | insert (image : BitVec 512) | delete (key : List Byte) | touch (key : List Byte)
  deriving DecidableEq, Repr

/-- A message of the learn ring that waits at a slice (R186). -/
structure RingMsg where
  slice : Nat
  table : Nat
  op : RingOp
  deriving DecidableEq, Repr

/-- An ageing pass in progress: its table, its next step, and whether the AGE command made it (R187, R188). -/
structure AgePass where
  slice : Nat
  unit : Nat
  table : Nat
  next : Nat := 0
  deriving DecidableEq, Repr

/-- The token buckets of a meter in units of 1/8,192,000,000 byte, and when they were last brought up to date (R259). -/
structure MeterTok where
  tc : Int := 0
  tx : Int := 0
  time : Nat := 0
  deriving DecidableEq, Repr

/-- An entry of the flow cache of a slice (R379). -/
structure Flow where
  slice : Nat
  profile : Nat
  hash : Nat
  port : Nat
  packets : Nat
  bytes : Nat
  first : Nat
  last : Nat
  deriving DecidableEq, Repr

/-- The match-action stages and tables of every slice. -/
structure MatchUnit where
  store : List (Nat × BitVec 512) := []
  tcam : List (Nat × TcamEntry) := []
  ovfl : List (Nat × BitVec 512) := []
  badWords : List Nat := []
  swaps : List (Nat × Nat) := []
  needSash : List Nat := []
  learns : List Learn := []
  ring : List RingMsg := []
  ages : List AgePass := []
  ageStart : List (Nat × Nat) := []
  tokens : List (Nat × Nat × Nat) := []
  waiting : List (Nat × Word) := []
  tblHold : List (Nat × Nat) := []
  meters : List (Nat × MeterTok) := []
  flowlets : List (Nat × Nat × Nat) := []
  flows : List Flow := []
  kept : List (Nat × Word) := []
  groups : List (Nat × List Word) := []
  prune : List Nat := []
  deriving DecidableEq, Repr

/-- How a held cell is charged (R201, R205). -/
inductive CellCat where
  | reserved | shared | headroom
  deriving DecidableEq, Repr

/-- A cell of the shared buffer that is not free (R198): held, with its owners and the copies that still use it, or in
flight. -/
structure CellSt where
  inflight : Bool := false
  cat : CellCat := .shared
  pg : Option Nat := none
  pool : Nat := 0
  copies : List Nat := []
  since : Nat := 0
  deriving DecidableEq, Repr

/-- A cell in a staging store that waits for the crossbar (R213). -/
structure VoqCell where
  ingress : Nat
  egress : Nat
  copies : List Nat
  last : Bool
  deriving DecidableEq, Repr

/-- The head of an egress queue as the head age monitor sees it (R210): the copy, its age so far, and the last instant counted. -/
structure HeadSt where
  copy : Nat
  age : Nat := 0
  last : Nat
  deriving DecidableEq, Repr

/-- The shared buffer, the transfer scheduler and the copies of admitted frames: cells not free, copies in queue order, staging
stores, the crossbar's pointers, what has crossed and is not yet written, the counts of owners per pool, PFC timers, queue heads and
the auditor. -/
structure BufUnit where
  cells : List (Nat × CellSt) := []
  copies : List Copy := []
  nextCopy : Nat := 0
  voq : List VoqCell := []
  grantPtr : List Nat := List.replicate 32 0
  acceptPtr : List Nat := List.replicate 32 0
  crossed : List VoqCell := []
  pgCount : List (Nat × Nat) := []
  ownPool : List (Nat × Nat) := []
  pause : List (Nat × Nat) := []
  pfcNext : List (Nat × Nat) := []
  heads : List (Nat × HeadSt) := []
  auditMiss : Nat := 0
  auditAt : Nat := 0
  walk : Option Nat := none
  deriving DecidableEq, Repr

/-- A spill page that is not free (R224, R229): the queue that holds it, or in flight; lost in a retirement (R244), or dropped from its
queue's count and left for the audit (R236). -/
structure PageSt where
  inflight : Bool := false
  queue : Nat := 0
  lost : Bool := false
  orphan : Bool := false
  deriving DecidableEq, Repr

/-- The retirement of a pseudo-channel under way: when it started, the frames it has dropped, and whether it logged a queue (R243,
R411). -/
structure Retire where
  pc : Nat
  start : Nat
  lost : Nat := 0
  gap : Bool := false
  deriving DecidableEq, Repr

/-- A stack's controller behind its registers. -/
structure StackSt where
  cache : Nat := 2048
  idleSince : Nat := 0
  reqSince : Option Nat := none
  temp : Int := 25
  auditMiss : Nat := 0
  auditAt : Nat := 0
  walk : Option (List Nat) := none
  retireQ : List Nat := []
  retiring : Option Retire := none
  ueTimes : List (Nat × Nat) := []
  ceTimes : List (Nat × Nat) := []
  silent : List Nat := []
  trainDue : List (Nat × Nat) := []
  drains : List Nat := []
  rows : List (Nat × List Bool × Option Nat) := []
  refreshed : Nat := 0
  margins : List (Nat × Nat) := []
  held : Bool := false
  deriving DecidableEq, Repr

/-- The spill memory: the stacks, the pages that are not free, for each queue the last page of its middle with the cells used in
it, and the queues that are spilling (R226). -/
structure SpillUnit where
  stk : List StackSt := List.replicate 4 {}
  pages : List (Nat × PageSt) := []
  fill : List (Nat × Nat × Nat) := []
  running : List Nat := []
  deriving DecidableEq, Repr

/-- A shaper: its credit in units of 1/524,288,000 byte, when it was last brought up to date, and its wheel entry (R254,
R255). -/
structure ShaperSt where
  credit : Int := 0
  time : Nat := 0
  entry : Option Nat := none
  deriving DecidableEq, Repr

/-- A record of a peephole ring (R264): its sequence number and its bytes. -/
structure PepRec where
  seq : Nat
  bytes : List Byte
  deriving DecidableEq, Repr

/-- A record queued by a slice for the peephole store (R265): the capture, still without SEQ and LOST. -/
structure PepPending where
  slice : Nat
  ring : Nat
  kind : Nat
  bytes : List Byte
  deriving DecidableEq, Repr

/-- The schedulers, shapers and peephole rings. -/
structure QueUnit where
  deficits : List (Nat × Int) := []
  turns : List (Nat × Nat) := []
  shapers : List (Nat × ShaperSt) := []
  released : List (Nat × Nat × Nat) := []
  rings : List (Nat × List PepRec) := []
  ringLost : List Nat := []
  pending : List PepPending := []
  draining : List (Nat × Nat) := []
  refused : List (Nat × Nat) := []
  deriving DecidableEq, Repr

/-- A port's shutter list in force and its preemption behind the registers. -/
structure ShuUnit where
  active : List (Nat × Word) := []
  activeLen : List (Nat × Nat) := []
  checked : List Nat := []
  skips : List (Nat × Nat) := []
  counted : List (Nat × Nat) := []
  verifyAt : List (Nat × Nat) := []
  heldIn : List (Nat × Nat) := []
  deriving DecidableEq, Repr

/-- What a port learnt from its partner (R294, R297, R303). -/
structure Partner where
  rates : List Nat := []
  fec : Nat := 0
  lpi : Bool := false
  uid : Word := 0
  domain : Nat := 0
  lanes : Nat := 0
  wired : Bool := false
  deriving DecidableEq, Repr

/-- A port behind its registers. `rate` is the lane rate at which it trains, `fec` 0 none, 1 Clause 74, 2 RS(528,514), 3 RS(544,514). -/
structure PortSt where
  partner : Option Partner := none
  rate : Nat := 0
  fec : Nat := 0
  since : Nat := 0
  lastSel : Nat := 0
  lastRx : Nat := 0
  waking : Option Nat := none
  lastRefresh : Nat := 0
  retryAt : Option Nat := none
  noAn : Bool := false
  fullTrain : Bool := false
  resume : Bool := false
  held : List Nat := []
  heldUntil : Option Nat := none
  release : List Nat := []
  deriving DecidableEq, Repr

/-- A lane behind its registers. -/
structure LaneSt where
  lowCount : Nat := 0
  afterRevert : Option Nat := none
  snapAt : Nat := 0
  faultAt : Nat := 0
  worst : Option Nat := none
  degraded : Bool := false
  deriving DecidableEq, Repr

/-- A replacement of a data lane in progress, or its reversal (R309, R407): the data lane, the port, when it was triggered, the fabric time
of the move, whether it takes the lane back, whether the port is down meanwhile (R310), and whether the retest of R407 has passed. -/
structure Sparing where
  target : Nat
  port : Nat
  start : Nat
  moveAt : Option Nat := none
  restore : Bool := false
  down : Bool := false
  tested : Bool := false
  deriving DecidableEq, Repr

/-- The lanes and ports, and what the data ports have sent (newest first). -/
structure LaneUnit where
  ports : List (Nat × PortSt) := []
  lanes : List (Nat × LaneSt) := []
  sparing : List (Nat × Sparing) := []
  groupOn : List (Nat × Nat) := []
  sent : List (Nat × List Byte × Bool) := []
  deriving DecidableEq, Repr

/-- A step of the voltage/frequency sequencer in progress (R325): the operating point it leads to, whether it waits for the settling report,
whether it changes the voltage alone (R347) or the frequency alone (R327, R337), and when its present stage began. -/
structure DvfsStep where
  up : Bool
  target : Nat
  waitV : Bool
  voltOnly : Bool := false
  freqOnly : Bool := false
  since : Nat := 0
  deriving DecidableEq, Repr

/-- Clock generation behind its registers: the sequencer's step and the voltage last commanded in mV, since when each reference has had no
loss (R320), the muxes that are switching (R323), whether TIMMUX takes the oscillator that TIMREF does not name (R322), a frequency
measurement under way (R329), and the steps that an undervoltage forces (R337). -/
structure ClkUnit where
  step : Option DvfsStep := none
  voltage : Nat := 600
  refGood : List (Nat × Nat) := []
  switching : List Nat := []
  timAlt : Bool := false
  measure : Option Nat := none
  uvForced : Bool := false
  deriving DecidableEq, Repr

/-- A power hint held by the power controller (R343): its class, its start as a cycle number and phase (the number is open while
phase is invalid), its length in 2^-24 of the cycle, and, once it is active, the fabric time of its end. -/
structure Hint where
  cls : Nat
  cyc : Option Nat
  phase : Nat
  len : Nat
  stop : Option Nat := none
  deriving DecidableEq, Repr

/-- A daily summary of the ageing store (R347, R349). -/
structure Summary where
  shift : Nat
  lane : Nat
  laneMargin : Nat
  pcMargin : Nat
  sec : Nat
  deriving DecidableEq, Repr

/-- The power controller, ageing store and transom domain behind their registers: the device state, the supplies, the switched domains that
are on and those self-tested since they were last off (R332, R405); a REQ that is held (R334); since when the device leaves Active, whether
it goes on to Rest, and when warm-up began; the hints and the credit in µJ (R343); per rail the reads missed and made good in a row (R340); the
rounds in disagreement (R341); the thermal limit, when it last moved, and since when HOT has been low (R345); the cuts in force and since
when P has been low (R342); the daily summaries, the last re-plan, and
whether entry to Standby asks for one (R347); the PMBus round, and whether the supplies have risen from Off and PORESET_N is still low. -/
structure PwrUnit where
  dev : DevState := .off
  supplies : List Supply := []
  on : BitVec 127 := 0
  tested : BitVec 127 := 0
  reqHeld : Bool := false
  drainSince : Option Nat := none
  restAfter : Bool := false
  warmSince : Option Nat := none
  hints : List Hint := []
  creditRem : Nat := 2000000
  railMiss : List (Nat × Nat) := []
  railGood : List (Nat × Nat) := []
  disagree : Nat := 0
  thermal : Nat := 0
  throttleAt : Nat := 0
  coolSince : Option Nat := none
  hotStacks : List Nat := []
  belowSince : Option Nat := none
  linkCut : Bool := false
  deeper : Nat := 0
  summaries : List Summary := []
  lastReplan : Nat := 0
  replanDue : Bool := false
  round : Nat := 0
  fresh : Bool := false
  deriving DecidableEq, Repr

/-- A member as the manager sees it (R358). -/
structure Member where
  uid : Nat
  num : Nat
  lastHello : Nat
  pri : Nat
  zeroFor : Nat := 0
  flags : Nat := 0
  deriving DecidableEq, Repr

/-- A stack device as seen through its control frames (R369). -/
structure StkDev where
  uid : Nat
  pri : Nat
  num : Option Nat
  lastSeen : Nat
  deriving DecidableEq, Repr

/-- A domain message, or a stack control frame, that the device sends (R354, R369), and the ports it goes out on. -/
structure DomMsg where
  typ : Nat
  hops : Nat
  tomgr : Bool
  origin : Nat
  term : Nat
  seq : Nat
  ports : List Nat
  payload : List Byte
  deriving DecidableEq, Repr

/-- The domain engine and stack mode behind their registers; what they have sent (newest first). The SEQ of R356 starts at free value
number `seqDraw` and has advanced by `seq`. -/
structure FabUnit where
  seqDraw : Nat := 0
  seq : Nat := 0
  releasedAt : Nat := 0
  lastSeq : List (Nat × Nat × Nat) := []
  members : List Member := []
  waitingUids : List Nat := []
  released : List (Nat × Nat) := []
  rosterMiss : Nat := 0
  lastHello : Option Nat := none
  rosterNamed : Bool := false
  lastRoster : Nat := 0
  rosterDue : Bool := false
  lastCycleRx : Option Nat := none
  lastCycleTx : Option Nat := none
  lastPace : Nat := 0
  sentDeficit : Nat := 0
  arrivals : List (Nat × Nat) := []
  arrivedFrom : Nat := 0
  relaxFor : Nat := 0
  announced : Nat := 0
  sharedPeriod : Word := 0
  nextEpoch : Nat := 1
  shedSent : List (Nat × Nat) := []
  shedMask : Nat := 0
  silent : Bool := false
  stk : List StkDev := []
  stkMe : Option Nat := none
  stkSince : Nat := 0
  lastStk : Option Nat := none
  sent : List DomMsg := []
  deriving DecidableEq, Repr

/-- A slice repair in progress (R397). -/
structure SliceRepair where
  slice : Nat
  start : Nat
  upPorts : List Nat := []
  lost : Nat := 0
  deriving DecidableEq, Repr

/-- Repair in service behind its registers: the slice repair under way and those that wait (R395), the redundant rows used per macro
(R403), the instants of the corrected errors of a row in the last 24 h (R403, keyed as the redundant rows with the row below), and the
automatic lane triggers and the slices of LANE_GO that wait for the return of a slice (R395). -/
structure RepUnit where
  cur : Option SliceRepair := none
  queue : List Nat := []
  rows : List (Nat × Nat) := []
  corrected : List (Nat × List Nat) := []
  keptLanes : List Nat := []
  keptGo : List Nat := []
  deriving DecidableEq, Repr

/-- The pins that the device drives (chapter 19). -/
structure Pins where
  thermtripN : Bool := true
  role : BitVec 2 := 0
  jtag : Nat := 1
  deriving DecidableEq, Repr

/-- The device: everything but the queue of commands. `now` is device time (the transom counter's elapsed time since the last
cold restart) and `fab` fabric time, both in units of 2^-16 ns; `freeCtr` numbers the free values drawn so far and is the model's
own; `cntGen` is the number of the free value that CNT_GEN shows (R381); `ageRec` is the one-time-programmable milestone record (R348); `tmem` holds the bytes of every slice's exact-match memory, keyed slice × 4 MiB + address. -/
structure Dev where
  now : Nat := 0
  fab : Nat := 0
  freeCtr : Nat := 0
  cntGen : Nat := 0
  regs : List (Nat × Word) := []
  inForce : List (Nat × Word) := []
  counters : List (Nat × Word) := []
  lastEv : List (Nat × Nat) := []
  fuses : Fuses := {}
  ageRec : List Word := []
  tmem : List (Nat × Byte) := []
  tim : TimUnit := {}
  cyc : CycUnit := {}
  ctl : CtlUnit := {}
  csq : CsqUnit := {}
  img : ImgUnit := {}
  prs : ParseUnit := {}
  mat : MatchUnit := {}
  buf : BufUnit := {}
  spl : SpillUnit := {}
  que : QueUnit := {}
  shu : ShuUnit := {}
  lane : LaneUnit := {}
  clk : ClkUnit := {}
  pwr : PwrUnit := {}
  fabric : FabUnit := {}
  rep : RepUnit := {}
  pins : Pins := {}
  deriving DecidableEq, Repr

/-- The whole machine: the queue of commands that wait, first in first out, and the device. -/
structure State where
  pending : List Instr := []
  dev : Dev := {}
  deriving DecidableEq, Repr

/-- Why a step stops with a fault. No rule of the spec gives the block such a stop, so no meaning raises one. -/
inductive Fault where
  /-- Raised by nothing: the type needs a name of its own; a fault would be safe. -/
  | unreachable
  deriving DecidableEq, Repr

/-- Why a step has no meaning for a command. -/
inductive Refusal where
  /-- Raised by `exec`'s arm of a command that is not modelled yet; safe. -/
  | notModelled (mnemonic : String)
  /-- Raised by TEST_ACCESS_INSTRUCTION for a private instruction or internal scan before the deadbolt is blown: the spec
  names these instructions and does not say what they do (R129, R433); safe. -/
  | testAccessPrivate
  deriving DecidableEq, Repr

/-- The state right after reset: the supplies have risen from Off and PORESET_N has just been released (R9, R418, R422, GLB_RESET.CAUSE 0),
with an empty queue. Every field not named here has its default, which is its value at reset. Two free values have been drawn by then: CNT_GEN's
and the domain engine's first SEQ. -/
def State.reset : State where
  pending := []
  dev :=
    { regs := [(0x100000010, 0x20000000000), (0x100000018, 0x60000000000)]
      freeCtr := 2
      cntGen := 0
      img := { boot := .xoCheck }
      pwr := { dev := .standby
               supplies := [.aon, .core, .sram, .laneA, .laneB, .laneC, .io, .hbm, .qhbm]
               on := 0x4000003c000000000000000000000000
               tested := 0x4000003c000000000000000000000000 }
      fabric := { seqDraw := 1 } }

end Sys2Proof.Machine
end

