-- ==== Sys2Proof/Machine/Bits.lean ====
section
/-! DEFINITION. Bit fields, signed readings, byte strings, sparse maps and lists: the plain helpers that the meanings share. -/

namespace Sys2Proof.Machine

/-- Bits hi down to lo of a natural number (R4). -/
def bitsN (n hi lo : Nat) : Nat := (n >>> lo) % 2 ^ (hi + 1 - lo)

/-- Bits hi down to lo of a word (R4). -/
def wbits (w : Word) (hi lo : Nat) : Nat := bitsN w.toNat hi lo

/-- A word with bits hi down to lo replaced by the low bits of v. -/
def wput (w : Word) (hi lo v : Nat) : Word :=
  let m := (2 ^ (hi + 1 - lo) - 1) <<< lo
  (w &&& ~~~(BitVec.ofNat 64 m)) ||| (BitVec.ofNat 64 ((v % 2 ^ (hi + 1 - lo)) <<< lo))

/-- One bit of a natural number. -/
def bitN (n i : Nat) : Bool := n.testBit i

/-- The low n bits of v read as a two's complement number. -/
def sext (n v : Nat) : Int :=
  let u := v % 2 ^ n
  if 2 * u < 2 ^ n then (u : Int) else (u : Int) - (2 ^ n : Nat)

/-- An integer as an n-bit two's complement pattern. -/
def unsext (n : Nat) (v : Int) : Nat := (v % (2 ^ n : Nat)).toNat

/-- 0 acts as 1. -/
def atLeast1 (n : Nat) : Nat := max n 1

/-- Division rounding up. -/
def ceilDiv (a b : Nat) : Nat := (a + b - 1) / b

/-- The n low bytes of v, most significant first (R4: network order). -/
def beBytes : Nat → Nat → List Byte
  | 0, _ => []
  | n + 1, v => BitVec.ofNat 8 (v >>> (8 * n)) :: beBytes n v

/-- A byte string read as one number, most significant byte first. -/
def beNat (l : List Byte) : Nat := l.foldl (fun a b => a * 256 + b.toNat) 0

/-- The n low bytes of v, least significant first. -/
def leBytes : Nat → Nat → List Byte
  | 0, _ => []
  | n + 1, v => BitVec.ofNat 8 v :: leBytes n (v >>> 8)

/-- A byte string read as one number, least significant byte first. -/
def leNat : List Byte → Nat
  | [] => 0
  | b :: l => b.toNat + 256 * leNat l

/-- n bytes of a string from offset o. -/
def slice (l : List Byte) (o n : Nat) : List Byte := (l.drop o).take n

/-- A string with the bytes from offset o replaced by those of w; positions beyond the end are not written. -/
def overlay (l : List Byte) (o : Nat) (w : List Byte) : List Byte :=
  (l.take o ++ w ++ l.drop (o + w.length)).take l.length

/-- What a sparse map holds at k; unlisted keys hold the default d. -/
def mget {α : Type} (d : α) : List (Nat × α) → Nat → α
  | [], _ => d
  | (j, v) :: m, k => if j = k then v else mget d m k

/-- A sparse map without key k. -/
def mdel {α : Type} : List (Nat × α) → Nat → List (Nat × α)
  | [], _ => []
  | (j, v) :: m, k => if j = k then mdel m k else (j, v) :: mdel m k

/-- A sparse map with key k holding v, kept in rising order of keys. -/
def mins {α : Type} : List (Nat × α) → Nat → α → List (Nat × α)
  | [], k, v => [(k, v)]
  | (j, w) :: m, k, v => if j = k then (k, v) :: m else if k < j then (k, v) :: (j, w) :: m else (j, w) :: mins m k v

/-- A write to a sparse map: writing the default removes the entry, so that equal maps are equal lists. -/
def mset {α : Type} [DecidableEq α] (d : α) (m : List (Nat × α)) (k : Nat) (v : α) : List (Nat × α) :=
  if v = d then mdel m k else mins m k v

/-- The canonical form of a sparse map: keys strictly rising, no entry equal to the default. -/
def mwf {α : Type} [DecidableEq α] (d : α) : List (Nat × α) → Bool
  | [] => true
  | [(_, v)] => decide (v ≠ d)
  | (j, v) :: (k, w) :: m => decide (j < k) && decide (v ≠ d) && mwf d ((k, w) :: m)

/-- A sparse map with the entry at k, if there is one, replaced by f of it. -/
def mmod {α : Type} (m : List (Nat × α)) (k : Nat) (f : α → α) : List (Nat × α) :=
  m.map fun p => if p.1 = k then (p.1, f p.2) else p

/-- The entry of a sparse map at k. -/
def mget? {α : Type} : List (Nat × α) → Nat → Option α
  | [], _ => none
  | (j, v) :: m, k => if j = k then some v else mget? m k

/-- A list with element i replaced by f of it. -/
def lmod {α : Type} : List α → Nat → (α → α) → List α
  | [], _, _ => []
  | x :: l, 0, f => f x :: l
  | x :: l, i + 1, f => x :: lmod l i f

/-- The numbers from a up, n of them. -/
def rangeFrom (a n : Nat) : List Nat := (List.range n).map (a + ·)

/-- The first element for which p holds. -/
def findFirst {α : Type} (p : α → Bool) : List α → Option α
  | [] => none
  | x :: l => if p x then some x else findFirst p l

/-- A map over a list that threads a state. -/
def foldSt {α σ : Type} (l : List α) (f : σ → α → σ) (s : σ) : σ := l.foldl f s

/-- Apply f to a state when the condition holds. -/
def when {σ : Type} (c : Bool) (f : σ → σ) (s : σ) : σ := if c then f s else s

/-- n times f. -/
def iter {σ : Type} : Nat → (σ → σ) → σ → σ
  | 0, _, s => s
  | n + 1, f, s => iter n f (f s)

/-- Nanoseconds in the model's unit of time, 2^-16 ns. -/
def ns (n : Nat) : Nat := n * 65536
/-- Microseconds in the model's unit of time. -/
def us (n : Nat) : Nat := n * 65536000
/-- Milliseconds in the model's unit of time. -/
def ms (n : Nat) : Nat := n * 65536000000
/-- Seconds in the model's unit of time. -/
def sec (n : Nat) : Nat := n * 65536000000000

/-- SEC of a fabric time (R25). -/
def tSec (t : Nat) : Nat := (t / sec 1) % 2 ^ 48
/-- NS of a fabric time (R25). -/
def tNs (t : Nat) : Nat := (t % sec 1) / 65536
/-- FRAC of a fabric time (R25). -/
def tFrac (t : Nat) : Nat := t % 65536
/-- A fabric time in the 96-bit format of R25: SEC, NS, FRAC. -/
def t96 (t : Nat) : Nat := tSec t * 2 ^ 48 + tNs t * 2 ^ 16 + tFrac t
/-- A captured timestamp: FRAC[7:0] is 0 (R25). -/
def tStamp (t : Nat) : Nat := t / 256 * 256

end Sys2Proof.Machine
end

