-- ==== Sys2Proof/Machine/RegMap.lean ====
section
/-! DEFINITION. The register map: every documented register's name, place, reset value and fields with their access codes and
change classes, as the register tables of the chapters give them (R5, R6, R9, and the register rules of each chapter). -/

namespace Sys2Proof.Machine

/-- An access code of the table Access codes (chapter 00). -/
inductive Acc where
  | rw | ro | w1c | wo | sc | rws | ros
  deriving DecidableEq, Repr

/-- A change class of the table Change classes (chapter 00). -/
inductive Cls where
  | live | boundary | quiesce
  deriving DecidableEq, Repr

/-- A field of a register: its access code, its change class, and its bits. -/
structure FieldSpec where
  acc : Acc
  cls : Cls
  hi : Nat
  lo : Nat
  deriving DecidableEq, Repr

/-- The registers of the manual, in the order of the chapters. -/
inductive RegName where
  | GLB_ID
  | GLB_UID
  | GLB_PROFILE
  | GLB_QVIOL
  | GLB_RESET
  | TIM_CTL
  | TIM_STATUS
  | TIM_NOW_SEC
  | TIM_NOW_NSF
  | TIM_ADJ
  | TIM_FREQ
  | TIM_SRC
  | TIM_PTP_CLOCK
  | TIM_UTC
  | TIM_RCLK
  | TIM_PORT
  | TIM_TSCORR
  | CYC_CTL
  | CYC_STATUS
  | CYC_PERIOD
  | CYC_ANCHOR_SEC
  | CYC_ANCHOR_NSF
  | CYC_NOW_NUM
  | CYC_NOW_PHASE
  | CYC_IN
  | CYC_IN_PERIOD
  | CYC_PT_CTL
  | CYC_PT_ENTRY
  | CTL_CP
  | CTL_MAC
  | CTL_MSEC
  | CTL_MSEC_STAT
  | CTL_SAK_KEY
  | CTL_SAK_CMD
  | CTL_SAK_SCI
  | TVX_CTL
  | TVX_AUTH
  | TVX_SESSION
  | TVX_EVT_SUB
  | CSQ_CTL
  | CSQ_STATUS
  | CSQ_LIB
  | CSQ_REGION
  | CSQ_CTX
  | CSQ_CTX_FAULT
  | CSQ_EVSEL
  | CSQ_AT
  | GLB_VERSION
  | GLB_FUSE
  | GLB_STORE_VER
  | IMG_CTL
  | IMG_STATUS
  | IMG_FUSE_CMD
  | IMG_RDBK_ADDR
  | IMG_RDBK_DATA
  | IMG_BAREA
  | PRS_CTL
  | PRS_STATUS
  | PRS_ILLEGAL
  | PRS_SCAN_CTL
  | PRS_PORT
  | PRS_MALF
  | PRS_OPTSET
  | PRS_HKEY
  | PRS_HPROF_A
  | PRS_HPROF_B
  | PRS_PAT_CMD
  | PRS_PAT_ATTR
  | PRS_PAT_DATA
  | MAI_CTL
  | MAE_CTL
  | MAI_STATUS
  | MAE_STATUS
  | MAI_STAGE
  | MAE_STAGE
  | MAI_LU
  | MAE_LU
  | MAI_CARRY
  | MAI_SWAP
  | MAI_SASH_STATE
  | MAI_SASH_SETTLE
  | MAI_ILLEGAL
  | TBL_DESC_A
  | TBL_DESC_B
  | TBL_KEY
  | TBL_CMD
  | TBL_DATA
  | TBL_LEARN
  | TBL_AGE
  | TBL_PLIM
  | TBL_BADLOG_CTL
  | TBL_BADLOG
  | XFS_BD
  | XFS_MCG_CMD
  | XFS_MCG_DATA
  | BUF_CTL
  | BUF_STATUS
  | BUF_FREE
  | BUF_SP
  | BUF_HDRM
  | BUF_AUD_CTL
  | BUF_AUD_STATUS
  | BUF_LEAK_LOG
  | BUF_DFREE_LOG
  | BUF_QAGE_CTL
  | BUF_PORT
  | BUF_PORT_PFCQ
  | BUF_IPG_A
  | BUF_IPG_B
  | BUF_IPG_STAT
  | BUF_EQ
  | BUF_EQ_STAT
  | BUF_CT_EN
  | SPL_CTL
  | SPL_STATUS
  | SPL_POOL
  | SPL_SR_LAT
  | SPL_TRAIN
  | SPL_RETIRE
  | SPL_AUD_CTL
  | SPL_AUD_STATUS
  | SPL_DFREE_LOG
  | SPL_GPOOL
  | SPL_GAP_LOG
  | SPL_Q
  | SPL_Q_STAT
  | QUE_PORT
  | QUE_SCH
  | SHP_CFG
  | SHP_STAT
  | MTR_A
  | MTR_B
  | MTR_TOK
  | PEP_RING
  | PEP_RING_STAT
  | PEP_MIR
  | PEP_SAMP
  | SHU_CTL
  | SHU_STAT
  | SHU_SILL
  | SHU_ENTRY
  | LN_PORT
  | LN_PCTL
  | LN_PSTAT
  | LN_SPARE
  | LN_CFG
  | LN_STATUS
  | LN_ADAPT
  | INJ_CTL
  | INJ_MATCH_V
  | INJ_MATCH_M
  | INJ_SYM
  | CLK_CTL
  | CLK_STATUS
  | CLK_XO
  | CLK_DVFS
  | CLK_OP
  | CLK_FMEAS_CTL
  | CLK_FMEAS_RES
  | CLK_SWFORCED
  | PWR_CTL
  | PWR_STATE
  | PWR_CAP
  | PWR_STATUS
  | PWR_DOM_ON
  | PWR_RAIL
  | PWR_HCLASS
  | PWR_THERM
  | PWR_TSENS
  | AGE_CTL
  | AGE_STATUS
  | AGE_REC
  | TRN_CTL
  | TRN_WAKE
  | TRN_ALARM
  | FAB_CTL
  | FAB_STATUS
  | FAB_MGR
  | FAB_CMD
  | FAB_EPOCH_CMD
  | FAB_EPOCH_PHASE
  | FAB_EPOCH_GROUPS
  | FAB_MEMBER
  | FAB_MEMBER_UID
  | FAB_STK
  | FAB_STK_PORTS
  | FAB_STK_ROUTE
  | EVT_STATUS
  | EVT_MASK
  | EVT_SEV
  | EVT_SUMMARY
  | CNT_GEN
  | CNT_ALLOW
  | TEL_CTL
  | TEL_IOAM_A
  | TEL_IOAM_B
  | TEL_HIST
  | TEL_DIG
  | TEL_DIG_FLUSH
  | TEL_CSEL
  | GLB_REP_CTL
  | GLB_REP_STATUS
  | GLB_REP_FAILED
  | GLB_SRAM_REP
  | GLB_RECOV_LOG
  | MAI_FLOWLET
  deriving DecidableEq, Repr

/-- A register's place, its instances (count and stride of each index, outermost first), its reset value and its fields;
bits in no field are reserved and read 0 (R7). -/
structure RegSpec where
  base : Nat
  dims : List (Nat × Nat)
  reset : Nat
  fields : List FieldSpec
  deriving DecidableEq, Repr

/-- A field named for use in a meaning: its register and its bits. -/
structure Fld where
  reg : RegName
  hi : Nat
  lo : Nat
  deriving DecidableEq, Repr


/-- GLB_ID (R24). -/
def regSpec.GLB_ID : RegSpec :=
  ⟨0x0, [], 0x1024b0014c58,
    [⟨.ro, .live, 47, 32⟩, ⟨.ro, .live, 31, 24⟩, ⟨.ro, .live, 23, 16⟩, ⟨.ro, .live, 15, 0⟩]⟩
/-- GLB_UID (R24). -/
def regSpec.GLB_UID : RegSpec :=
  ⟨0x8, [], 0x0,
    [⟨.ro, .live, 63, 0⟩]⟩
/-- GLB_PROFILE (R24). -/
def regSpec.GLB_PROFILE : RegSpec :=
  ⟨0x18, [], 0x0,
    [⟨.ro, .live, 7, 6⟩, ⟨.ro, .live, 3, 2⟩, ⟨.ro, .live, 1, 1⟩, ⟨.ro, .live, 0, 0⟩]⟩
/-- GLB_QVIOL (R24). -/
def regSpec.GLB_QVIOL : RegSpec :=
  ⟨0x20, [], 0x0,
    [⟨.w1c, .live, 63, 63⟩, ⟨.w1c, .live, 62, 62⟩, ⟨.ro, .live, 51, 51⟩, ⟨.ro, .live, 50, 48⟩, ⟨.ro, .live, 39, 0⟩]⟩
/-- GLB_RESET (R24). -/
def regSpec.GLB_RESET : RegSpec :=
  ⟨0x28, [], 0x0,
    [⟨.ros, .live, 11, 8⟩, ⟨.sc, .live, 0, 0⟩]⟩
/-- TIM_CTL (R51). -/
def regSpec.TIM_CTL : RegSpec :=
  ⟨0x200000000, [], 0x7000000008a6410,
    [⟨.rw, .live, 63, 63⟩, ⟨.rw, .live, 62, 62⟩, ⟨.rw, .live, 61, 56⟩, ⟨.rw, .live, 55, 32⟩, ⟨.rw, .live, 23, 23⟩, ⟨.rw, .live, 21, 16⟩, ⟨.rw, .live, 15, 8⟩, ⟨.rw, .quiesce, 7, 4⟩, ⟨.rw, .quiesce, 3, 3⟩, ⟨.rw, .live, 0, 0⟩]⟩
/-- TIM_STATUS (R51). -/
def regSpec.TIM_STATUS : RegSpec :=
  ⟨0x200000008, [], 0x1fa0000000000000,
    [⟨.ro, .live, 63, 61⟩, ⟨.ro, .live, 60, 58⟩, ⟨.ro, .live, 57, 55⟩, ⟨.ro, .live, 54, 54⟩, ⟨.ro, .live, 53, 53⟩, ⟨.ro, .live, 31, 0⟩]⟩
/-- TIM_NOW_SEC (R51). -/
def regSpec.TIM_NOW_SEC : RegSpec :=
  ⟨0x200000010, [], 0x0,
    [⟨.ro, .live, 47, 0⟩]⟩
/-- TIM_NOW_NSF (R51). -/
def regSpec.TIM_NOW_NSF : RegSpec :=
  ⟨0x200000018, [], 0x0,
    [⟨.ro, .live, 47, 16⟩, ⟨.ro, .live, 15, 0⟩]⟩
/-- TIM_ADJ (R51). -/
def regSpec.TIM_ADJ : RegSpec :=
  ⟨0x200000020, [], 0x0,
    [⟨.sc, .live, 63, 63⟩, ⟨.rw, .live, 62, 62⟩, ⟨.rw, .live, 47, 0⟩]⟩
/-- TIM_FREQ (R51). -/
def regSpec.TIM_FREQ : RegSpec :=
  ⟨0x200000028, [], 0x0,
    [⟨.rw, .live, 39, 0⟩]⟩
/-- TIM_SRC (R51). -/
def regSpec.TIM_SRC : RegSpec :=
  ⟨0x200000030, [], 0x10500000000,
    [⟨.rw, .live, 40, 40⟩, ⟨.rw, .live, 35, 32⟩, ⟨.rw, .live, 31, 16⟩, ⟨.rw, .live, 15, 0⟩]⟩
/-- TIM_PTP_CLOCK (R51). -/
def regSpec.TIM_PTP_CLOCK : RegSpec :=
  ⟨0x200000038, [], 0xfffffef8808000,
    [⟨.rw, .quiesce, 57, 57⟩, ⟨.rw, .quiesce, 56, 56⟩, ⟨.rw, .live, 55, 40⟩, ⟨.rw, .live, 39, 32⟩, ⟨.rw, .live, 31, 24⟩, ⟨.rw, .live, 23, 16⟩, ⟨.rw, .live, 15, 8⟩, ⟨.rw, .quiesce, 6, 0⟩]⟩
/-- TIM_UTC (R51). -/
def regSpec.TIM_UTC : RegSpec :=
  ⟨0x200000040, [], 0x25,
    [⟨.rw, .live, 18, 18⟩, ⟨.rw, .live, 17, 17⟩, ⟨.rw, .live, 16, 16⟩, ⟨.rw, .live, 15, 0⟩]⟩
/-- TIM_RCLK (R51). -/
def regSpec.TIM_RCLK : RegSpec :=
  ⟨0x200000048, [(2, 8)], 0x40000000002a8000,
    [⟨.rw, .live, 63, 63⟩, ⟨.rw, .live, 62, 62⟩, ⟨.rw, .boundary, 21, 12⟩, ⟨.rw, .boundary, 10, 0⟩]⟩
/-- TIM_PORT (R51). -/
def regSpec.TIM_PORT : RegSpec :=
  ⟨0x200010000, [(1024, 8)], 0xdd033000000000,
    [⟨.rw, .live, 63, 63⟩, ⟨.rw, .quiesce, 62, 62⟩, ⟨.rw, .quiesce, 61, 61⟩, ⟨.rw, .quiesce, 60, 59⟩, ⟨.rw, .live, 55, 52⟩, ⟨.rw, .live, 51, 48⟩, ⟨.rw, .live, 47, 44⟩, ⟨.ro, .live, 43, 40⟩, ⟨.rw, .live, 39, 36⟩, ⟨.ro, .live, 35, 35⟩, ⟨.rw, .live, 31, 0⟩]⟩
/-- TIM_TSCORR (R51). -/
def regSpec.TIM_TSCORR : RegSpec :=
  ⟨0x200020000, [(1024, 8)], 0x0,
    [⟨.rw, .boundary, 63, 32⟩, ⟨.rw, .boundary, 31, 0⟩]⟩
/-- CYC_CTL (R52). -/
def regSpec.CYC_CTL : RegSpec :=
  ⟨0x210000000, [], 0x10000000000,
    [⟨.rw, .live, 63, 63⟩, ⟨.sc, .live, 62, 62⟩, ⟨.rw, .quiesce, 61, 60⟩, ⟨.rw, .boundary, 55, 54⟩, ⟨.rw, .boundary, 53, 48⟩, ⟨.rw, .boundary, 47, 40⟩]⟩
/-- CYC_STATUS (R52). -/
def regSpec.CYC_STATUS : RegSpec :=
  ⟨0x210000008, [], 0x0,
    [⟨.ro, .live, 63, 61⟩, ⟨.ro, .live, 60, 60⟩, ⟨.ro, .live, 47, 32⟩]⟩
/-- CYC_PERIOD (R52). -/
def regSpec.CYC_PERIOD : RegSpec :=
  ⟨0x210000010, [], 0xf42400000,
    [⟨.rw, .boundary, 63, 48⟩, ⟨.rw, .boundary, 47, 16⟩, ⟨.rw, .boundary, 15, 0⟩]⟩
/-- CYC_ANCHOR_SEC (R52). -/
def regSpec.CYC_ANCHOR_SEC : RegSpec :=
  ⟨0x210000018, [], 0x0,
    [⟨.rw, .quiesce, 47, 0⟩]⟩
/-- CYC_ANCHOR_NSF (R52). -/
def regSpec.CYC_ANCHOR_NSF : RegSpec :=
  ⟨0x210000020, [], 0x0,
    [⟨.rw, .quiesce, 47, 16⟩, ⟨.rw, .quiesce, 15, 0⟩]⟩
/-- CYC_NOW_NUM (R52). -/
def regSpec.CYC_NOW_NUM : RegSpec :=
  ⟨0x210000028, [], 0x0,
    [⟨.ro, .live, 47, 0⟩]⟩
/-- CYC_NOW_PHASE (R52). -/
def regSpec.CYC_NOW_PHASE : RegSpec :=
  ⟨0x210000030, [], 0x100000000,
    [⟨.ro, .live, 32, 32⟩, ⟨.ro, .live, 31, 0⟩]⟩
/-- CYC_IN (R52). -/
def regSpec.CYC_IN : RegSpec :=
  ⟨0x210000038, [], 0x8403000000000,
    [⟨.rw, .live, 55, 48⟩, ⟨.rw, .live, 47, 44⟩, ⟨.rw, .live, 43, 36⟩, ⟨.rw, .quiesce, 35, 35⟩]⟩
/-- CYC_IN_PERIOD (R52). -/
def regSpec.CYC_IN_PERIOD : RegSpec :=
  ⟨0x210000040, [], 0x0,
    [⟨.ro, .live, 47, 0⟩]⟩
/-- CYC_PT_CTL (R52). -/
def regSpec.CYC_PT_CTL : RegSpec :=
  ⟨0x210000048, [], 0x0,
    [⟨.sc, .live, 63, 63⟩, ⟨.w1c, .live, 62, 62⟩, ⟨.ro, .live, 61, 60⟩, ⟨.ro, .live, 43, 32⟩, ⟨.rw, .boundary, 12, 0⟩]⟩
/-- CYC_PT_ENTRY (R52). -/
def regSpec.CYC_PT_ENTRY : RegSpec :=
  ⟨0x210010000, [(4096, 8)], 0x0,
    [⟨.rw, .boundary, 62, 60⟩, ⟨.rw, .boundary, 59, 32⟩, ⟨.rw, .boundary, 31, 0⟩]⟩
/-- CTL_CP (R80). -/
def regSpec.CTL_CP : RegSpec :=
  ⟨0x100000000, [(2, 8)], 0x8000000000000000,
    [⟨.rw, .live, 63, 63⟩, ⟨.rw, .quiesce, 62, 61⟩, ⟨.rw, .quiesce, 60, 60⟩, ⟨.ro, .live, 57, 57⟩, ⟨.ro, .live, 56, 55⟩, ⟨.ro, .live, 54, 54⟩, ⟨.ro, .live, 53, 53⟩]⟩
/-- CTL_MAC (R80). -/
def regSpec.CTL_MAC : RegSpec :=
  ⟨0x100000010, [(2, 8)], 0x0,
    [⟨.rws, .boundary, 47, 0⟩]⟩
/-- CTL_MSEC (R80). -/
def regSpec.CTL_MSEC : RegSpec :=
  ⟨0x100000020, [(2, 8)], 0x0,
    [⟨.rw, .boundary, 63, 63⟩, ⟨.rw, .boundary, 62, 62⟩, ⟨.rw, .boundary, 61, 61⟩, ⟨.rw, .boundary, 60, 60⟩, ⟨.rw, .live, 31, 0⟩]⟩
/-- CTL_MSEC_STAT (R80). -/
def regSpec.CTL_MSEC_STAT : RegSpec :=
  ⟨0x100000030, [(2, 8)], 0x0,
    [⟨.ro, .live, 63, 62⟩, ⟨.ro, .live, 61, 60⟩, ⟨.ro, .live, 31, 0⟩]⟩
/-- CTL_SAK_KEY (R80). -/
def regSpec.CTL_SAK_KEY : RegSpec :=
  ⟨0x100000040, [(4, 8)], 0x0,
    [⟨.wo, .live, 63, 0⟩]⟩
/-- CTL_SAK_CMD (R80). -/
def regSpec.CTL_SAK_CMD : RegSpec :=
  ⟨0x100000060, [], 0x1,
    [⟨.sc, .live, 63, 63⟩, ⟨.rw, .live, 62, 62⟩, ⟨.rw, .live, 61, 61⟩, ⟨.rw, .live, 60, 60⟩, ⟨.rw, .live, 59, 58⟩, ⟨.rw, .live, 57, 57⟩, ⟨.rw, .live, 31, 0⟩]⟩
/-- CTL_SAK_SCI (R80). -/
def regSpec.CTL_SAK_SCI : RegSpec :=
  ⟨0x100000068, [], 0x0,
    [⟨.rw, .live, 63, 0⟩]⟩
/-- TVX_CTL (R80). -/
def regSpec.TVX_CTL : RegSpec :=
  ⟨0x100010000, [], 0xa30648800000000,
    [⟨.rw, .live, 63, 56⟩, ⟨.rw, .live, 55, 52⟩, ⟨.rw, .live, 51, 40⟩, ⟨.rw, .live, 39, 36⟩, ⟨.rw, .live, 35, 32⟩, ⟨.rw, .live, 31, 30⟩]⟩
/-- TVX_AUTH (R80). -/
def regSpec.TVX_AUTH : RegSpec :=
  ⟨0x100010100, [(16, 8)], 0x0,
    [⟨.rw, .live, 63, 63⟩, ⟨.rw, .live, 62, 61⟩, ⟨.rw, .live, 60, 60⟩, ⟨.rw, .live, 47, 0⟩]⟩
/-- TVX_SESSION (R80). -/
def regSpec.TVX_SESSION : RegSpec :=
  ⟨0x100010200, [(8, 8)], 0x0,
    [⟨.ro, .live, 63, 63⟩, ⟨.ro, .live, 62, 61⟩, ⟨.ro, .live, 60, 60⟩, ⟨.ro, .live, 59, 59⟩, ⟨.ro, .live, 58, 58⟩, ⟨.sc, .live, 57, 57⟩, ⟨.ro, .live, 47, 0⟩]⟩
/-- TVX_EVT_SUB (R80). -/
def regSpec.TVX_EVT_SUB : RegSpec :=
  ⟨0x100010300, [(8, 8)], 0x0,
    [⟨.rw, .live, 47, 0⟩]⟩
/-- CSQ_CTL (R113). -/
def regSpec.CSQ_CTL : RegSpec :=
  ⟨0x100020000, [(2, 0x1000)], 0x18,
    [⟨.rw, .live, 5, 0⟩]⟩
/-- CSQ_STATUS (R113). -/
def regSpec.CSQ_STATUS : RegSpec :=
  ⟨0x100022000, [], 0x0,
    [⟨.ro, .live, 63, 61⟩, ⟨.ro, .live, 60, 60⟩]⟩
/-- CSQ_LIB (R113). -/
def regSpec.CSQ_LIB : RegSpec :=
  ⟨0x100020010, [(2, 0x1000)], 0x0,
    [⟨.ro, .live, 47, 32⟩, ⟨.ro, .live, 16, 0⟩]⟩
/-- CSQ_REGION (R113). -/
def regSpec.CSQ_REGION : RegSpec :=
  ⟨0x100020100, [(2, 0x1000), (8, 8)], 0x0,
    [⟨.ro, .live, 47, 32⟩, ⟨.ro, .live, 16, 0⟩]⟩
/-- CSQ_CTX (R113). -/
def regSpec.CSQ_CTX : RegSpec :=
  ⟨0x100020200, [(2, 0x1000), (8, 8)], 0x0,
    [⟨.ro, .live, 63, 61⟩, ⟨.ro, .live, 60, 60⟩, ⟨.ro, .live, 59, 59⟩, ⟨.ro, .live, 58, 55⟩, ⟨.ro, .live, 47, 32⟩, ⟨.ro, .live, 24, 16⟩, ⟨.ro, .live, 15, 0⟩]⟩
/-- CSQ_CTX_FAULT (R113). -/
def regSpec.CSQ_CTX_FAULT : RegSpec :=
  ⟨0x100020300, [(2, 0x1000), (8, 8)], 0x0,
    [⟨.w1c, .live, 63, 63⟩, ⟨.ro, .live, 59, 56⟩, ⟨.ro, .live, 15, 0⟩]⟩
/-- CSQ_EVSEL (R113). -/
def regSpec.CSQ_EVSEL : RegSpec :=
  ⟨0x100020400, [(2, 0x1000), (8, 8)], 0x0,
    [⟨.ro, .live, 52, 48⟩, ⟨.ro, .live, 47, 0⟩]⟩
/-- CSQ_AT (R113). -/
def regSpec.CSQ_AT : RegSpec :=
  ⟨0x100020800, [(2, 0x1000), (16, 8)], 0x0,
    [⟨.ro, .live, 63, 63⟩, ⟨.ro, .live, 62, 60⟩, ⟨.ro, .live, 59, 32⟩, ⟨.ro, .live, 31, 0⟩]⟩
/-- GLB_VERSION (R130). -/
def regSpec.GLB_VERSION : RegSpec :=
  ⟨0x10, [], 0x0,
    [⟨.ro, .live, 63, 32⟩, ⟨.ro, .live, 31, 16⟩, ⟨.ro, .live, 15, 15⟩, ⟨.ro, .live, 7, 0⟩]⟩
/-- GLB_FUSE (R130). -/
def regSpec.GLB_FUSE : RegSpec :=
  ⟨0x30, [], 0x0,
    [⟨.ro, .live, 63, 63⟩, ⟨.ro, .live, 59, 56⟩, ⟨.ro, .live, 55, 52⟩, ⟨.ro, .live, 51, 50⟩, ⟨.ro, .live, 47, 40⟩]⟩
/-- GLB_STORE_VER (R130). -/
def regSpec.GLB_STORE_VER : RegSpec :=
  ⟨0x100, [(69, 8)], 0x0,
    [⟨.ro, .live, 31, 0⟩]⟩
/-- IMG_CTL (R130). -/
def regSpec.IMG_CTL : RegSpec :=
  ⟨0x100030000, [], 0x8000006400000000,
    [⟨.rws, .live, 63, 63⟩, ⟨.rw, .live, 47, 32⟩]⟩
/-- IMG_STATUS (R130). -/
def regSpec.IMG_STATUS : RegSpec :=
  ⟨0x100030008, [], 0x0,
    [⟨.ro, .live, 63, 61⟩, ⟨.ro, .live, 55, 48⟩, ⟨.ro, .live, 41, 32⟩, ⟨.ro, .live, 31, 0⟩]⟩
/-- IMG_FUSE_CMD (R130). -/
def regSpec.IMG_FUSE_CMD : RegSpec :=
  ⟨0x100030010, [], 0x0,
    [⟨.sc, .live, 63, 63⟩, ⟨.rw, .live, 62, 60⟩, ⟨.rw, .live, 59, 58⟩, ⟨.ro, .live, 57, 56⟩, ⟨.rw, .live, 55, 48⟩, ⟨.wo, .live, 47, 32⟩]⟩
/-- IMG_RDBK_ADDR (R130). -/
def regSpec.IMG_RDBK_ADDR : RegSpec :=
  ⟨0x100030018, [], 0x0,
    [⟨.sc, .live, 63, 63⟩, ⟨.rw, .live, 62, 56⟩, ⟨.rw, .live, 55, 40⟩, ⟨.rw, .live, 31, 0⟩]⟩
/-- IMG_RDBK_DATA (R130). -/
def regSpec.IMG_RDBK_DATA : RegSpec :=
  ⟨0x100030020, [(8, 8)], 0x0,
    [⟨.ro, .live, 63, 0⟩]⟩
/-- IMG_BAREA (R130). -/
def regSpec.IMG_BAREA : RegSpec :=
  ⟨0x100030060, [], 0x0,
    [⟨.ro, .live, 31, 0⟩]⟩
/-- PRS_CTL (R147). -/
def regSpec.PRS_CTL : RegSpec :=
  ⟨0x4000000000, [(32, 0x40000000)], 0x8030400800000000,
    [⟨.rw, .live, 63, 63⟩, ⟨.rw, .boundary, 55, 48⟩, ⟨.rw, .boundary, 47, 42⟩, ⟨.rw, .boundary, 35, 32⟩]⟩
/-- PRS_STATUS (R147). -/
def regSpec.PRS_STATUS : RegSpec :=
  ⟨0x4000000008, [(32, 0x40000000)], 0x8000000000000000,
    [⟨.ro, .live, 63, 63⟩, ⟨.ro, .live, 54, 48⟩]⟩
/-- PRS_ILLEGAL (R147). -/
def regSpec.PRS_ILLEGAL : RegSpec :=
  ⟨0x4000000010, [(32, 0x40000000)], 0x0,
    [⟨.w1c, .live, 63, 63⟩, ⟨.w1c, .live, 62, 62⟩, ⟨.ro, .live, 59, 56⟩, ⟨.ro, .live, 55, 51⟩, ⟨.ro, .live, 11, 0⟩]⟩
/-- PRS_SCAN_CTL (R147). -/
def regSpec.PRS_SCAN_CTL : RegSpec :=
  ⟨0x4000000018, [(32, 0x40000000)], 0x0,
    [⟨.rw, .quiesce, 63, 63⟩, ⟨.rw, .boundary, 62, 62⟩, ⟨.rw, .live, 61, 61⟩, ⟨.rw, .live, 59, 54⟩]⟩
/-- PRS_PORT (R147). -/
def regSpec.PRS_PORT : RegSpec :=
  ⟨0x4000000100, [(32, 0x40000000), (32, 8)], 0x0,
    [⟨.rw, .boundary, 61, 60⟩, ⟨.rw, .boundary, 59, 59⟩, ⟨.rw, .boundary, 11, 0⟩]⟩
/-- PRS_MALF (R147). -/
def regSpec.PRS_MALF : RegSpec :=
  ⟨0x4000000200, [(32, 0x40000000), (8, 8)], 0x80,
    [⟨.rw, .boundary, 63, 62⟩, ⟨.rw, .boundary, 55, 48⟩, ⟨.rw, .boundary, 9, 0⟩]⟩
/-- PRS_OPTSET (R147). -/
def regSpec.PRS_OPTSET : RegSpec :=
  ⟨0x4000000300, [(32, 0x40000000), (8, 8)], 0xffffffffffffffff,
    [⟨.rw, .boundary, 63, 0⟩]⟩
/-- PRS_HKEY (R147). -/
def regSpec.PRS_HKEY : RegSpec :=
  ⟨0x4000000400, [(32, 0x40000000), (13, 8)], 0x0,
    [⟨.rw, .quiesce, 63, 0⟩]⟩
/-- PRS_HPROF_A (R147). -/
def regSpec.PRS_HPROF_A : RegSpec :=
  ⟨0x4000000500, [(32, 0x40000000), (16, 16)], 0x0,
    [⟨.rw, .boundary, 63, 61⟩, ⟨.rw, .boundary, 60, 60⟩, ⟨.rw, .boundary, 55, 46⟩, ⟨.rw, .boundary, 45, 36⟩, ⟨.rw, .boundary, 35, 31⟩, ⟨.rw, .boundary, 30, 21⟩, ⟨.rw, .boundary, 20, 11⟩, ⟨.rw, .boundary, 10, 6⟩]⟩
/-- PRS_HPROF_B (R147). -/
def regSpec.PRS_HPROF_B : RegSpec :=
  ⟨0x4000000508, [(32, 0x40000000), (16, 16)], 0x0,
    [⟨.rw, .boundary, 63, 32⟩, ⟨.rw, .boundary, 31, 22⟩, ⟨.rw, .boundary, 21, 17⟩, ⟨.rw, .boundary, 16, 7⟩, ⟨.rw, .boundary, 6, 2⟩]⟩
/-- PRS_PAT_CMD (R147). -/
def regSpec.PRS_PAT_CMD : RegSpec :=
  ⟨0x4000000600, [(32, 0x40000000)], 0x0,
    [⟨.sc, .live, 63, 63⟩, ⟨.rw, .live, 62, 61⟩, ⟨.ro, .live, 60, 59⟩, ⟨.rw, .live, 11, 0⟩]⟩
/-- PRS_PAT_ATTR (R147). -/
def regSpec.PRS_PAT_ATTR : RegSpec :=
  ⟨0x4000000608, [(32, 0x40000000)], 0x0,
    [⟨.rw, .live, 63, 63⟩, ⟨.rw, .live, 62, 62⟩, ⟨.rw, .live, 55, 47⟩, ⟨.rw, .live, 46, 42⟩, ⟨.rw, .live, 41, 36⟩]⟩
/-- PRS_PAT_DATA (R147). -/
def regSpec.PRS_PAT_DATA : RegSpec :=
  ⟨0x4000000640, [(32, 0x40000000), (8, 8)], 0x0,
    [⟨.rw, .live, 63, 0⟩]⟩
/-- MAI_CTL (R174). -/
def regSpec.MAI_CTL : RegSpec :=
  ⟨0x4010000000, [(32, 0x40000000)], 0x8000000000000000,
    [⟨.rw, .live, 63, 63⟩]⟩
/-- MAE_CTL (R174). -/
def regSpec.MAE_CTL : RegSpec :=
  ⟨0x4020000000, [(32, 0x40000000)], 0x8000000000000000,
    [⟨.rw, .live, 63, 63⟩]⟩
/-- MAI_STATUS (R174). -/
def regSpec.MAI_STATUS : RegSpec :=
  ⟨0x4010000008, [(32, 0x40000000)], 0x8000000000000000,
    [⟨.ro, .live, 63, 63⟩]⟩
/-- MAE_STATUS (R174). -/
def regSpec.MAE_STATUS : RegSpec :=
  ⟨0x4020000008, [(32, 0x40000000)], 0x8000000000000000,
    [⟨.ro, .live, 63, 63⟩]⟩
/-- MAI_STAGE (R174). -/
def regSpec.MAI_STAGE : RegSpec :=
  ⟨0x4010000100, [(32, 0x40000000), (16, 8)], 0x0,
    [⟨.rw, .quiesce, 63, 60⟩, ⟨.rw, .quiesce, 59, 58⟩, ⟨.rw, .quiesce, 57, 57⟩, ⟨.rw, .boundary, 45, 32⟩]⟩
/-- MAE_STAGE (R174). -/
def regSpec.MAE_STAGE : RegSpec :=
  ⟨0x4020000100, [(32, 0x40000000), (12, 8)], 0x0,
    [⟨.rw, .quiesce, 63, 60⟩, ⟨.rw, .quiesce, 59, 58⟩, ⟨.rw, .quiesce, 57, 57⟩, ⟨.rw, .boundary, 45, 32⟩]⟩
/-- MAI_LU (R174). -/
def regSpec.MAI_LU : RegSpec :=
  ⟨0x4010000200, [(32, 0x40000000), (16, 32), (4, 8)], 0x0,
    [⟨.rw, .quiesce, 63, 58⟩, ⟨.rw, .boundary, 57, 57⟩, ⟨.rw, .boundary, 56, 56⟩, ⟨.rw, .boundary, 55, 51⟩, ⟨.rw, .quiesce, 50, 50⟩, ⟨.rw, .quiesce, 49, 40⟩, ⟨.rw, .quiesce, 39, 39⟩, ⟨.rw, .quiesce, 38, 29⟩]⟩
/-- MAE_LU (R174). -/
def regSpec.MAE_LU : RegSpec :=
  ⟨0x4020000200, [(32, 0x40000000), (12, 32), (4, 8)], 0x0,
    [⟨.rw, .quiesce, 63, 58⟩, ⟨.rw, .boundary, 57, 57⟩, ⟨.rw, .boundary, 56, 56⟩, ⟨.rw, .boundary, 55, 51⟩, ⟨.rw, .quiesce, 50, 50⟩, ⟨.rw, .quiesce, 49, 40⟩, ⟨.rw, .quiesce, 39, 39⟩, ⟨.rw, .quiesce, 38, 29⟩]⟩
/-- MAI_CARRY (R174). -/
def regSpec.MAI_CARRY : RegSpec :=
  ⟨0x4010000600, [(32, 0x40000000), (4, 8)], 0x0,
    [⟨.rw, .quiesce, 63, 63⟩, ⟨.rw, .quiesce, 57, 48⟩, ⟨.rw, .quiesce, 47, 40⟩]⟩
/-- MAI_SWAP (R174). -/
def regSpec.MAI_SWAP : RegSpec :=
  ⟨0x4010000400, [(32, 0x40000000)], 0x0,
    [⟨.sc, .live, 63, 63⟩, ⟨.rw, .live, 62, 62⟩, ⟨.rw, .live, 53, 48⟩]⟩
/-- MAI_SASH_STATE (R174). -/
def regSpec.MAI_SASH_STATE : RegSpec :=
  ⟨0x4010000408, [(32, 0x40000000)], 0x0,
    [⟨.ro, .live, 63, 0⟩]⟩
/-- MAI_SASH_SETTLE (R174). -/
def regSpec.MAI_SASH_SETTLE : RegSpec :=
  ⟨0x4010000410, [(32, 0x40000000)], 0x0,
    [⟨.ro, .live, 63, 0⟩]⟩
/-- MAI_ILLEGAL (R174). -/
def regSpec.MAI_ILLEGAL : RegSpec :=
  ⟨0x4010000418, [(32, 0x40000000)], 0x0,
    [⟨.w1c, .live, 63, 63⟩, ⟨.w1c, .live, 62, 62⟩, ⟨.ro, .live, 59, 56⟩, ⟨.ro, .live, 55, 51⟩, ⟨.ro, .live, 13, 0⟩]⟩
/-- TBL_DESC_A (R174). -/
def regSpec.TBL_DESC_A : RegSpec :=
  ⟨0x4010001000, [(32, 0x40000000), (64, 16)], 0x2000000000,
    [⟨.rw, .quiesce, 63, 61⟩, ⟨.rw, .quiesce, 60, 60⟩, ⟨.rw, .quiesce, 59, 54⟩, ⟨.rw, .quiesce, 53, 52⟩, ⟨.rw, .quiesce, 51, 46⟩, ⟨.rw, .quiesce, 45, 40⟩, ⟨.rw, .quiesce, 39, 35⟩, ⟨.rw, .quiesce, 34, 33⟩, ⟨.rw, .quiesce, 31, 16⟩]⟩
/-- TBL_DESC_B (R174). -/
def regSpec.TBL_DESC_B : RegSpec :=
  ⟨0x4010001008, [(32, 0x40000000), (64, 16)], 0x0,
    [⟨.rw, .quiesce, 63, 32⟩]⟩
/-- TBL_KEY (R174). -/
def regSpec.TBL_KEY : RegSpec :=
  ⟨0x4010001800, [(32, 0x40000000), (64, 8)], 0x0,
    [⟨.rw, .quiesce, 63, 48⟩, ⟨.rw, .quiesce, 47, 32⟩, ⟨.rw, .quiesce, 31, 16⟩, ⟨.rw, .quiesce, 15, 0⟩]⟩
/-- TBL_CMD (R193). -/
def regSpec.TBL_CMD : RegSpec :=
  ⟨0x4010002000, [(32, 0x40000000)], 0x0,
    [⟨.ro, .live, 63, 63⟩, ⟨.ro, .live, 55, 48⟩, ⟨.rw, .live, 31, 28⟩, ⟨.rw, .live, 27, 22⟩, ⟨.rw, .live, 21, 21⟩, ⟨.rw, .live, 19, 0⟩]⟩
/-- TBL_DATA (R193). -/
def regSpec.TBL_DATA : RegSpec :=
  ⟨0x4010002008, [(32, 0x40000000), (8, 8)], 0x0,
    [⟨.rw, .live, 63, 0⟩]⟩
/-- TBL_LEARN (R193). -/
def regSpec.TBL_LEARN : RegSpec :=
  ⟨0x4010002100, [(32, 0x40000000), (64, 8)], 0x0,
    [⟨.rw, .boundary, 63, 63⟩, ⟨.rw, .quiesce, 62, 62⟩, ⟨.rw, .boundary, 61, 58⟩, ⟨.rw, .boundary, 57, 56⟩, ⟨.rw, .boundary, 55, 55⟩, ⟨.rw, .boundary, 54, 50⟩, ⟨.rw, .boundary, 49, 36⟩, ⟨.rw, .boundary, 35, 18⟩]⟩
/-- TBL_AGE (R193). -/
def regSpec.TBL_AGE : RegSpec :=
  ⟨0x4010002300, [(32, 0x40000000), (4, 8)], 0x12c00000000,
    [⟨.rw, .live, 63, 63⟩, ⟨.rw, .live, 61, 56⟩, ⟨.rw, .live, 47, 32⟩, ⟨.ro, .live, 31, 0⟩]⟩
/-- TBL_PLIM (R193). -/
def regSpec.TBL_PLIM : RegSpec :=
  ⟨0x4010002400, [(32, 0x40000000), (32, 8)], 0x1ffff00000000,
    [⟨.rw, .live, 63, 63⟩, ⟨.rw, .live, 62, 62⟩, ⟨.rw, .live, 48, 32⟩, ⟨.rw, .live, 29, 18⟩, ⟨.ro, .live, 16, 0⟩]⟩
/-- TBL_BADLOG_CTL (R193). -/
def regSpec.TBL_BADLOG_CTL : RegSpec :=
  ⟨0x4010002500, [(32, 0x40000000)], 0x0,
    [⟨.sc, .live, 63, 63⟩, ⟨.w1c, .live, 62, 62⟩, ⟨.ro, .live, 4, 0⟩]⟩
/-- TBL_BADLOG (R193). -/
def regSpec.TBL_BADLOG : RegSpec :=
  ⟨0x4010002508, [(32, 0x40000000), (16, 8)], 0x0,
    [⟨.ro, .live, 63, 63⟩, ⟨.ro, .live, 62, 62⟩, ⟨.ro, .live, 59, 54⟩, ⟨.ro, .live, 53, 53⟩, ⟨.ro, .live, 19, 0⟩]⟩
/-- XFS_BD (R193). -/
def regSpec.XFS_BD : RegSpec :=
  ⟨0x840000000, [(16384, 8)], 0x0,
    [⟨.rw, .boundary, 63, 63⟩, ⟨.rw, .boundary, 15, 0⟩]⟩
/-- XFS_MCG_CMD (R193). -/
def regSpec.XFS_MCG_CMD : RegSpec :=
  ⟨0x840020000, [], 0x0,
    [⟨.sc, .live, 63, 63⟩, ⟨.rw, .live, 62, 62⟩, ⟨.rw, .live, 61, 61⟩, ⟨.rw, .live, 15, 0⟩]⟩
/-- XFS_MCG_DATA (R193). -/
def regSpec.XFS_MCG_DATA : RegSpec :=
  ⟨0x840020008, [(16, 8)], 0x0,
    [⟨.rw, .live, 63, 0⟩]⟩
/-- BUF_CTL (R221). -/
def regSpec.BUF_CTL : RegSpec :=
  ⟨0x800000000, [], 0x8000000000000000,
    [⟨.rw, .live, 63, 63⟩]⟩
/-- BUF_STATUS (R221). -/
def regSpec.BUF_STATUS : RegSpec :=
  ⟨0x800000008, [], 0x8000000000000000,
    [⟨.ro, .live, 63, 63⟩, ⟨.w1c, .live, 62, 62⟩, ⟨.ro, .live, 20, 0⟩]⟩
/-- BUF_FREE (R221). -/
def regSpec.BUF_FREE : RegSpec :=
  ⟨0x800000010, [], 0x140000,
    [⟨.ro, .live, 52, 32⟩, ⟨.ro, .live, 20, 0⟩]⟩
/-- BUF_SP (R221). -/
def regSpec.BUF_SP : RegSpec :=
  ⟨0x800000020, [(4, 8)], 0x0,
    [⟨.ro, .live, 52, 32⟩, ⟨.rw, .quiesce, 20, 0⟩]⟩
/-- BUF_HDRM (R221). -/
def regSpec.BUF_HDRM : RegSpec :=
  ⟨0x800000040, [], 0x0,
    [⟨.ro, .live, 52, 32⟩, ⟨.rw, .quiesce, 20, 0⟩]⟩
/-- BUF_AUD_CTL (R221). -/
def regSpec.BUF_AUD_CTL : RegSpec :=
  ⟨0x800000048, [], 0x8004000000000000,
    [⟨.rw, .live, 63, 63⟩, ⟨.rw, .live, 62, 62⟩, ⟨.sc, .live, 61, 61⟩, ⟨.rw, .live, 55, 48⟩]⟩
/-- BUF_AUD_STATUS (R221). -/
def regSpec.BUF_AUD_STATUS : RegSpec :=
  ⟨0x800000050, [], 0x0,
    [⟨.ro, .live, 63, 42⟩, ⟨.ro, .live, 41, 21⟩, ⟨.ro, .live, 20, 0⟩]⟩
/-- BUF_LEAK_LOG (R221). -/
def regSpec.BUF_LEAK_LOG : RegSpec :=
  ⟨0x800000080, [(16, 8)], 0x0,
    [⟨.ro, .live, 63, 63⟩, ⟨.ro, .live, 20, 0⟩]⟩
/-- BUF_DFREE_LOG (R221). -/
def regSpec.BUF_DFREE_LOG : RegSpec :=
  ⟨0x800000100, [], 0x0,
    [⟨.w1c, .live, 63, 63⟩, ⟨.w1c, .live, 62, 62⟩, ⟨.ro, .live, 39, 32⟩, ⟨.ro, .live, 20, 0⟩]⟩
/-- BUF_QAGE_CTL (R221). -/
def regSpec.BUF_QAGE_CTL : RegSpec :=
  ⟨0x800000108, [], 0x80000000000186a0,
    [⟨.rw, .live, 63, 63⟩, ⟨.rw, .live, 62, 62⟩, ⟨.rw, .live, 31, 0⟩]⟩
/-- BUF_PORT (R221). -/
def regSpec.BUF_PORT : RegSpec :=
  ⟨0x801000000, [(1024, 8)], 0xe000000000000000,
    [⟨.rw, .live, 63, 63⟩, ⟨.ro, .live, 62, 62⟩, ⟨.rw, .boundary, 61, 61⟩, ⟨.rw, .boundary, 60, 60⟩, ⟨.rw, .live, 59, 59⟩, ⟨.rw, .quiesce, 47, 0⟩]⟩
/-- BUF_PORT_PFCQ (R221). -/
def regSpec.BUF_PORT_PFCQ : RegSpec :=
  ⟨0x801010000, [(1024, 8)], 0xffffffffffffffff,
    [⟨.rw, .live, 63, 0⟩]⟩
/-- BUF_IPG_A (R221). -/
def regSpec.BUF_IPG_A : RegSpec :=
  ⟨0x801100000, [(1024, 0x80), (8, 16)], 0xffff,
    [⟨.rw, .quiesce, 63, 63⟩, ⟨.rw, .boundary, 62, 59⟩, ⟨.rw, .quiesce, 52, 32⟩, ⟨.rw, .boundary, 31, 24⟩, ⟨.rw, .boundary, 15, 0⟩]⟩
/-- BUF_IPG_B (R221). -/
def regSpec.BUF_IPG_B : RegSpec :=
  ⟨0x801100008, [(1024, 0x80), (8, 16)], 0xfffff00400000000,
    [⟨.rw, .boundary, 63, 44⟩, ⟨.rw, .boundary, 43, 32⟩, ⟨.rw, .quiesce, 19, 0⟩]⟩
/-- BUF_IPG_STAT (R221). -/
def regSpec.BUF_IPG_STAT : RegSpec :=
  ⟨0x801300000, [(1024, 64), (8, 8)], 0x0,
    [⟨.ro, .live, 63, 63⟩, ⟨.ro, .live, 52, 32⟩, ⟨.ro, .live, 19, 0⟩]⟩
/-- BUF_EQ (R221). -/
def regSpec.BUF_EQ : RegSpec :=
  ⟨0x802000000, [(1024, 0x100), (20, 8)], 0x3c1fffffff,
    [⟨.rw, .quiesce, 63, 44⟩, ⟨.rw, .boundary, 43, 40⟩, ⟨.rw, .boundary, 39, 39⟩, ⟨.rw, .boundary, 38, 38⟩, ⟨.rw, .boundary, 37, 34⟩, ⟨.rw, .boundary, 31, 29⟩, ⟨.rw, .boundary, 28, 16⟩, ⟨.rw, .boundary, 15, 0⟩]⟩
/-- BUF_EQ_STAT (R221). -/
def regSpec.BUF_EQ_STAT : RegSpec :=
  ⟨0x803000000, [(1024, 0x100), (20, 8)], 0x0,
    [⟨.ro, .live, 63, 63⟩, ⟨.ro, .live, 52, 32⟩, ⟨.ro, .live, 20, 0⟩]⟩
/-- BUF_CT_EN (R221). -/
def regSpec.BUF_CT_EN : RegSpec :=
  ⟨0x804000000, [(1024, 0x80), (16, 8)], 0x0,
    [⟨.rw, .boundary, 63, 0⟩]⟩
/-- SPL_CTL (R246). -/
def regSpec.SPL_CTL : RegSpec :=
  ⟨0xa00000000, [(4, 0x40000000)], 0xf0b20064f0000000,
    [⟨.rw, .quiesce, 63, 63⟩, ⟨.rw, .live, 62, 62⟩, ⟨.rw, .live, 61, 61⟩, ⟨.rw, .live, 60, 60⟩, ⟨.rw, .live, 55, 52⟩, ⟨.rw, .live, 50, 48⟩, ⟨.rw, .live, 47, 32⟩, ⟨.ro, .live, 31, 28⟩]⟩
/-- SPL_STATUS (R246). -/
def regSpec.SPL_STATUS : RegSpec :=
  ⟨0xa00000008, [(4, 0x40000000)], 0x8000000000000000,
    [⟨.ro, .live, 63, 63⟩, ⟨.ro, .live, 62, 61⟩, ⟨.ro, .live, 60, 60⟩, ⟨.ro, .live, 59, 59⟩, ⟨.ro, .live, 58, 58⟩, ⟨.ro, .live, 31, 0⟩]⟩
/-- SPL_POOL (R246). -/
def regSpec.SPL_POOL : RegSpec :=
  ⟨0xa00000010, [(4, 0x40000000)], 0x5f6c00,
    [⟨.ro, .live, 54, 32⟩, ⟨.ro, .live, 22, 0⟩]⟩
/-- SPL_SR_LAT (R246). -/
def regSpec.SPL_SR_LAT : RegSpec :=
  ⟨0xa00000018, [(4, 0x40000000)], 0x0,
    [⟨.sc, .live, 63, 63⟩, ⟨.ro, .live, 15, 0⟩]⟩
/-- SPL_TRAIN (R246). -/
def regSpec.SPL_TRAIN : RegSpec :=
  ⟨0xa00000020, [(4, 0x40000000)], 0x8000006400000800,
    [⟨.rw, .live, 63, 63⟩, ⟨.rw, .live, 47, 32⟩, ⟨.rw, .live, 15, 8⟩, ⟨.ro, .live, 7, 0⟩]⟩
/-- SPL_RETIRE (R246). -/
def regSpec.SPL_RETIRE : RegSpec :=
  ⟨0xa00000028, [(4, 0x40000000)], 0x40000403e8000000,
    [⟨.sc, .live, 63, 63⟩, ⟨.rw, .live, 62, 62⟩, ⟨.ro, .live, 61, 61⟩, ⟨.rw, .live, 52, 48⟩, ⟨.rw, .live, 47, 40⟩, ⟨.rw, .live, 39, 24⟩]⟩
/-- SPL_AUD_CTL (R246). -/
def regSpec.SPL_AUD_CTL : RegSpec :=
  ⟨0xa00000030, [(4, 0x40000000)], 0x8004000000000000,
    [⟨.rw, .live, 63, 63⟩, ⟨.rw, .live, 62, 62⟩, ⟨.sc, .live, 61, 61⟩, ⟨.rw, .live, 55, 48⟩]⟩
/-- SPL_AUD_STATUS (R246). -/
def regSpec.SPL_AUD_STATUS : RegSpec :=
  ⟨0xa00000038, [(4, 0x40000000)], 0x0,
    [⟨.ro, .live, 63, 40⟩, ⟨.ro, .live, 39, 16⟩]⟩
/-- SPL_DFREE_LOG (R246). -/
def regSpec.SPL_DFREE_LOG : RegSpec :=
  ⟨0xa00000040, [(4, 0x40000000)], 0x0,
    [⟨.w1c, .live, 63, 63⟩, ⟨.w1c, .live, 62, 62⟩, ⟨.ro, .live, 24, 0⟩]⟩
/-- SPL_GPOOL (R246). -/
def regSpec.SPL_GPOOL : RegSpec :=
  ⟨0xa10000000, [], 0x17db000,
    [⟨.w1c, .live, 63, 63⟩, ⟨.ro, .live, 56, 32⟩, ⟨.ro, .live, 24, 0⟩]⟩
/-- SPL_GAP_LOG (R246). -/
def regSpec.SPL_GAP_LOG : RegSpec :=
  ⟨0xa10000100, [(16, 8)], 0x0,
    [⟨.w1c, .live, 63, 63⟩, ⟨.ro, .live, 62, 62⟩, ⟨.ro, .live, 45, 36⟩, ⟨.ro, .live, 35, 32⟩, ⟨.ro, .live, 31, 0⟩]⟩
/-- SPL_Q (R246). -/
def regSpec.SPL_Q : RegSpec :=
  ⟨0xa11000000, [(1024, 0x80), (16, 8)], 0x4000010000000,
    [⟨.rw, .quiesce, 63, 63⟩, ⟨.rw, .boundary, 62, 59⟩, ⟨.rw, .boundary, 58, 38⟩, ⟨.rw, .boundary, 37, 17⟩, ⟨.rw, .quiesce, 16, 0⟩]⟩
/-- SPL_Q_STAT (R246). -/
def regSpec.SPL_Q_STAT : RegSpec :=
  ⟨0xa12000000, [(1024, 0x80), (16, 8)], 0x0,
    [⟨.ro, .live, 63, 39⟩, ⟨.ro, .live, 38, 18⟩]⟩
/-- QUE_PORT (R269). -/
def regSpec.QUE_PORT : RegSpec :=
  ⟨0x4028000000, [(32, 0x40000000), (32, 8)], 0x814000000000000,
    [⟨.rw, .boundary, 59, 56⟩, ⟨.rw, .boundary, 55, 48⟩]⟩
/-- QUE_SCH (R269). -/
def regSpec.QUE_SCH : RegSpec :=
  ⟨0x4028001000, [(32, 0x40000000), (32, 0x200), (32, 8)], 0x7fffffffc0000,
    [⟨.rw, .quiesce, 63, 61⟩, ⟨.rw, .quiesce, 60, 58⟩, ⟨.rw, .boundary, 57, 50⟩, ⟨.rw, .boundary, 49, 34⟩, ⟨.rw, .boundary, 33, 18⟩]⟩
/-- SHP_CFG (R269). -/
def regSpec.SHP_CFG : RegSpec :=
  ⟨0x4028010000, [(32, 0x40000000), (32, 0x200), (33, 8)], 0x100000000,
    [⟨.rw, .boundary, 63, 63⟩, ⟨.rw, .boundary, 62, 42⟩, ⟨.rw, .boundary, 41, 26⟩]⟩
/-- SHP_STAT (R269). -/
def regSpec.SHP_STAT : RegSpec :=
  ⟨0x4028020000, [(32, 0x40000000), (32, 0x200), (33, 8)], 0x8000000000000000,
    [⟨.ro, .live, 63, 63⟩, ⟨.ro, .live, 62, 62⟩, ⟨.ro, .live, 31, 0⟩]⟩
/-- MTR_A (R269). -/
def regSpec.MTR_A : RegSpec :=
  ⟨0x4028400000, [(32, 0x40000000), (65536, 16)], 0x0,
    [⟨.rw, .boundary, 63, 63⟩, ⟨.rw, .boundary, 62, 61⟩, ⟨.rw, .boundary, 60, 60⟩, ⟨.sc, .live, 59, 59⟩, ⟨.rw, .boundary, 58, 34⟩, ⟨.rw, .boundary, 33, 10⟩]⟩
/-- MTR_B (R269). -/
def regSpec.MTR_B : RegSpec :=
  ⟨0x4028400008, [(32, 0x40000000), (65536, 16)], 0x0,
    [⟨.rw, .boundary, 63, 39⟩, ⟨.rw, .boundary, 38, 15⟩]⟩
/-- MTR_TOK (R269). -/
def regSpec.MTR_TOK : RegSpec :=
  ⟨0x4028500000, [(32, 0x40000000), (65536, 8)], 0x0,
    [⟨.ro, .live, 63, 32⟩, ⟨.ro, .live, 31, 0⟩]⟩
/-- PEP_RING (R269). -/
def regSpec.PEP_RING : RegSpec :=
  ⟨0x880000000, [(256, 16)], 0x40000000,
    [⟨.rw, .live, 63, 63⟩, ⟨.rw, .boundary, 62, 62⟩, ⟨.rw, .live, 61, 61⟩, ⟨.rw, .quiesce, 55, 45⟩, ⟨.rw, .quiesce, 44, 33⟩, ⟨.rw, .boundary, 32, 27⟩]⟩
/-- PEP_RING_STAT (R269). -/
def regSpec.PEP_RING_STAT : RegSpec :=
  ⟨0x880000008, [(256, 16)], 0x0,
    [⟨.ro, .live, 55, 32⟩, ⟨.ro, .live, 31, 0⟩]⟩
/-- PEP_MIR (R269). -/
def regSpec.PEP_MIR : RegSpec :=
  ⟨0x880001000, [(64, 8)], 0x0,
    [⟨.rw, .boundary, 63, 63⟩, ⟨.rw, .boundary, 62, 62⟩, ⟨.rw, .boundary, 61, 58⟩, ⟨.rw, .boundary, 57, 56⟩, ⟨.rw, .boundary, 55, 48⟩, ⟨.rw, .boundary, 47, 38⟩, ⟨.rw, .boundary, 37, 33⟩, ⟨.rw, .boundary, 32, 19⟩]⟩
/-- PEP_SAMP (R269). -/
def regSpec.PEP_SAMP : RegSpec :=
  ⟨0x880002000, [(1024, 8)], 0x0,
    [⟨.rw, .boundary, 63, 63⟩, ⟨.rw, .boundary, 62, 59⟩, ⟨.rw, .boundary, 58, 58⟩, ⟨.rw, .boundary, 57, 54⟩, ⟨.rw, .boundary, 53, 46⟩]⟩
/-- SHU_CTL (R285). -/
def regSpec.SHU_CTL : RegSpec :=
  ⟨0x4028600000, [(32, 0x40000000), (32, 8)], 0x800001ffffe0000,
    [⟨.rw, .boundary, 63, 63⟩, ⟨.sc, .live, 62, 62⟩, ⟨.w1c, .live, 61, 61⟩, ⟨.rw, .quiesce, 60, 60⟩, ⟨.rw, .quiesce, 59, 59⟩, ⟨.rw, .quiesce, 58, 57⟩, ⟨.rw, .quiesce, 56, 37⟩, ⟨.rw, .live, 36, 17⟩, ⟨.ro, .live, 16, 9⟩, ⟨.rw, .boundary, 8, 0⟩]⟩
/-- SHU_STAT (R285). -/
def regSpec.SHU_STAT : RegSpec :=
  ⟨0x4028600100, [(32, 0x40000000), (32, 8)], 0x2000000000000000,
    [⟨.ro, .live, 63, 62⟩, ⟨.ro, .live, 61, 61⟩, ⟨.ro, .live, 60, 60⟩, ⟨.ro, .live, 59, 40⟩, ⟨.ro, .live, 39, 20⟩, ⟨.ro, .live, 19, 0⟩]⟩
/-- SHU_SILL (R285). -/
def regSpec.SHU_SILL : RegSpec :=
  ⟨0x4028601000, [(32, 0x40000000), (32, 0x100), (20, 8)], 0x0,
    [⟨.rw, .boundary, 63, 63⟩, ⟨.rw, .boundary, 61, 48⟩, ⟨.ro, .live, 31, 0⟩]⟩
/-- SHU_ENTRY (R285). -/
def regSpec.SHU_ENTRY : RegSpec :=
  ⟨0x4028610000, [(32, 0x40000000), (32, 0x800), (256, 8)], 0x0,
    [⟨.rw, .boundary, 51, 32⟩, ⟨.rw, .boundary, 31, 0⟩]⟩
/-- LN_PORT (R316). -/
def regSpec.LN_PORT : RegSpec :=
  ⟨0x1010000000, [(1024, 8)], 0x4012000000000,
    [⟨.rw, .live, 63, 63⟩, ⟨.rw, .quiesce, 62, 58⟩, ⟨.rw, .quiesce, 57, 53⟩, ⟨.rw, .quiesce, 52, 51⟩, ⟨.rw, .quiesce, 50, 48⟩, ⟨.rw, .quiesce, 47, 45⟩, ⟨.rw, .quiesce, 44, 43⟩, ⟨.rw, .quiesce, 42, 41⟩, ⟨.rw, .boundary, 40, 27⟩]⟩
/-- LN_PCTL (R316). -/
def regSpec.LN_PCTL : RegSpec :=
  ⟨0x1010002000, [(1024, 8)], 0xa006400000000,
    [⟨.rw, .live, 63, 63⟩, ⟨.rw, .live, 62, 62⟩, ⟨.rw, .live, 61, 61⟩, ⟨.rw, .live, 60, 48⟩, ⟨.rw, .live, 47, 46⟩, ⟨.sc, .live, 42, 42⟩, ⟨.rw, .live, 40, 32⟩]⟩
/-- LN_PSTAT (R316). -/
def regSpec.LN_PSTAT : RegSpec :=
  ⟨0x1010004000, [(1024, 8)], 0x0,
    [⟨.ro, .live, 63, 60⟩, ⟨.ro, .live, 59, 57⟩, ⟨.ro, .live, 56, 56⟩, ⟨.ro, .live, 55, 55⟩, ⟨.ro, .live, 54, 54⟩, ⟨.ro, .live, 53, 53⟩, ⟨.ro, .live, 52, 52⟩]⟩
/-- LN_SPARE (R316). -/
def regSpec.LN_SPARE : RegSpec :=
  ⟨0x1010006000, [(32, 8)], 0x8000500000000000,
    [⟨.rw, .live, 63, 63⟩, ⟨.rw, .live, 62, 62⟩, ⟨.sc, .live, 61, 61⟩, ⟨.rw, .live, 60, 56⟩, ⟨.ro, .live, 55, 53⟩, ⟨.ro, .live, 52, 48⟩, ⟨.rw, .live, 47, 42⟩]⟩
/-- LN_CFG (R316). -/
def regSpec.LN_CFG : RegSpec :=
  ⟨0x1000000000, [(1056, 0x10000)], 0x0,
    [⟨.rw, .quiesce, 63, 63⟩, ⟨.ro, .live, 62, 62⟩, ⟨.rw, .quiesce, 61, 56⟩]⟩
/-- LN_STATUS (R316). -/
def regSpec.LN_STATUS : RegSpec :=
  ⟨0x1000000008, [(1056, 0x10000)], 0x0,
    [⟨.ro, .live, 63, 62⟩, ⟨.ro, .live, 61, 61⟩, ⟨.ro, .live, 60, 60⟩, ⟨.ro, .live, 59, 59⟩, ⟨.ro, .live, 58, 54⟩, ⟨.ro, .live, 53, 53⟩, ⟨.ro, .live, 47, 40⟩, ⟨.ro, .live, 39, 32⟩]⟩
/-- LN_ADAPT (R316). -/
def regSpec.LN_ADAPT : RegSpec :=
  ⟨0x1000000010, [(1056, 0x10000)], 0x8010200a00000000,
    [⟨.rw, .live, 63, 63⟩, ⟨.rw, .live, 55, 48⟩, ⟨.rw, .live, 47, 40⟩, ⟨.rw, .live, 39, 32⟩]⟩
/-- INJ_CTL (R316). -/
def regSpec.INJ_CTL : RegSpec :=
  ⟨0x1010010000, [(1024, 32)], 0x200000003fc00,
    [⟨.rw, .live, 63, 63⟩, ⟨.rw, .quiesce, 62, 60⟩, ⟨.rw, .quiesce, 59, 59⟩, ⟨.rw, .quiesce, 58, 58⟩, ⟨.rw, .quiesce, 57, 53⟩, ⟨.rw, .quiesce, 52, 48⟩, ⟨.rw, .quiesce, 47, 32⟩, ⟨.rw, .quiesce, 26, 18⟩, ⟨.rw, .quiesce, 17, 10⟩, ⟨.rw, .quiesce, 9, 1⟩]⟩
/-- INJ_MATCH_V (R316). -/
def regSpec.INJ_MATCH_V : RegSpec :=
  ⟨0x1010010008, [(1024, 32)], 0x0,
    [⟨.rw, .quiesce, 63, 0⟩]⟩
/-- INJ_MATCH_M (R316). -/
def regSpec.INJ_MATCH_M : RegSpec :=
  ⟨0x1010010010, [(1024, 32)], 0x0,
    [⟨.rw, .quiesce, 63, 0⟩]⟩
/-- INJ_SYM (R316). -/
def regSpec.INJ_SYM : RegSpec :=
  ⟨0x1010010018, [(1024, 32)], 0x800000000000000,
    [⟨.rw, .quiesce, 63, 59⟩, ⟨.rw, .quiesce, 58, 56⟩]⟩
/-- CLK_CTL (R330). -/
def regSpec.CLK_CTL : RegSpec :=
  ⟨0x300000000, [], 0x2000000000000000,
    [⟨.rw, .live, 63, 63⟩, ⟨.rw, .live, 62, 62⟩, ⟨.rw, .quiesce, 61, 61⟩]⟩
/-- CLK_STATUS (R330). -/
def regSpec.CLK_STATUS : RegSpec :=
  ⟨0x300000008, [], 0x0,
    [⟨.ro, .live, 63, 63⟩, ⟨.ro, .live, 62, 62⟩, ⟨.ro, .live, 61, 61⟩, ⟨.ro, .live, 60, 60⟩, ⟨.ro, .live, 59, 59⟩, ⟨.ro, .live, 23, 16⟩, ⟨.ro, .live, 15, 8⟩]⟩
/-- CLK_XO (R330). -/
def regSpec.CLK_XO : RegSpec :=
  ⟨0x300000010, [], 0x0,
    [⟨.ro, .live, 63, 48⟩, ⟨.ro, .live, 47, 32⟩]⟩
/-- CLK_DVFS (R330). -/
def regSpec.CLK_DVFS : RegSpec :=
  ⟨0x300000018, [], 0x3400640000000000,
    [⟨.ro, .live, 63, 61⟩, ⟨.ro, .live, 60, 58⟩, ⟨.ro, .live, 57, 55⟩, ⟨.ro, .live, 54, 54⟩, ⟨.rw, .live, 47, 40⟩]⟩
/-- CLK_OP (R330). -/
def regSpec.CLK_OP : RegSpec :=
  ⟨0x300000040, [(6, 8)], 0x0,
    [⟨.ro, .live, 63, 63⟩, ⟨.ro, .live, 47, 32⟩, ⟨.ro, .live, 31, 16⟩, ⟨.ro, .live, 15, 0⟩]⟩
/-- CLK_FMEAS_CTL (R330). -/
def regSpec.CLK_FMEAS_CTL : RegSpec :=
  ⟨0x300000100, [], 0xa807d00000000,
    [⟨.sc, .live, 63, 63⟩, ⟨.rw, .live, 62, 57⟩, ⟨.rw, .live, 56, 51⟩, ⟨.rw, .live, 50, 45⟩, ⟨.rw, .live, 44, 29⟩]⟩
/-- CLK_FMEAS_RES (R330). -/
def regSpec.CLK_FMEAS_RES : RegSpec :=
  ⟨0x300000108, [], 0x0,
    [⟨.ro, .live, 63, 63⟩, ⟨.ro, .live, 62, 62⟩, ⟨.ro, .live, 47, 0⟩]⟩
/-- CLK_SWFORCED (R330). -/
def regSpec.CLK_SWFORCED : RegSpec :=
  ⟨0x300000110, [], 0x0,
    [⟨.w1c, .live, 7, 0⟩]⟩
/-- PWR_CTL (R350). -/
def regSpec.PWR_CTL : RegSpec :=
  ⟨0x400000000, [], 0xa864450000000000,
    [⟨.rw, .live, 63, 63⟩, ⟨.rw, .boundary, 62, 62⟩, ⟨.rw, .boundary, 61, 59⟩, ⟨.rw, .boundary, 58, 48⟩, ⟨.rw, .quiesce, 47, 46⟩, ⟨.rw, .boundary, 45, 40⟩]⟩
/-- PWR_STATE (R350). -/
def regSpec.PWR_STATE : RegSpec :=
  ⟨0x400000008, [], 0x5000000000000000,
    [⟨.rw, .live, 63, 62⟩, ⟨.ro, .live, 61, 60⟩, ⟨.ro, .live, 59, 59⟩]⟩
/-- PWR_CAP (R350). -/
def regSpec.PWR_CAP : RegSpec :=
  ⟨0x400000010, [], 0x4e204e207d007d0,
    [⟨.rw, .boundary, 63, 48⟩, ⟨.ro, .live, 47, 32⟩, ⟨.rw, .boundary, 31, 16⟩, ⟨.ro, .live, 15, 0⟩]⟩
/-- PWR_STATUS (R350). -/
def regSpec.PWR_STATUS : RegSpec :=
  ⟨0x400000018, [], 0x40000000,
    [⟨.ro, .live, 63, 48⟩, ⟨.ro, .live, 47, 32⟩, ⟨.ro, .live, 31, 20⟩, ⟨.ro, .live, 19, 18⟩, ⟨.ro, .live, 17, 17⟩, ⟨.ro, .live, 16, 16⟩, ⟨.ro, .live, 15, 15⟩, ⟨.ro, .live, 14, 14⟩, ⟨.ro, .live, 13, 13⟩, ⟨.ro, .live, 12, 12⟩]⟩
/-- PWR_DOM_ON (R350). -/
def regSpec.PWR_DOM_ON : RegSpec :=
  ⟨0x400000040, [(2, 8)], 0x0,
    [⟨.ro, .live, 63, 0⟩]⟩
/-- PWR_RAIL (R350). -/
def regSpec.PWR_RAIL : RegSpec :=
  ⟨0x400000100, [(16, 8)], 0x0,
    [⟨.rw, .quiesce, 63, 63⟩, ⟨.rw, .quiesce, 62, 60⟩, ⟨.rw, .quiesce, 59, 53⟩, ⟨.rw, .quiesce, 52, 45⟩, ⟨.rw, .quiesce, 44, 44⟩, ⟨.ro, .live, 32, 32⟩, ⟨.ro, .live, 31, 16⟩, ⟨.ro, .live, 15, 0⟩]⟩
/-- PWR_HCLASS (R350). -/
def regSpec.PWR_HCLASS : RegSpec :=
  ⟨0x400000200, [(16, 8)], 0x2000003200000000,
    [⟨.rw, .boundary, 63, 61⟩, ⟨.rw, .boundary, 60, 48⟩, ⟨.rw, .boundary, 47, 32⟩]⟩
/-- PWR_THERM (R350). -/
def regSpec.PWR_THERM : RegSpec :=
  ⟨0x400000300, [], 0x6e00001900258000,
    [⟨.rw, .boundary, 63, 56⟩, ⟨.ro, .live, 55, 44⟩, ⟨.ro, .live, 43, 38⟩, ⟨.rw, .boundary, 37, 30⟩, ⟨.rw, .live, 29, 22⟩, ⟨.rw, .live, 21, 12⟩]⟩
/-- PWR_TSENS (R350). -/
def regSpec.PWR_TSENS : RegSpec :=
  ⟨0x400000400, [(64, 8)], 0x0,
    [⟨.ro, .live, 63, 52⟩, ⟨.ros, .live, 51, 40⟩]⟩
/-- AGE_CTL (R350). -/
def regSpec.AGE_CTL : RegSpec :=
  ⟨0x410000000, [], 0x1840000000000000,
    [⟨.rw, .live, 63, 56⟩, ⟨.sc, .live, 55, 55⟩, ⟨.rw, .live, 54, 54⟩]⟩
/-- AGE_STATUS (R350). -/
def regSpec.AGE_STATUS : RegSpec :=
  ⟨0x410000008, [], 0x0,
    [⟨.ro, .live, 63, 48⟩, ⟨.ro, .live, 47, 0⟩]⟩
/-- AGE_REC (R350). -/
def regSpec.AGE_REC : RegSpec :=
  ⟨0x410000100, [(64, 8)], 0x0,
    [⟨.ro, .live, 63, 63⟩, ⟨.ro, .live, 62, 56⟩, ⟨.ro, .live, 55, 40⟩, ⟨.ro, .live, 39, 24⟩, ⟨.ro, .live, 23, 0⟩]⟩
/-- TRN_CTL (R350). -/
def regSpec.TRN_CTL : RegSpec :=
  ⟨0x7ff0000000, [], 0xf464e28980000000,
    [⟨.rw, .live, 63, 59⟩, ⟨.rw, .live, 58, 58⟩, ⟨.rw, .live, 55, 48⟩, ⟨.rw, .live, 47, 40⟩, ⟨.rw, .live, 39, 30⟩]⟩
/-- TRN_WAKE (R350). -/
def regSpec.TRN_WAKE : RegSpec :=
  ⟨0x7ff0000008, [], 0x0,
    [⟨.w1c, .live, 63, 59⟩, ⟨.ro, .live, 58, 58⟩, ⟨.ro, .live, 57, 57⟩, ⟨.ro, .live, 56, 48⟩]⟩
/-- TRN_ALARM (R350). -/
def regSpec.TRN_ALARM : RegSpec :=
  ⟨0x7ff0000010, [], 0x0,
    [⟨.rw, .live, 63, 63⟩, ⟨.rw, .live, 47, 0⟩]⟩
/-- FAB_CTL (R371). -/
def regSpec.FAB_CTL : RegSpec :=
  ⟨0x600000000, [], 0xf00000000ff4010,
    [⟨.rw, .live, 63, 63⟩, ⟨.rw, .boundary, 62, 61⟩, ⟨.rw, .quiesce, 60, 56⟩, ⟨.rw, .live, 55, 48⟩, ⟨.rw, .quiesce, 47, 32⟩, ⟨.rw, .boundary, 31, 16⟩, ⟨.rw, .live, 15, 8⟩, ⟨.rw, .live, 7, 0⟩]⟩
/-- FAB_STATUS (R371). -/
def regSpec.FAB_STATUS : RegSpec :=
  ⟨0x600000008, [], 0x0,
    [⟨.ro, .live, 63, 61⟩, ⟨.ro, .live, 60, 60⟩, ⟨.ro, .live, 59, 51⟩, ⟨.ro, .live, 50, 43⟩, ⟨.ro, .live, 42, 33⟩, ⟨.ro, .live, 31, 16⟩, ⟨.ro, .live, 15, 0⟩]⟩
/-- FAB_MGR (R371). -/
def regSpec.FAB_MGR : RegSpec :=
  ⟨0x600000010, [], 0x0,
    [⟨.ro, .live, 63, 0⟩]⟩
/-- FAB_CMD (R371). -/
def regSpec.FAB_CMD : RegSpec :=
  ⟨0x600000018, [], 0x0,
    [⟨.sc, .live, 63, 63⟩, ⟨.sc, .live, 62, 62⟩]⟩
/-- FAB_EPOCH_CMD (R371). -/
def regSpec.FAB_EPOCH_CMD : RegSpec :=
  ⟨0x600000020, [], 0x0,
    [⟨.sc, .live, 63, 63⟩, ⟨.ro, .live, 62, 61⟩, ⟨.rw, .live, 47, 0⟩]⟩
/-- FAB_EPOCH_PHASE (R371). -/
def regSpec.FAB_EPOCH_PHASE : RegSpec :=
  ⟨0x600000028, [], 0x0,
    [⟨.ro, .live, 63, 48⟩, ⟨.ro, .live, 47, 44⟩, ⟨.rw, .live, 31, 0⟩]⟩
/-- FAB_EPOCH_GROUPS (R371). -/
def regSpec.FAB_EPOCH_GROUPS : RegSpec :=
  ⟨0x600000030, [], 0x0,
    [⟨.rw, .live, 63, 0⟩]⟩
/-- FAB_MEMBER (R371). -/
def regSpec.FAB_MEMBER : RegSpec :=
  ⟨0x600010000, [(256, 8)], 0x0,
    [⟨.ro, .live, 63, 63⟩, ⟨.ro, .live, 62, 62⟩, ⟨.ro, .live, 61, 61⟩, ⟨.ro, .live, 60, 60⟩, ⟨.ro, .live, 59, 56⟩, ⟨.ro, .live, 55, 40⟩, ⟨.ro, .live, 34, 32⟩, ⟨.ro, .live, 31, 16⟩, ⟨.ro, .live, 15, 0⟩]⟩
/-- FAB_MEMBER_UID (R371). -/
def regSpec.FAB_MEMBER_UID : RegSpec :=
  ⟨0x600010800, [(256, 8)], 0x0,
    [⟨.ro, .live, 63, 0⟩]⟩
/-- FAB_STK (R371). -/
def regSpec.FAB_STK : RegSpec :=
  ⟨0x601000000, [], 0x4000000000000000,
    [⟨.rw, .live, 63, 63⟩, ⟨.rw, .live, 62, 55⟩, ⟨.ro, .live, 54, 53⟩, ⟨.ro, .live, 52, 51⟩, ⟨.ro, .live, 50, 48⟩, ⟨.ro, .live, 47, 44⟩]⟩
/-- FAB_STK_PORTS (R371). -/
def regSpec.FAB_STK_PORTS : RegSpec :=
  ⟨0x601000010, [(16, 8)], 0x0,
    [⟨.rw, .quiesce, 63, 0⟩]⟩
/-- FAB_STK_ROUTE (R371). -/
def regSpec.FAB_STK_ROUTE : RegSpec :=
  ⟨0x601000100, [(4, 8)], 0x0,
    [⟨.rw, .boundary, 63, 60⟩, ⟨.rw, .boundary, 59, 50⟩, ⟨.rw, .boundary, 49, 40⟩, ⟨.rw, .boundary, 39, 30⟩, ⟨.rw, .boundary, 29, 20⟩]⟩
/-- EVT_STATUS (R393). -/
def regSpec.EVT_STATUS : RegSpec :=
  ⟨0x500000000, [(48, 8)], 0x0,
    [⟨.ro, .live, 63, 32⟩, ⟨.w1c, .live, 31, 0⟩]⟩
/-- EVT_MASK (R393). -/
def regSpec.EVT_MASK : RegSpec :=
  ⟨0x500000200, [(48, 8)], 0xffffffff,
    [⟨.rw, .live, 31, 0⟩]⟩
/-- EVT_SEV (R393). -/
def regSpec.EVT_SEV : RegSpec :=
  ⟨0x500000400, [(48, 8)], 0x0,
    [⟨.ro, .live, 63, 0⟩]⟩
/-- EVT_SUMMARY (R393). -/
def regSpec.EVT_SUMMARY : RegSpec :=
  ⟨0x500000600, [], 0x0,
    [⟨.ro, .live, 63, 63⟩, ⟨.ro, .live, 47, 0⟩]⟩
/-- CNT_GEN (R393). -/
def regSpec.CNT_GEN : RegSpec :=
  ⟨0x510000000, [], 0x0,
    [⟨.ro, .live, 63, 0⟩]⟩
/-- CNT_ALLOW (R393). -/
def regSpec.CNT_ALLOW : RegSpec :=
  ⟨0x510000100, [(64, 8)], 0x0,
    [⟨.rw, .live, 31, 0⟩]⟩
/-- TEL_CTL (R393). -/
def regSpec.TEL_CTL : RegSpec :=
  ⟨0x4030000000, [(32, 0x40000000)], 0x0,
    [⟨.rw, .boundary, 31, 0⟩]⟩
/-- TEL_IOAM_A (R393). -/
def regSpec.TEL_IOAM_A : RegSpec :=
  ⟨0x4030000100, [(32, 0x40000000), (4, 16)], 0x0,
    [⟨.rw, .boundary, 63, 63⟩, ⟨.rw, .boundary, 62, 62⟩, ⟨.rw, .boundary, 55, 0⟩]⟩
/-- TEL_IOAM_B (R393). -/
def regSpec.TEL_IOAM_B : RegSpec :=
  ⟨0x4030000108, [(32, 0x40000000), (4, 16)], 0xc00000000000,
    [⟨.rw, .boundary, 63, 48⟩, ⟨.rw, .boundary, 47, 45⟩, ⟨.rw, .boundary, 44, 36⟩, ⟨.rw, .boundary, 31, 0⟩]⟩
/-- TEL_HIST (R393). -/
def regSpec.TEL_HIST : RegSpec :=
  ⟨0x4030000200, [(32, 0x40000000), (8, 8)], 0x1000000000000000,
    [⟨.rw, .boundary, 63, 63⟩, ⟨.rw, .boundary, 62, 62⟩, ⟨.rw, .boundary, 61, 58⟩]⟩
/-- TEL_DIG (R393). -/
def regSpec.TEL_DIG : RegSpec :=
  ⟨0x4030000300, [(32, 0x40000000), (4, 8)], 0xfa000f000000,
    [⟨.rw, .live, 63, 63⟩, ⟨.rw, .boundary, 62, 62⟩, ⟨.rw, .boundary, 61, 54⟩, ⟨.rw, .live, 53, 38⟩, ⟨.rw, .live, 37, 22⟩]⟩
/-- TEL_DIG_FLUSH (R393). -/
def regSpec.TEL_DIG_FLUSH : RegSpec :=
  ⟨0x4030000380, [(32, 0x40000000)], 0x0,
    [⟨.sc, .live, 63, 63⟩]⟩
/-- TEL_CSEL (R393). -/
def regSpec.TEL_CSEL : RegSpec :=
  ⟨0x4030000400, [(32, 0x40000000), (16, 8)], 0x0,
    [⟨.rw, .live, 63, 63⟩, ⟨.ro, .live, 62, 62⟩, ⟨.rw, .live, 57, 48⟩, ⟨.rw, .live, 31, 0⟩]⟩
/-- GLB_REP_CTL (R412). -/
def regSpec.GLB_REP_CTL : RegSpec :=
  ⟨0x400, [], 0x4020000000000000,
    [⟨.sc, .live, 63, 63⟩, ⟨.rw, .live, 62, 62⟩, ⟨.sc, .live, 61, 61⟩, ⟨.rw, .live, 60, 60⟩, ⟨.sc, .live, 59, 59⟩, ⟨.rw, .live, 58, 54⟩, ⟨.rw, .live, 53, 53⟩]⟩
/-- GLB_REP_STATUS (R412). -/
def regSpec.GLB_REP_STATUS : RegSpec :=
  ⟨0x408, [], 0x0,
    [⟨.ro, .live, 63, 61⟩, ⟨.ro, .live, 60, 56⟩, ⟨.ro, .live, 47, 44⟩, ⟨.ro, .live, 31, 0⟩]⟩
/-- GLB_REP_FAILED (R412). -/
def regSpec.GLB_REP_FAILED : RegSpec :=
  ⟨0x410, [], 0x0,
    [⟨.ro, .live, 31, 0⟩]⟩
/-- GLB_SRAM_REP (R412). -/
def regSpec.GLB_SRAM_REP : RegSpec :=
  ⟨0x418, [], 0x100000,
    [⟨.ros, .live, 63, 48⟩, ⟨.ro, .live, 47, 32⟩, ⟨.rw, .live, 31, 16⟩]⟩
/-- GLB_RECOV_LOG (R412). -/
def regSpec.GLB_RECOV_LOG : RegSpec :=
  ⟨0x500, [(16, 8)], 0x0,
    [⟨.w1c, .live, 63, 63⟩, ⟨.ro, .live, 62, 59⟩, ⟨.ro, .live, 58, 48⟩, ⟨.ro, .live, 47, 24⟩, ⟨.ro, .live, 23, 23⟩, ⟨.ro, .live, 19, 0⟩]⟩
/-- MAI_FLOWLET (R412). -/
def regSpec.MAI_FLOWLET : RegSpec :=
  ⟨0x4010000500, [(32, 0x40000000)], 0x3200000000,
    [⟨.rw, .boundary, 63, 63⟩, ⟨.sc, .live, 62, 62⟩, ⟨.rw, .boundary, 61, 57⟩, ⟨.rw, .boundary, 47, 32⟩]⟩

/-- The register tables of the chapters. -/
def RegName.spec : RegName → RegSpec
  | .GLB_ID => regSpec.GLB_ID
  | .GLB_UID => regSpec.GLB_UID
  | .GLB_PROFILE => regSpec.GLB_PROFILE
  | .GLB_QVIOL => regSpec.GLB_QVIOL
  | .GLB_RESET => regSpec.GLB_RESET
  | .TIM_CTL => regSpec.TIM_CTL
  | .TIM_STATUS => regSpec.TIM_STATUS
  | .TIM_NOW_SEC => regSpec.TIM_NOW_SEC
  | .TIM_NOW_NSF => regSpec.TIM_NOW_NSF
  | .TIM_ADJ => regSpec.TIM_ADJ
  | .TIM_FREQ => regSpec.TIM_FREQ
  | .TIM_SRC => regSpec.TIM_SRC
  | .TIM_PTP_CLOCK => regSpec.TIM_PTP_CLOCK
  | .TIM_UTC => regSpec.TIM_UTC
  | .TIM_RCLK => regSpec.TIM_RCLK
  | .TIM_PORT => regSpec.TIM_PORT
  | .TIM_TSCORR => regSpec.TIM_TSCORR
  | .CYC_CTL => regSpec.CYC_CTL
  | .CYC_STATUS => regSpec.CYC_STATUS
  | .CYC_PERIOD => regSpec.CYC_PERIOD
  | .CYC_ANCHOR_SEC => regSpec.CYC_ANCHOR_SEC
  | .CYC_ANCHOR_NSF => regSpec.CYC_ANCHOR_NSF
  | .CYC_NOW_NUM => regSpec.CYC_NOW_NUM
  | .CYC_NOW_PHASE => regSpec.CYC_NOW_PHASE
  | .CYC_IN => regSpec.CYC_IN
  | .CYC_IN_PERIOD => regSpec.CYC_IN_PERIOD
  | .CYC_PT_CTL => regSpec.CYC_PT_CTL
  | .CYC_PT_ENTRY => regSpec.CYC_PT_ENTRY
  | .CTL_CP => regSpec.CTL_CP
  | .CTL_MAC => regSpec.CTL_MAC
  | .CTL_MSEC => regSpec.CTL_MSEC
  | .CTL_MSEC_STAT => regSpec.CTL_MSEC_STAT
  | .CTL_SAK_KEY => regSpec.CTL_SAK_KEY
  | .CTL_SAK_CMD => regSpec.CTL_SAK_CMD
  | .CTL_SAK_SCI => regSpec.CTL_SAK_SCI
  | .TVX_CTL => regSpec.TVX_CTL
  | .TVX_AUTH => regSpec.TVX_AUTH
  | .TVX_SESSION => regSpec.TVX_SESSION
  | .TVX_EVT_SUB => regSpec.TVX_EVT_SUB
  | .CSQ_CTL => regSpec.CSQ_CTL
  | .CSQ_STATUS => regSpec.CSQ_STATUS
  | .CSQ_LIB => regSpec.CSQ_LIB
  | .CSQ_REGION => regSpec.CSQ_REGION
  | .CSQ_CTX => regSpec.CSQ_CTX
  | .CSQ_CTX_FAULT => regSpec.CSQ_CTX_FAULT
  | .CSQ_EVSEL => regSpec.CSQ_EVSEL
  | .CSQ_AT => regSpec.CSQ_AT
  | .GLB_VERSION => regSpec.GLB_VERSION
  | .GLB_FUSE => regSpec.GLB_FUSE
  | .GLB_STORE_VER => regSpec.GLB_STORE_VER
  | .IMG_CTL => regSpec.IMG_CTL
  | .IMG_STATUS => regSpec.IMG_STATUS
  | .IMG_FUSE_CMD => regSpec.IMG_FUSE_CMD
  | .IMG_RDBK_ADDR => regSpec.IMG_RDBK_ADDR
  | .IMG_RDBK_DATA => regSpec.IMG_RDBK_DATA
  | .IMG_BAREA => regSpec.IMG_BAREA
  | .PRS_CTL => regSpec.PRS_CTL
  | .PRS_STATUS => regSpec.PRS_STATUS
  | .PRS_ILLEGAL => regSpec.PRS_ILLEGAL
  | .PRS_SCAN_CTL => regSpec.PRS_SCAN_CTL
  | .PRS_PORT => regSpec.PRS_PORT
  | .PRS_MALF => regSpec.PRS_MALF
  | .PRS_OPTSET => regSpec.PRS_OPTSET
  | .PRS_HKEY => regSpec.PRS_HKEY
  | .PRS_HPROF_A => regSpec.PRS_HPROF_A
  | .PRS_HPROF_B => regSpec.PRS_HPROF_B
  | .PRS_PAT_CMD => regSpec.PRS_PAT_CMD
  | .PRS_PAT_ATTR => regSpec.PRS_PAT_ATTR
  | .PRS_PAT_DATA => regSpec.PRS_PAT_DATA
  | .MAI_CTL => regSpec.MAI_CTL
  | .MAE_CTL => regSpec.MAE_CTL
  | .MAI_STATUS => regSpec.MAI_STATUS
  | .MAE_STATUS => regSpec.MAE_STATUS
  | .MAI_STAGE => regSpec.MAI_STAGE
  | .MAE_STAGE => regSpec.MAE_STAGE
  | .MAI_LU => regSpec.MAI_LU
  | .MAE_LU => regSpec.MAE_LU
  | .MAI_CARRY => regSpec.MAI_CARRY
  | .MAI_SWAP => regSpec.MAI_SWAP
  | .MAI_SASH_STATE => regSpec.MAI_SASH_STATE
  | .MAI_SASH_SETTLE => regSpec.MAI_SASH_SETTLE
  | .MAI_ILLEGAL => regSpec.MAI_ILLEGAL
  | .TBL_DESC_A => regSpec.TBL_DESC_A
  | .TBL_DESC_B => regSpec.TBL_DESC_B
  | .TBL_KEY => regSpec.TBL_KEY
  | .TBL_CMD => regSpec.TBL_CMD
  | .TBL_DATA => regSpec.TBL_DATA
  | .TBL_LEARN => regSpec.TBL_LEARN
  | .TBL_AGE => regSpec.TBL_AGE
  | .TBL_PLIM => regSpec.TBL_PLIM
  | .TBL_BADLOG_CTL => regSpec.TBL_BADLOG_CTL
  | .TBL_BADLOG => regSpec.TBL_BADLOG
  | .XFS_BD => regSpec.XFS_BD
  | .XFS_MCG_CMD => regSpec.XFS_MCG_CMD
  | .XFS_MCG_DATA => regSpec.XFS_MCG_DATA
  | .BUF_CTL => regSpec.BUF_CTL
  | .BUF_STATUS => regSpec.BUF_STATUS
  | .BUF_FREE => regSpec.BUF_FREE
  | .BUF_SP => regSpec.BUF_SP
  | .BUF_HDRM => regSpec.BUF_HDRM
  | .BUF_AUD_CTL => regSpec.BUF_AUD_CTL
  | .BUF_AUD_STATUS => regSpec.BUF_AUD_STATUS
  | .BUF_LEAK_LOG => regSpec.BUF_LEAK_LOG
  | .BUF_DFREE_LOG => regSpec.BUF_DFREE_LOG
  | .BUF_QAGE_CTL => regSpec.BUF_QAGE_CTL
  | .BUF_PORT => regSpec.BUF_PORT
  | .BUF_PORT_PFCQ => regSpec.BUF_PORT_PFCQ
  | .BUF_IPG_A => regSpec.BUF_IPG_A
  | .BUF_IPG_B => regSpec.BUF_IPG_B
  | .BUF_IPG_STAT => regSpec.BUF_IPG_STAT
  | .BUF_EQ => regSpec.BUF_EQ
  | .BUF_EQ_STAT => regSpec.BUF_EQ_STAT
  | .BUF_CT_EN => regSpec.BUF_CT_EN
  | .SPL_CTL => regSpec.SPL_CTL
  | .SPL_STATUS => regSpec.SPL_STATUS
  | .SPL_POOL => regSpec.SPL_POOL
  | .SPL_SR_LAT => regSpec.SPL_SR_LAT
  | .SPL_TRAIN => regSpec.SPL_TRAIN
  | .SPL_RETIRE => regSpec.SPL_RETIRE
  | .SPL_AUD_CTL => regSpec.SPL_AUD_CTL
  | .SPL_AUD_STATUS => regSpec.SPL_AUD_STATUS
  | .SPL_DFREE_LOG => regSpec.SPL_DFREE_LOG
  | .SPL_GPOOL => regSpec.SPL_GPOOL
  | .SPL_GAP_LOG => regSpec.SPL_GAP_LOG
  | .SPL_Q => regSpec.SPL_Q
  | .SPL_Q_STAT => regSpec.SPL_Q_STAT
  | .QUE_PORT => regSpec.QUE_PORT
  | .QUE_SCH => regSpec.QUE_SCH
  | .SHP_CFG => regSpec.SHP_CFG
  | .SHP_STAT => regSpec.SHP_STAT
  | .MTR_A => regSpec.MTR_A
  | .MTR_B => regSpec.MTR_B
  | .MTR_TOK => regSpec.MTR_TOK
  | .PEP_RING => regSpec.PEP_RING
  | .PEP_RING_STAT => regSpec.PEP_RING_STAT
  | .PEP_MIR => regSpec.PEP_MIR
  | .PEP_SAMP => regSpec.PEP_SAMP
  | .SHU_CTL => regSpec.SHU_CTL
  | .SHU_STAT => regSpec.SHU_STAT
  | .SHU_SILL => regSpec.SHU_SILL
  | .SHU_ENTRY => regSpec.SHU_ENTRY
  | .LN_PORT => regSpec.LN_PORT
  | .LN_PCTL => regSpec.LN_PCTL
  | .LN_PSTAT => regSpec.LN_PSTAT
  | .LN_SPARE => regSpec.LN_SPARE
  | .LN_CFG => regSpec.LN_CFG
  | .LN_STATUS => regSpec.LN_STATUS
  | .LN_ADAPT => regSpec.LN_ADAPT
  | .INJ_CTL => regSpec.INJ_CTL
  | .INJ_MATCH_V => regSpec.INJ_MATCH_V
  | .INJ_MATCH_M => regSpec.INJ_MATCH_M
  | .INJ_SYM => regSpec.INJ_SYM
  | .CLK_CTL => regSpec.CLK_CTL
  | .CLK_STATUS => regSpec.CLK_STATUS
  | .CLK_XO => regSpec.CLK_XO
  | .CLK_DVFS => regSpec.CLK_DVFS
  | .CLK_OP => regSpec.CLK_OP
  | .CLK_FMEAS_CTL => regSpec.CLK_FMEAS_CTL
  | .CLK_FMEAS_RES => regSpec.CLK_FMEAS_RES
  | .CLK_SWFORCED => regSpec.CLK_SWFORCED
  | .PWR_CTL => regSpec.PWR_CTL
  | .PWR_STATE => regSpec.PWR_STATE
  | .PWR_CAP => regSpec.PWR_CAP
  | .PWR_STATUS => regSpec.PWR_STATUS
  | .PWR_DOM_ON => regSpec.PWR_DOM_ON
  | .PWR_RAIL => regSpec.PWR_RAIL
  | .PWR_HCLASS => regSpec.PWR_HCLASS
  | .PWR_THERM => regSpec.PWR_THERM
  | .PWR_TSENS => regSpec.PWR_TSENS
  | .AGE_CTL => regSpec.AGE_CTL
  | .AGE_STATUS => regSpec.AGE_STATUS
  | .AGE_REC => regSpec.AGE_REC
  | .TRN_CTL => regSpec.TRN_CTL
  | .TRN_WAKE => regSpec.TRN_WAKE
  | .TRN_ALARM => regSpec.TRN_ALARM
  | .FAB_CTL => regSpec.FAB_CTL
  | .FAB_STATUS => regSpec.FAB_STATUS
  | .FAB_MGR => regSpec.FAB_MGR
  | .FAB_CMD => regSpec.FAB_CMD
  | .FAB_EPOCH_CMD => regSpec.FAB_EPOCH_CMD
  | .FAB_EPOCH_PHASE => regSpec.FAB_EPOCH_PHASE
  | .FAB_EPOCH_GROUPS => regSpec.FAB_EPOCH_GROUPS
  | .FAB_MEMBER => regSpec.FAB_MEMBER
  | .FAB_MEMBER_UID => regSpec.FAB_MEMBER_UID
  | .FAB_STK => regSpec.FAB_STK
  | .FAB_STK_PORTS => regSpec.FAB_STK_PORTS
  | .FAB_STK_ROUTE => regSpec.FAB_STK_ROUTE
  | .EVT_STATUS => regSpec.EVT_STATUS
  | .EVT_MASK => regSpec.EVT_MASK
  | .EVT_SEV => regSpec.EVT_SEV
  | .EVT_SUMMARY => regSpec.EVT_SUMMARY
  | .CNT_GEN => regSpec.CNT_GEN
  | .CNT_ALLOW => regSpec.CNT_ALLOW
  | .TEL_CTL => regSpec.TEL_CTL
  | .TEL_IOAM_A => regSpec.TEL_IOAM_A
  | .TEL_IOAM_B => regSpec.TEL_IOAM_B
  | .TEL_HIST => regSpec.TEL_HIST
  | .TEL_DIG => regSpec.TEL_DIG
  | .TEL_DIG_FLUSH => regSpec.TEL_DIG_FLUSH
  | .TEL_CSEL => regSpec.TEL_CSEL
  | .GLB_REP_CTL => regSpec.GLB_REP_CTL
  | .GLB_REP_STATUS => regSpec.GLB_REP_STATUS
  | .GLB_REP_FAILED => regSpec.GLB_REP_FAILED
  | .GLB_SRAM_REP => regSpec.GLB_SRAM_REP
  | .GLB_RECOV_LOG => regSpec.GLB_RECOV_LOG
  | .MAI_FLOWLET => regSpec.MAI_FLOWLET

/-- Part 0 of the registers, for address decoding. -/
def RegName.all0 : List RegName :=
  [.GLB_ID, .GLB_UID, .GLB_PROFILE, .GLB_QVIOL, .GLB_RESET, .TIM_CTL, .TIM_STATUS, .TIM_NOW_SEC, .TIM_NOW_NSF, .TIM_ADJ, .TIM_FREQ, .TIM_SRC, .TIM_PTP_CLOCK, .TIM_UTC, .TIM_RCLK, .TIM_PORT, .TIM_TSCORR, .CYC_CTL, .CYC_STATUS, .CYC_PERIOD, .CYC_ANCHOR_SEC, .CYC_ANCHOR_NSF, .CYC_NOW_NUM, .CYC_NOW_PHASE, .CYC_IN, .CYC_IN_PERIOD, .CYC_PT_CTL, .CYC_PT_ENTRY, .CTL_CP, .CTL_MAC]

/-- Part 1 of the registers, for address decoding. -/
def RegName.all1 : List RegName :=
  [.CTL_MSEC, .CTL_MSEC_STAT, .CTL_SAK_KEY, .CTL_SAK_CMD, .CTL_SAK_SCI, .TVX_CTL, .TVX_AUTH, .TVX_SESSION, .TVX_EVT_SUB, .CSQ_CTL, .CSQ_STATUS, .CSQ_LIB, .CSQ_REGION, .CSQ_CTX, .CSQ_CTX_FAULT, .CSQ_EVSEL, .CSQ_AT, .GLB_VERSION, .GLB_FUSE, .GLB_STORE_VER, .IMG_CTL, .IMG_STATUS, .IMG_FUSE_CMD, .IMG_RDBK_ADDR, .IMG_RDBK_DATA, .IMG_BAREA, .PRS_CTL, .PRS_STATUS, .PRS_ILLEGAL, .PRS_SCAN_CTL]

/-- Part 2 of the registers, for address decoding. -/
def RegName.all2 : List RegName :=
  [.PRS_PORT, .PRS_MALF, .PRS_OPTSET, .PRS_HKEY, .PRS_HPROF_A, .PRS_HPROF_B, .PRS_PAT_CMD, .PRS_PAT_ATTR, .PRS_PAT_DATA, .MAI_CTL, .MAE_CTL, .MAI_STATUS, .MAE_STATUS, .MAI_STAGE, .MAE_STAGE, .MAI_LU, .MAE_LU, .MAI_CARRY, .MAI_SWAP, .MAI_SASH_STATE, .MAI_SASH_SETTLE, .MAI_ILLEGAL, .TBL_DESC_A, .TBL_DESC_B, .TBL_KEY, .TBL_CMD, .TBL_DATA, .TBL_LEARN, .TBL_AGE, .TBL_PLIM]

/-- Part 3 of the registers, for address decoding. -/
def RegName.all3 : List RegName :=
  [.TBL_BADLOG_CTL, .TBL_BADLOG, .XFS_BD, .XFS_MCG_CMD, .XFS_MCG_DATA, .BUF_CTL, .BUF_STATUS, .BUF_FREE, .BUF_SP, .BUF_HDRM, .BUF_AUD_CTL, .BUF_AUD_STATUS, .BUF_LEAK_LOG, .BUF_DFREE_LOG, .BUF_QAGE_CTL, .BUF_PORT, .BUF_PORT_PFCQ, .BUF_IPG_A, .BUF_IPG_B, .BUF_IPG_STAT, .BUF_EQ, .BUF_EQ_STAT, .BUF_CT_EN, .SPL_CTL, .SPL_STATUS, .SPL_POOL, .SPL_SR_LAT, .SPL_TRAIN, .SPL_RETIRE, .SPL_AUD_CTL]

/-- Part 4 of the registers, for address decoding. -/
def RegName.all4 : List RegName :=
  [.SPL_AUD_STATUS, .SPL_DFREE_LOG, .SPL_GPOOL, .SPL_GAP_LOG, .SPL_Q, .SPL_Q_STAT, .QUE_PORT, .QUE_SCH, .SHP_CFG, .SHP_STAT, .MTR_A, .MTR_B, .MTR_TOK, .PEP_RING, .PEP_RING_STAT, .PEP_MIR, .PEP_SAMP, .SHU_CTL, .SHU_STAT, .SHU_SILL, .SHU_ENTRY, .LN_PORT, .LN_PCTL, .LN_PSTAT, .LN_SPARE, .LN_CFG, .LN_STATUS, .LN_ADAPT, .INJ_CTL, .INJ_MATCH_V]

/-- Part 5 of the registers, for address decoding. -/
def RegName.all5 : List RegName :=
  [.INJ_MATCH_M, .INJ_SYM, .CLK_CTL, .CLK_STATUS, .CLK_XO, .CLK_DVFS, .CLK_OP, .CLK_FMEAS_CTL, .CLK_FMEAS_RES, .CLK_SWFORCED, .PWR_CTL, .PWR_STATE, .PWR_CAP, .PWR_STATUS, .PWR_DOM_ON, .PWR_RAIL, .PWR_HCLASS, .PWR_THERM, .PWR_TSENS, .AGE_CTL, .AGE_STATUS, .AGE_REC, .TRN_CTL, .TRN_WAKE, .TRN_ALARM, .FAB_CTL, .FAB_STATUS, .FAB_MGR, .FAB_CMD, .FAB_EPOCH_CMD]

/-- Part 6 of the registers, for address decoding. -/
def RegName.all6 : List RegName :=
  [.FAB_EPOCH_PHASE, .FAB_EPOCH_GROUPS, .FAB_MEMBER, .FAB_MEMBER_UID, .FAB_STK, .FAB_STK_PORTS, .FAB_STK_ROUTE, .EVT_STATUS, .EVT_MASK, .EVT_SEV, .EVT_SUMMARY, .CNT_GEN, .CNT_ALLOW, .TEL_CTL, .TEL_IOAM_A, .TEL_IOAM_B, .TEL_HIST, .TEL_DIG, .TEL_DIG_FLUSH, .TEL_CSEL, .GLB_REP_CTL, .GLB_REP_STATUS, .GLB_REP_FAILED, .GLB_SRAM_REP, .GLB_RECOV_LOG, .MAI_FLOWLET]

/-- Every register, for address decoding. -/
def RegName.all : List RegName :=
  RegName.all0 ++ RegName.all1 ++ RegName.all2 ++ RegName.all3 ++ RegName.all4 ++ RegName.all5 ++ RegName.all6

end Sys2Proof.Machine
end

