-- ==== Sys2Proof/Machine/RegFields.lean ====
section
/-! DEFINITION. The fields of the registers by name: F.REG.FIELD is the field FIELD of the register REG (the register tables of
the chapters). -/

namespace Sys2Proof.Machine

abbrev F.GLB_ID.PART : Fld := ⟨.GLB_ID, 47, 32⟩
abbrev F.GLB_ID.STEPPING : Fld := ⟨.GLB_ID, 31, 24⟩
abbrev F.GLB_ID.FAMILY : Fld := ⟨.GLB_ID, 23, 16⟩
abbrev F.GLB_ID.VENDOR : Fld := ⟨.GLB_ID, 15, 0⟩
abbrev F.GLB_UID.UID : Fld := ⟨.GLB_UID, 63, 0⟩
abbrev F.GLB_PROFILE.CLKMODE : Fld := ⟨.GLB_PROFILE, 7, 6⟩
abbrev F.GLB_PROFILE.ROLE : Fld := ⟨.GLB_PROFILE, 3, 2⟩
abbrev F.GLB_PROFILE.LOADED : Fld := ⟨.GLB_PROFILE, 1, 1⟩
abbrev F.GLB_PROFILE.PROFILE : Fld := ⟨.GLB_PROFILE, 0, 0⟩
abbrev F.GLB_QVIOL.VALID : Fld := ⟨.GLB_QVIOL, 63, 63⟩
abbrev F.GLB_QVIOL.OVERRUN : Fld := ⟨.GLB_QVIOL, 62, 62⟩
abbrev F.GLB_QVIOL.SEQ : Fld := ⟨.GLB_QVIOL, 51, 51⟩
abbrev F.GLB_QVIOL.CONTEXT : Fld := ⟨.GLB_QVIOL, 50, 48⟩
abbrev F.GLB_QVIOL.ADDR : Fld := ⟨.GLB_QVIOL, 39, 0⟩
abbrev F.GLB_RESET.CAUSE : Fld := ⟨.GLB_RESET, 11, 8⟩
abbrev F.GLB_RESET.WARM : Fld := ⟨.GLB_RESET, 0, 0⟩
abbrev F.TIM_CTL.PPS_OUT_EN : Fld := ⟨.TIM_CTL, 63, 63⟩
abbrev F.TIM_CTL.F10M_OUT_EN : Fld := ⟨.TIM_CTL, 62, 62⟩
abbrev F.TIM_CTL.PPS_WIDTH : Fld := ⟨.TIM_CTL, 61, 56⟩
abbrev F.TIM_CTL.PPS_COMP : Fld := ⟨.TIM_CTL, 55, 32⟩
abbrev F.TIM_CTL.AUTOSTEP : Fld := ⟨.TIM_CTL, 23, 23⟩
abbrev F.TIM_CTL.STEPTHR : Fld := ⟨.TIM_CTL, 21, 16⟩
abbrev F.TIM_CTL.SLEWMAX : Fld := ⟨.TIM_CTL, 15, 8⟩
abbrev F.TIM_CTL.BW : Fld := ⟨.TIM_CTL, 7, 4⟩
abbrev F.TIM_CTL.EEC_OPT : Fld := ⟨.TIM_CTL, 3, 3⟩
abbrev F.TIM_CTL.SERVO_EN : Fld := ⟨.TIM_CTL, 0, 0⟩
abbrev F.TIM_STATUS.DPLL_STATE : Fld := ⟨.TIM_STATUS, 63, 61⟩
abbrev F.TIM_STATUS.FSEL : Fld := ⟨.TIM_STATUS, 60, 58⟩
abbrev F.TIM_STATUS.PSEL : Fld := ⟨.TIM_STATUS, 57, 55⟩
abbrev F.TIM_STATUS.HISTORY : Fld := ⟨.TIM_STATUS, 54, 54⟩
abbrev F.TIM_STATUS.CALVALID : Fld := ⟨.TIM_STATUS, 53, 53⟩
abbrev F.TIM_STATUS.OFFSET : Fld := ⟨.TIM_STATUS, 31, 0⟩
abbrev F.TIM_NOW_SEC.SEC : Fld := ⟨.TIM_NOW_SEC, 47, 0⟩
abbrev F.TIM_NOW_NSF.NS : Fld := ⟨.TIM_NOW_NSF, 47, 16⟩
abbrev F.TIM_NOW_NSF.FRAC : Fld := ⟨.TIM_NOW_NSF, 15, 0⟩
abbrev F.TIM_ADJ.GO : Fld := ⟨.TIM_ADJ, 63, 63⟩
abbrev F.TIM_ADJ.MODE : Fld := ⟨.TIM_ADJ, 62, 62⟩
abbrev F.TIM_ADJ.OFFSET : Fld := ⟨.TIM_ADJ, 47, 0⟩
abbrev F.TIM_FREQ.ADJ : Fld := ⟨.TIM_FREQ, 39, 0⟩
abbrev F.TIM_SRC.REVERT : Fld := ⟨.TIM_SRC, 40, 40⟩
abbrev F.TIM_SRC.WTR : Fld := ⟨.TIM_SRC, 35, 32⟩
abbrev F.TIM_SRC.PPRI : Fld := ⟨.TIM_SRC, 31, 16⟩
abbrev F.TIM_SRC.FPRI : Fld := ⟨.TIM_SRC, 15, 0⟩
abbrev F.TIM_PTP_CLOCK.ARB : Fld := ⟨.TIM_PTP_CLOCK, 57, 57⟩
abbrev F.TIM_PTP_CLOCK.EXTCFG : Fld := ⟨.TIM_PTP_CLOCK, 56, 56⟩
abbrev F.TIM_PTP_CLOCK.VARIANCE : Fld := ⟨.TIM_PTP_CLOCK, 55, 40⟩
abbrev F.TIM_PTP_CLOCK.ACCURACY : Fld := ⟨.TIM_PTP_CLOCK, 39, 32⟩
abbrev F.TIM_PTP_CLOCK.CLASS : Fld := ⟨.TIM_PTP_CLOCK, 31, 24⟩
abbrev F.TIM_PTP_CLOCK.PRIORITY2 : Fld := ⟨.TIM_PTP_CLOCK, 23, 16⟩
abbrev F.TIM_PTP_CLOCK.PRIORITY1 : Fld := ⟨.TIM_PTP_CLOCK, 15, 8⟩
abbrev F.TIM_PTP_CLOCK.DOMAIN : Fld := ⟨.TIM_PTP_CLOCK, 6, 0⟩
abbrev F.TIM_UTC.VALID : Fld := ⟨.TIM_UTC, 18, 18⟩
abbrev F.TIM_UTC.LEAP61 : Fld := ⟨.TIM_UTC, 17, 17⟩
abbrev F.TIM_UTC.LEAP59 : Fld := ⟨.TIM_UTC, 16, 16⟩
abbrev F.TIM_UTC.OFFSET : Fld := ⟨.TIM_UTC, 15, 0⟩
abbrev F.TIM_RCLK.EN : Fld := ⟨.TIM_RCLK, 63, 63⟩
abbrev F.TIM_RCLK.SQUELCH : Fld := ⟨.TIM_RCLK, 62, 62⟩
abbrev F.TIM_RCLK.DIV : Fld := ⟨.TIM_RCLK, 21, 12⟩
abbrev F.TIM_RCLK.LANE : Fld := ⟨.TIM_RCLK, 10, 0⟩
abbrev F.TIM_PORT.EN : Fld := ⟨.TIM_PORT, 63, 63⟩
abbrev F.TIM_PORT.MECH : Fld := ⟨.TIM_PORT, 62, 62⟩
abbrev F.TIM_PORT.ONESTEP : Fld := ⟨.TIM_PORT, 61, 61⟩
abbrev F.TIM_PORT.TRANSPORT : Fld := ⟨.TIM_PORT, 60, 59⟩
abbrev F.TIM_PORT.LOGSYNC : Fld := ⟨.TIM_PORT, 55, 52⟩
abbrev F.TIM_PORT.LOGDREQ : Fld := ⟨.TIM_PORT, 51, 48⟩
abbrev F.TIM_PORT.LOGANN : Fld := ⟨.TIM_PORT, 47, 44⟩
abbrev F.TIM_PORT.STATE : Fld := ⟨.TIM_PORT, 43, 40⟩
abbrev F.TIM_PORT.EXTSTATE : Fld := ⟨.TIM_PORT, 39, 36⟩
abbrev F.TIM_PORT.ASYM_SRC : Fld := ⟨.TIM_PORT, 35, 35⟩
abbrev F.TIM_PORT.ASYM : Fld := ⟨.TIM_PORT, 31, 0⟩
abbrev F.TIM_TSCORR.ING : Fld := ⟨.TIM_TSCORR, 63, 32⟩
abbrev F.TIM_TSCORR.EGR : Fld := ⟨.TIM_TSCORR, 31, 0⟩
abbrev F.CYC_CTL.RUN : Fld := ⟨.CYC_CTL, 63, 63⟩
abbrev F.CYC_CTL.REALIGN : Fld := ⟨.CYC_CTL, 62, 62⟩
abbrev F.CYC_CTL.SRC : Fld := ⟨.CYC_CTL, 61, 60⟩
abbrev F.CYC_CTL.OUT_MODE : Fld := ⟨.CYC_CTL, 55, 54⟩
abbrev F.CYC_CTL.OUT_DIV : Fld := ⟨.CYC_CTL, 53, 48⟩
abbrev F.CYC_CTL.OUT_WIDTH : Fld := ⟨.CYC_CTL, 47, 40⟩
abbrev F.CYC_STATUS.STATE : Fld := ⟨.CYC_STATUS, 63, 61⟩
abbrev F.CYC_STATUS.IN_LOST : Fld := ⟨.CYC_STATUS, 60, 60⟩
abbrev F.CYC_STATUS.EFF_STRETCH : Fld := ⟨.CYC_STATUS, 47, 32⟩
abbrev F.CYC_PERIOD.STRETCH : Fld := ⟨.CYC_PERIOD, 63, 48⟩
abbrev F.CYC_PERIOD.NS : Fld := ⟨.CYC_PERIOD, 47, 16⟩
abbrev F.CYC_PERIOD.FRAC : Fld := ⟨.CYC_PERIOD, 15, 0⟩
abbrev F.CYC_ANCHOR_SEC.SEC : Fld := ⟨.CYC_ANCHOR_SEC, 47, 0⟩
abbrev F.CYC_ANCHOR_NSF.NS : Fld := ⟨.CYC_ANCHOR_NSF, 47, 16⟩
abbrev F.CYC_ANCHOR_NSF.FRAC : Fld := ⟨.CYC_ANCHOR_NSF, 15, 0⟩
abbrev F.CYC_NOW_NUM.NUM : Fld := ⟨.CYC_NOW_NUM, 47, 0⟩
abbrev F.CYC_NOW_PHASE.INVALID : Fld := ⟨.CYC_NOW_PHASE, 32, 32⟩
abbrev F.CYC_NOW_PHASE.PHASE : Fld := ⟨.CYC_NOW_PHASE, 31, 0⟩
abbrev F.CYC_IN.TOL : Fld := ⟨.CYC_IN, 55, 48⟩
abbrev F.CYC_IN.AVG : Fld := ⟨.CYC_IN, 47, 44⟩
abbrev F.CYC_IN.LOSS : Fld := ⟨.CYC_IN, 43, 36⟩
abbrev F.CYC_IN.EDGE : Fld := ⟨.CYC_IN, 35, 35⟩
abbrev F.CYC_IN_PERIOD.P_EST : Fld := ⟨.CYC_IN_PERIOD, 47, 0⟩
abbrev F.CYC_PT_CTL.COMMIT : Fld := ⟨.CYC_PT_CTL, 63, 63⟩
abbrev F.CYC_PT_CTL.ERR : Fld := ⟨.CYC_PT_CTL, 62, 62⟩
abbrev F.CYC_PT_CTL.ERRKIND : Fld := ⟨.CYC_PT_CTL, 61, 60⟩
abbrev F.CYC_PT_CTL.ERRIDX : Fld := ⟨.CYC_PT_CTL, 43, 32⟩
abbrev F.CYC_PT_CTL.LEN : Fld := ⟨.CYC_PT_CTL, 12, 0⟩
abbrev F.CYC_PT_ENTRY.TYPE : Fld := ⟨.CYC_PT_ENTRY, 62, 60⟩
abbrev F.CYC_PT_ENTRY.ARG : Fld := ⟨.CYC_PT_ENTRY, 59, 32⟩
abbrev F.CYC_PT_ENTRY.PHASE : Fld := ⟨.CYC_PT_ENTRY, 31, 0⟩
abbrev F.CTL_CP.EN : Fld := ⟨.CTL_CP, 63, 63⟩
abbrev F.CTL_CP.MODE : Fld := ⟨.CTL_CP, 62, 61⟩
abbrev F.CTL_CP.FEC : Fld := ⟨.CTL_CP, 60, 60⟩
abbrev F.CTL_CP.LINK : Fld := ⟨.CTL_CP, 57, 57⟩
abbrev F.CTL_CP.CUR_MODE : Fld := ⟨.CTL_CP, 56, 55⟩
abbrev F.CTL_CP.FEC_ACT : Fld := ⟨.CTL_CP, 54, 54⟩
abbrev F.CTL_CP.ACTIVE : Fld := ⟨.CTL_CP, 53, 53⟩
abbrev F.CTL_MAC.ADDR : Fld := ⟨.CTL_MAC, 47, 0⟩
abbrev F.CTL_MSEC.TXEN : Fld := ⟨.CTL_MSEC, 63, 63⟩
abbrev F.CTL_MSEC.RXEN : Fld := ⟨.CTL_MSEC, 62, 62⟩
abbrev F.CTL_MSEC.REQUIRE : Fld := ⟨.CTL_MSEC, 61, 61⟩
abbrev F.CTL_MSEC.TXSA : Fld := ⟨.CTL_MSEC, 60, 60⟩
abbrev F.CTL_MSEC.WINDOW : Fld := ⟨.CTL_MSEC, 31, 0⟩
abbrev F.CTL_MSEC_STAT.TXVALID : Fld := ⟨.CTL_MSEC_STAT, 63, 62⟩
abbrev F.CTL_MSEC_STAT.RXVALID : Fld := ⟨.CTL_MSEC_STAT, 61, 60⟩
abbrev F.CTL_MSEC_STAT.TXPN : Fld := ⟨.CTL_MSEC_STAT, 31, 0⟩
abbrev F.CTL_SAK_KEY.KEY : Fld := ⟨.CTL_SAK_KEY, 63, 0⟩
abbrev F.CTL_SAK_CMD.GO : Fld := ⟨.CTL_SAK_CMD, 63, 63⟩
abbrev F.CTL_SAK_CMD.PORT : Fld := ⟨.CTL_SAK_CMD, 62, 62⟩
abbrev F.CTL_SAK_CMD.DIR : Fld := ⟨.CTL_SAK_CMD, 61, 61⟩
abbrev F.CTL_SAK_CMD.SA : Fld := ⟨.CTL_SAK_CMD, 60, 60⟩
abbrev F.CTL_SAK_CMD.AN : Fld := ⟨.CTL_SAK_CMD, 59, 58⟩
abbrev F.CTL_SAK_CMD.CLEAR : Fld := ⟨.CTL_SAK_CMD, 57, 57⟩
abbrev F.CTL_SAK_CMD.PN : Fld := ⟨.CTL_SAK_CMD, 31, 0⟩
abbrev F.CTL_SAK_SCI.SCI : Fld := ⟨.CTL_SAK_SCI, 63, 0⟩
abbrev F.TVX_CTL.HB_INT : Fld := ⟨.TVX_CTL, 63, 56⟩
abbrev F.TVX_CTL.HB_MISS : Fld := ⟨.TVX_CTL, 55, 52⟩
abbrev F.TVX_CTL.RTO : Fld := ⟨.TVX_CTL, 51, 40⟩
abbrev F.TVX_CTL.RETRIES : Fld := ⟨.TVX_CTL, 39, 36⟩
abbrev F.TVX_CTL.BULK_SHARE : Fld := ⟨.TVX_CTL, 35, 32⟩
abbrev F.TVX_CTL.ANON_PRIV : Fld := ⟨.TVX_CTL, 31, 30⟩
abbrev F.TVX_AUTH.VALID : Fld := ⟨.TVX_AUTH, 63, 63⟩
abbrev F.TVX_AUTH.MAXPRIV : Fld := ⟨.TVX_AUTH, 62, 61⟩
abbrev F.TVX_AUTH.NEEDSEC : Fld := ⟨.TVX_AUTH, 60, 60⟩
abbrev F.TVX_AUTH.MAC : Fld := ⟨.TVX_AUTH, 47, 0⟩
abbrev F.TVX_SESSION.OPEN : Fld := ⟨.TVX_SESSION, 63, 63⟩
abbrev F.TVX_SESSION.PRIV : Fld := ⟨.TVX_SESSION, 62, 61⟩
abbrev F.TVX_SESSION.PORT : Fld := ⟨.TVX_SESSION, 60, 60⟩
abbrev F.TVX_SESSION.SEQ : Fld := ⟨.TVX_SESSION, 59, 59⟩
abbrev F.TVX_SESSION.SECURE : Fld := ⟨.TVX_SESSION, 58, 58⟩
abbrev F.TVX_SESSION.CLOSE : Fld := ⟨.TVX_SESSION, 57, 57⟩
abbrev F.TVX_SESSION.HOST : Fld := ⟨.TVX_SESSION, 47, 0⟩
abbrev F.TVX_EVT_SUB.GROUPS : Fld := ⟨.TVX_EVT_SUB, 47, 0⟩
abbrev F.CSQ_CTL.WDOG : Fld := ⟨.CSQ_CTL, 5, 0⟩
abbrev F.CSQ_STATUS.STATE : Fld := ⟨.CSQ_STATUS, 63, 61⟩
abbrev F.CSQ_STATUS.PRIMARY : Fld := ⟨.CSQ_STATUS, 60, 60⟩
abbrev F.CSQ_LIB.BASE : Fld := ⟨.CSQ_LIB, 47, 32⟩
abbrev F.CSQ_LIB.LEN : Fld := ⟨.CSQ_LIB, 16, 0⟩
abbrev F.CSQ_REGION.BASE : Fld := ⟨.CSQ_REGION, 47, 32⟩
abbrev F.CSQ_REGION.LEN : Fld := ⟨.CSQ_REGION, 16, 0⟩
abbrev F.CSQ_CTX.STATE : Fld := ⟨.CSQ_CTX, 63, 61⟩
abbrev F.CSQ_CTX.INH : Fld := ⟨.CSQ_CTX, 60, 60⟩
abbrev F.CSQ_CTX.HEN : Fld := ⟨.CSQ_CTX, 59, 59⟩
abbrev F.CSQ_CTX.DEPTH : Fld := ⟨.CSQ_CTX, 58, 55⟩
abbrev F.CSQ_CTX.HANDLER : Fld := ⟨.CSQ_CTX, 47, 32⟩
abbrev F.CSQ_CTX.SINCE : Fld := ⟨.CSQ_CTX, 24, 16⟩
abbrev F.CSQ_CTX.PC : Fld := ⟨.CSQ_CTX, 15, 0⟩
abbrev F.CSQ_CTX_FAULT.VALID : Fld := ⟨.CSQ_CTX_FAULT, 63, 63⟩
abbrev F.CSQ_CTX_FAULT.KIND : Fld := ⟨.CSQ_CTX_FAULT, 59, 56⟩
abbrev F.CSQ_CTX_FAULT.PC : Fld := ⟨.CSQ_CTX_FAULT, 15, 0⟩
abbrev F.CSQ_EVSEL.COUNT : Fld := ⟨.CSQ_EVSEL, 52, 48⟩
abbrev F.CSQ_EVSEL.GROUPS : Fld := ⟨.CSQ_EVSEL, 47, 0⟩
abbrev F.CSQ_AT.VALID : Fld := ⟨.CSQ_AT, 63, 63⟩
abbrev F.CSQ_AT.CTX : Fld := ⟨.CSQ_AT, 62, 60⟩
abbrev F.CSQ_AT.CYCLE : Fld := ⟨.CSQ_AT, 59, 32⟩
abbrev F.CSQ_AT.PHASE : Fld := ⟨.CSQ_AT, 31, 0⟩
abbrev F.GLB_VERSION.IMAGE_VER : Fld := ⟨.GLB_VERSION, 63, 32⟩
abbrev F.GLB_VERSION.BUNDLES : Fld := ⟨.GLB_VERSION, 31, 16⟩
abbrev F.GLB_VERSION.MIXED : Fld := ⟨.GLB_VERSION, 15, 15⟩
abbrev F.GLB_VERSION.SVN : Fld := ⟨.GLB_VERSION, 7, 0⟩
abbrev F.GLB_FUSE.DEADBOLT : Fld := ⟨.GLB_FUSE, 63, 63⟩
abbrev F.GLB_FUSE.PROGRAMMED : Fld := ⟨.GLB_FUSE, 59, 56⟩
abbrev F.GLB_FUSE.REVOKED : Fld := ⟨.GLB_FUSE, 55, 52⟩
abbrev F.GLB_FUSE.SLOT : Fld := ⟨.GLB_FUSE, 51, 50⟩
abbrev F.GLB_FUSE.ROLLBACK : Fld := ⟨.GLB_FUSE, 47, 40⟩
abbrev F.GLB_STORE_VER.VERSION : Fld := ⟨.GLB_STORE_VER, 31, 0⟩
abbrev F.IMG_CTL.RETAIN : Fld := ⟨.IMG_CTL, 63, 63⟩
abbrev F.IMG_CTL.PATCH_TMO : Fld := ⟨.IMG_CTL, 47, 32⟩
abbrev F.IMG_STATUS.STATE : Fld := ⟨.IMG_STATUS, 63, 61⟩
abbrev F.IMG_STATUS.VERDICT : Fld := ⟨.IMG_STATUS, 55, 48⟩
abbrev F.IMG_STATUS.SECT : Fld := ⟨.IMG_STATUS, 41, 32⟩
abbrev F.IMG_STATUS.BYTES : Fld := ⟨.IMG_STATUS, 31, 0⟩
abbrev F.IMG_FUSE_CMD.GO : Fld := ⟨.IMG_FUSE_CMD, 63, 63⟩
abbrev F.IMG_FUSE_CMD.OP : Fld := ⟨.IMG_FUSE_CMD, 62, 60⟩
abbrev F.IMG_FUSE_CMD.SLOT : Fld := ⟨.IMG_FUSE_CMD, 59, 58⟩
abbrev F.IMG_FUSE_CMD.RESULT : Fld := ⟨.IMG_FUSE_CMD, 57, 56⟩
abbrev F.IMG_FUSE_CMD.VALUE : Fld := ⟨.IMG_FUSE_CMD, 55, 48⟩
abbrev F.IMG_FUSE_CMD.CONFIRM : Fld := ⟨.IMG_FUSE_CMD, 47, 32⟩
abbrev F.IMG_RDBK_ADDR.GO : Fld := ⟨.IMG_RDBK_ADDR, 63, 63⟩
abbrev F.IMG_RDBK_ADDR.STORE : Fld := ⟨.IMG_RDBK_ADDR, 62, 56⟩
abbrev F.IMG_RDBK_ADDR.INSTANCE : Fld := ⟨.IMG_RDBK_ADDR, 55, 40⟩
abbrev F.IMG_RDBK_ADDR.WORD : Fld := ⟨.IMG_RDBK_ADDR, 31, 0⟩
abbrev F.IMG_RDBK_DATA.DATA : Fld := ⟨.IMG_RDBK_DATA, 63, 0⟩
abbrev F.IMG_BAREA.USED : Fld := ⟨.IMG_BAREA, 31, 0⟩
abbrev F.PRS_CTL.HOLD : Fld := ⟨.PRS_CTL, 63, 63⟩
abbrev F.PRS_CTL.BUDGET : Fld := ⟨.PRS_CTL, 55, 48⟩
abbrev F.PRS_CTL.LOOPMAX : Fld := ⟨.PRS_CTL, 47, 42⟩
abbrev F.PRS_CTL.DEPTHMAX : Fld := ⟨.PRS_CTL, 35, 32⟩
abbrev F.PRS_STATUS.QUIESCED : Fld := ⟨.PRS_STATUS, 63, 63⟩
abbrev F.PRS_STATUS.BOUND : Fld := ⟨.PRS_STATUS, 54, 48⟩
abbrev F.PRS_ILLEGAL.VALID : Fld := ⟨.PRS_ILLEGAL, 63, 63⟩
abbrev F.PRS_ILLEGAL.OVERRUN : Fld := ⟨.PRS_ILLEGAL, 62, 62⟩
abbrev F.PRS_ILLEGAL.KIND : Fld := ⟨.PRS_ILLEGAL, 59, 56⟩
abbrev F.PRS_ILLEGAL.SLOT : Fld := ⟨.PRS_ILLEGAL, 55, 51⟩
abbrev F.PRS_ILLEGAL.WORD : Fld := ⟨.PRS_ILLEGAL, 11, 0⟩
abbrev F.PRS_SCAN_CTL.SPLIT : Fld := ⟨.PRS_SCAN_CTL, 63, 63⟩
abbrev F.PRS_SCAN_CTL.ACTIVE : Fld := ⟨.PRS_SCAN_CTL, 62, 62⟩
abbrev F.PRS_SCAN_CTL.GROUP_EN : Fld := ⟨.PRS_SCAN_CTL, 61, 61⟩
abbrev F.PRS_SCAN_CTL.GROUP : Fld := ⟨.PRS_SCAN_CTL, 59, 54⟩
abbrev F.PRS_PORT.WINDOW : Fld := ⟨.PRS_PORT, 61, 60⟩
abbrev F.PRS_PORT.BIND : Fld := ⟨.PRS_PORT, 59, 59⟩
abbrev F.PRS_PORT.ENTRY : Fld := ⟨.PRS_PORT, 11, 0⟩
abbrev F.PRS_MALF.ACTION : Fld := ⟨.PRS_MALF, 63, 62⟩
abbrev F.PRS_MALF.RING : Fld := ⟨.PRS_MALF, 55, 48⟩
abbrev F.PRS_MALF.TRAPLEN : Fld := ⟨.PRS_MALF, 9, 0⟩
abbrev F.PRS_OPTSET.ALLOW : Fld := ⟨.PRS_OPTSET, 63, 0⟩
abbrev F.PRS_HKEY.KEY : Fld := ⟨.PRS_HKEY, 63, 0⟩
abbrev F.PRS_HPROF_A.FUNC : Fld := ⟨.PRS_HPROF_A, 63, 61⟩
abbrev F.PRS_HPROF_A.SYM : Fld := ⟨.PRS_HPROF_A, 60, 60⟩
abbrev F.PRS_HPROF_A.A0 : Fld := ⟨.PRS_HPROF_A, 55, 46⟩
abbrev F.PRS_HPROF_A.B0 : Fld := ⟨.PRS_HPROF_A, 45, 36⟩
abbrev F.PRS_HPROF_A.LEN0 : Fld := ⟨.PRS_HPROF_A, 35, 31⟩
abbrev F.PRS_HPROF_A.A1 : Fld := ⟨.PRS_HPROF_A, 30, 21⟩
abbrev F.PRS_HPROF_A.B1 : Fld := ⟨.PRS_HPROF_A, 20, 11⟩
abbrev F.PRS_HPROF_A.LEN1 : Fld := ⟨.PRS_HPROF_A, 10, 6⟩
abbrev F.PRS_HPROF_B.SEED : Fld := ⟨.PRS_HPROF_B, 63, 32⟩
abbrev F.PRS_HPROF_B.X0 : Fld := ⟨.PRS_HPROF_B, 31, 22⟩
abbrev F.PRS_HPROF_B.XLEN0 : Fld := ⟨.PRS_HPROF_B, 21, 17⟩
abbrev F.PRS_HPROF_B.X1 : Fld := ⟨.PRS_HPROF_B, 16, 7⟩
abbrev F.PRS_HPROF_B.XLEN1 : Fld := ⟨.PRS_HPROF_B, 6, 2⟩
abbrev F.PRS_PAT_CMD.GO : Fld := ⟨.PRS_PAT_CMD, 63, 63⟩
abbrev F.PRS_PAT_CMD.OP : Fld := ⟨.PRS_PAT_CMD, 62, 61⟩
abbrev F.PRS_PAT_CMD.RESULT : Fld := ⟨.PRS_PAT_CMD, 60, 59⟩
abbrev F.PRS_PAT_CMD.INDEX : Fld := ⟨.PRS_PAT_CMD, 11, 0⟩
abbrev F.PRS_PAT_ATTR.VALID : Fld := ⟨.PRS_PAT_ATTR, 63, 63⟩
abbrev F.PRS_PAT_ATTR.ANCHOR : Fld := ⟨.PRS_PAT_ATTR, 62, 62⟩
abbrev F.PRS_PAT_ATTR.AOFF : Fld := ⟨.PRS_PAT_ATTR, 55, 47⟩
abbrev F.PRS_PAT_ATTR.LEN : Fld := ⟨.PRS_PAT_ATTR, 46, 42⟩
abbrev F.PRS_PAT_ATTR.CLASS : Fld := ⟨.PRS_PAT_ATTR, 41, 36⟩
abbrev F.PRS_PAT_DATA.BYTES : Fld := ⟨.PRS_PAT_DATA, 63, 0⟩
abbrev F.MAI_CTL.HOLD : Fld := ⟨.MAI_CTL, 63, 63⟩
abbrev F.MAE_CTL.HOLD : Fld := ⟨.MAE_CTL, 63, 63⟩
abbrev F.MAI_STATUS.QUIESCED : Fld := ⟨.MAI_STATUS, 63, 63⟩
abbrev F.MAE_STATUS.QUIESCED : Fld := ⟨.MAE_STATUS, 63, 63⟩
abbrev F.MAI_STAGE.LUEN : Fld := ⟨.MAI_STAGE, 63, 60⟩
abbrev F.MAI_STAGE.ASEL : Fld := ⟨.MAI_STAGE, 59, 58⟩
abbrev F.MAI_STAGE.ASEL_EN : Fld := ⟨.MAI_STAGE, 57, 57⟩
abbrev F.MAI_STAGE.DEFAULT : Fld := ⟨.MAI_STAGE, 45, 32⟩
abbrev F.MAE_STAGE.LUEN : Fld := ⟨.MAE_STAGE, 63, 60⟩
abbrev F.MAE_STAGE.ASEL : Fld := ⟨.MAE_STAGE, 59, 58⟩
abbrev F.MAE_STAGE.ASEL_EN : Fld := ⟨.MAE_STAGE, 57, 57⟩
abbrev F.MAE_STAGE.DEFAULT : Fld := ⟨.MAE_STAGE, 45, 32⟩
abbrev F.MAI_LU.TABLE : Fld := ⟨.MAI_LU, 63, 58⟩
abbrev F.MAI_LU.FEN : Fld := ⟨.MAI_LU, 57, 57⟩
abbrev F.MAI_LU.NEG : Fld := ⟨.MAI_LU, 56, 56⟩
abbrev F.MAI_LU.FBIT : Fld := ⟨.MAI_LU, 55, 51⟩
abbrev F.MAI_LU.REN : Fld := ⟨.MAI_LU, 50, 50⟩
abbrev F.MAI_LU.RDST : Fld := ⟨.MAI_LU, 49, 40⟩
abbrev F.MAI_LU.DEN : Fld := ⟨.MAI_LU, 39, 39⟩
abbrev F.MAI_LU.DDST : Fld := ⟨.MAI_LU, 38, 29⟩
abbrev F.MAE_LU.TABLE : Fld := ⟨.MAE_LU, 63, 58⟩
abbrev F.MAE_LU.FEN : Fld := ⟨.MAE_LU, 57, 57⟩
abbrev F.MAE_LU.NEG : Fld := ⟨.MAE_LU, 56, 56⟩
abbrev F.MAE_LU.FBIT : Fld := ⟨.MAE_LU, 55, 51⟩
abbrev F.MAE_LU.REN : Fld := ⟨.MAE_LU, 50, 50⟩
abbrev F.MAE_LU.RDST : Fld := ⟨.MAE_LU, 49, 40⟩
abbrev F.MAE_LU.DEN : Fld := ⟨.MAE_LU, 39, 39⟩
abbrev F.MAE_LU.DDST : Fld := ⟨.MAE_LU, 38, 29⟩
abbrev F.MAI_CARRY.EN : Fld := ⟨.MAI_CARRY, 63, 63⟩
abbrev F.MAI_CARRY.START : Fld := ⟨.MAI_CARRY, 57, 48⟩
abbrev F.MAI_CARRY.LEN : Fld := ⟨.MAI_CARRY, 47, 40⟩
abbrev F.MAI_SWAP.GO : Fld := ⟨.MAI_SWAP, 63, 63⟩
abbrev F.MAI_SWAP.SCOPE : Fld := ⟨.MAI_SWAP, 62, 62⟩
abbrev F.MAI_SWAP.GROUP : Fld := ⟨.MAI_SWAP, 53, 48⟩
abbrev F.MAI_SASH_STATE.ACTIVE : Fld := ⟨.MAI_SASH_STATE, 63, 0⟩
abbrev F.MAI_SASH_SETTLE.SETTLE : Fld := ⟨.MAI_SASH_SETTLE, 63, 0⟩
abbrev F.MAI_ILLEGAL.VALID : Fld := ⟨.MAI_ILLEGAL, 63, 63⟩
abbrev F.MAI_ILLEGAL.OVERRUN : Fld := ⟨.MAI_ILLEGAL, 62, 62⟩
abbrev F.MAI_ILLEGAL.KIND : Fld := ⟨.MAI_ILLEGAL, 59, 56⟩
abbrev F.MAI_ILLEGAL.STAGE : Fld := ⟨.MAI_ILLEGAL, 55, 51⟩
abbrev F.MAI_ILLEGAL.WORD : Fld := ⟨.MAI_ILLEGAL, 13, 0⟩
abbrev F.TBL_DESC_A.TYPE : Fld := ⟨.TBL_DESC_A, 63, 61⟩
abbrev F.TBL_DESC_A.DUAL : Fld := ⟨.TBL_DESC_A, 60, 60⟩
abbrev F.TBL_DESC_A.GROUP : Fld := ⟨.TBL_DESC_A, 59, 54⟩
abbrev F.TBL_DESC_A.WIDTH : Fld := ⟨.TBL_DESC_A, 53, 52⟩
abbrev F.TBL_DESC_A.BLOCK : Fld := ⟨.TBL_DESC_A, 51, 46⟩
abbrev F.TBL_DESC_A.DEPTH : Fld := ⟨.TBL_DESC_A, 45, 40⟩
abbrev F.TBL_DESC_A.SIZELOG : Fld := ⟨.TBL_DESC_A, 39, 35⟩
abbrev F.TBL_DESC_A.DLEN : Fld := ⟨.TBL_DESC_A, 34, 33⟩
abbrev F.TBL_DESC_A.BASE : Fld := ⟨.TBL_DESC_A, 31, 16⟩
abbrev F.TBL_DESC_B.SEED : Fld := ⟨.TBL_DESC_B, 63, 32⟩
abbrev F.TBL_KEY.KEY3 : Fld := ⟨.TBL_KEY, 63, 48⟩
abbrev F.TBL_KEY.KEY2 : Fld := ⟨.TBL_KEY, 47, 32⟩
abbrev F.TBL_KEY.KEY1 : Fld := ⟨.TBL_KEY, 31, 16⟩
abbrev F.TBL_KEY.KEY0 : Fld := ⟨.TBL_KEY, 15, 0⟩
abbrev F.TBL_CMD.BUSY : Fld := ⟨.TBL_CMD, 63, 63⟩
abbrev F.TBL_CMD.RESULT : Fld := ⟨.TBL_CMD, 55, 48⟩
abbrev F.TBL_CMD.OP : Fld := ⟨.TBL_CMD, 31, 28⟩
abbrev F.TBL_CMD.TABLE : Fld := ⟨.TBL_CMD, 27, 22⟩
abbrev F.TBL_CMD.SASH : Fld := ⟨.TBL_CMD, 21, 21⟩
abbrev F.TBL_CMD.INDEX : Fld := ⟨.TBL_CMD, 19, 0⟩
abbrev F.TBL_DATA.DATA : Fld := ⟨.TBL_DATA, 63, 0⟩
abbrev F.TBL_LEARN.EN : Fld := ⟨.TBL_LEARN, 63, 63⟩
abbrev F.TBL_LEARN.SHARE : Fld := ⟨.TBL_LEARN, 62, 62⟩
abbrev F.TBL_LEARN.STAGE : Fld := ⟨.TBL_LEARN, 61, 58⟩
abbrev F.TBL_LEARN.LU : Fld := ⟨.TBL_LEARN, 57, 56⟩
abbrev F.TBL_LEARN.LFEN : Fld := ⟨.TBL_LEARN, 55, 55⟩
abbrev F.TBL_LEARN.LFBIT : Fld := ⟨.TBL_LEARN, 54, 50⟩
abbrev F.TBL_LEARN.ACT : Fld := ⟨.TBL_LEARN, 49, 36⟩
abbrev F.TBL_LEARN.DBASE : Fld := ⟨.TBL_LEARN, 35, 18⟩
abbrev F.TBL_AGE.EN : Fld := ⟨.TBL_AGE, 63, 63⟩
abbrev F.TBL_AGE.TABLE : Fld := ⟨.TBL_AGE, 61, 56⟩
abbrev F.TBL_AGE.PERIOD : Fld := ⟨.TBL_AGE, 47, 32⟩
abbrev F.TBL_AGE.PASSES : Fld := ⟨.TBL_AGE, 31, 0⟩
abbrev F.TBL_PLIM.LEN : Fld := ⟨.TBL_PLIM, 63, 63⟩
abbrev F.TBL_PLIM.OVER : Fld := ⟨.TBL_PLIM, 62, 62⟩
abbrev F.TBL_PLIM.MAXENT : Fld := ⟨.TBL_PLIM, 48, 32⟩
abbrev F.TBL_PLIM.RATE : Fld := ⟨.TBL_PLIM, 29, 18⟩
abbrev F.TBL_PLIM.COUNT : Fld := ⟨.TBL_PLIM, 16, 0⟩
abbrev F.TBL_BADLOG_CTL.CLEAR : Fld := ⟨.TBL_BADLOG_CTL, 63, 63⟩
abbrev F.TBL_BADLOG_CTL.OVERRUN : Fld := ⟨.TBL_BADLOG_CTL, 62, 62⟩
abbrev F.TBL_BADLOG_CTL.COUNT : Fld := ⟨.TBL_BADLOG_CTL, 4, 0⟩
abbrev F.TBL_BADLOG.VALID : Fld := ⟨.TBL_BADLOG, 63, 63⟩
abbrev F.TBL_BADLOG.KIND : Fld := ⟨.TBL_BADLOG, 62, 62⟩
abbrev F.TBL_BADLOG.TABLE : Fld := ⟨.TBL_BADLOG, 59, 54⟩
abbrev F.TBL_BADLOG.SASH : Fld := ⟨.TBL_BADLOG, 53, 53⟩
abbrev F.TBL_BADLOG.INDEX : Fld := ⟨.TBL_BADLOG, 19, 0⟩
abbrev F.XFS_BD.EN : Fld := ⟨.XFS_BD, 63, 63⟩
abbrev F.XFS_BD.FGROUP : Fld := ⟨.XFS_BD, 15, 0⟩
abbrev F.XFS_MCG_CMD.GO : Fld := ⟨.XFS_MCG_CMD, 63, 63⟩
abbrev F.XFS_MCG_CMD.OP : Fld := ⟨.XFS_MCG_CMD, 62, 62⟩
abbrev F.XFS_MCG_CMD.PRUNE : Fld := ⟨.XFS_MCG_CMD, 61, 61⟩
abbrev F.XFS_MCG_CMD.GROUP : Fld := ⟨.XFS_MCG_CMD, 15, 0⟩
abbrev F.XFS_MCG_DATA.PORTS : Fld := ⟨.XFS_MCG_DATA, 63, 0⟩
abbrev F.BUF_CTL.HOLD : Fld := ⟨.BUF_CTL, 63, 63⟩
abbrev F.BUF_STATUS.QUIESCED : Fld := ⟨.BUF_STATUS, 63, 63⟩
abbrev F.BUF_STATUS.CFGERR : Fld := ⟨.BUF_STATUS, 62, 62⟩
abbrev F.BUF_STATUS.RSV : Fld := ⟨.BUF_STATUS, 20, 0⟩
abbrev F.BUF_FREE.INFLIGHT : Fld := ⟨.BUF_FREE, 52, 32⟩
abbrev F.BUF_FREE.FREE : Fld := ⟨.BUF_FREE, 20, 0⟩
abbrev F.BUF_SP.USE : Fld := ⟨.BUF_SP, 52, 32⟩
abbrev F.BUF_SP.SIZE : Fld := ⟨.BUF_SP, 20, 0⟩
abbrev F.BUF_HDRM.USE : Fld := ⟨.BUF_HDRM, 52, 32⟩
abbrev F.BUF_HDRM.SIZE : Fld := ⟨.BUF_HDRM, 20, 0⟩
abbrev F.BUF_AUD_CTL.EN : Fld := ⟨.BUF_AUD_CTL, 63, 63⟩
abbrev F.BUF_AUD_CTL.RECLAIM : Fld := ⟨.BUF_AUD_CTL, 62, 62⟩
abbrev F.BUF_AUD_CTL.WALK : Fld := ⟨.BUF_AUD_CTL, 61, 61⟩
abbrev F.BUF_AUD_CTL.PERSIST : Fld := ⟨.BUF_AUD_CTL, 55, 48⟩
abbrev F.BUF_AUD_STATUS.DIFF : Fld := ⟨.BUF_AUD_STATUS, 63, 42⟩
abbrev F.BUF_AUD_STATUS.LEAKED : Fld := ⟨.BUF_AUD_STATUS, 41, 21⟩
abbrev F.BUF_AUD_STATUS.PHANTOM : Fld := ⟨.BUF_AUD_STATUS, 20, 0⟩
abbrev F.BUF_LEAK_LOG.VALID : Fld := ⟨.BUF_LEAK_LOG, 63, 63⟩
abbrev F.BUF_LEAK_LOG.CELL : Fld := ⟨.BUF_LEAK_LOG, 20, 0⟩
abbrev F.BUF_DFREE_LOG.VALID : Fld := ⟨.BUF_DFREE_LOG, 63, 63⟩
abbrev F.BUF_DFREE_LOG.OVERRUN : Fld := ⟨.BUF_DFREE_LOG, 62, 62⟩
abbrev F.BUF_DFREE_LOG.UNIT : Fld := ⟨.BUF_DFREE_LOG, 39, 32⟩
abbrev F.BUF_DFREE_LOG.CELL : Fld := ⟨.BUF_DFREE_LOG, 20, 0⟩
abbrev F.BUF_QAGE_CTL.EN : Fld := ⟨.BUF_QAGE_CTL, 63, 63⟩
abbrev F.BUF_QAGE_CTL.ACTION : Fld := ⟨.BUF_QAGE_CTL, 62, 62⟩
abbrev F.BUF_QAGE_CTL.LIMIT : Fld := ⟨.BUF_QAGE_CTL, 31, 0⟩
abbrev F.BUF_PORT.HOLD : Fld := ⟨.BUF_PORT, 63, 63⟩
abbrev F.BUF_PORT.QUIESCED : Fld := ⟨.BUF_PORT, 62, 62⟩
abbrev F.BUF_PORT.ERRTERM : Fld := ⟨.BUF_PORT, 61, 61⟩
abbrev F.BUF_PORT.PFC_TX : Fld := ⟨.BUF_PORT, 60, 60⟩
abbrev F.BUF_PORT.PFC_RX : Fld := ⟨.BUF_PORT, 59, 59⟩
abbrev F.BUF_PORT.Q2PG : Fld := ⟨.BUF_PORT, 47, 0⟩
abbrev F.BUF_PORT_PFCQ.PRI : Fld := ⟨.BUF_PORT_PFCQ, 63, 0⟩
abbrev F.BUF_IPG_A.LOSSLESS : Fld := ⟨.BUF_IPG_A, 63, 63⟩
abbrev F.BUF_IPG_A.ALPHA : Fld := ⟨.BUF_IPG_A, 62, 59⟩
abbrev F.BUF_IPG_A.MIN : Fld := ⟨.BUF_IPG_A, 52, 32⟩
abbrev F.BUF_IPG_A.PRIMASK : Fld := ⟨.BUF_IPG_A, 31, 24⟩
abbrev F.BUF_IPG_A.QUANTA : Fld := ⟨.BUF_IPG_A, 15, 0⟩
abbrev F.BUF_IPG_B.XOFF : Fld := ⟨.BUF_IPG_B, 63, 44⟩
abbrev F.BUF_IPG_B.XON_DELTA : Fld := ⟨.BUF_IPG_B, 43, 32⟩
abbrev F.BUF_IPG_B.HDRM : Fld := ⟨.BUF_IPG_B, 19, 0⟩
abbrev F.BUF_IPG_STAT.XOFF : Fld := ⟨.BUF_IPG_STAT, 63, 63⟩
abbrev F.BUF_IPG_STAT.SHARED : Fld := ⟨.BUF_IPG_STAT, 52, 32⟩
abbrev F.BUF_IPG_STAT.HUSE : Fld := ⟨.BUF_IPG_STAT, 19, 0⟩
abbrev F.BUF_EQ.MIN : Fld := ⟨.BUF_EQ, 63, 44⟩
abbrev F.BUF_EQ.ALPHA : Fld := ⟨.BUF_EQ, 43, 40⟩
abbrev F.BUF_EQ.ECNEN : Fld := ⟨.BUF_EQ, 39, 39⟩
abbrev F.BUF_EQ.NONECT : Fld := ⟨.BUF_EQ, 38, 38⟩
abbrev F.BUF_EQ.PMAX : Fld := ⟨.BUF_EQ, 37, 34⟩
abbrev F.BUF_EQ.EMARK : Fld := ⟨.BUF_EQ, 31, 29⟩
abbrev F.BUF_EQ.ECN_MIN : Fld := ⟨.BUF_EQ, 28, 16⟩
abbrev F.BUF_EQ.ECN_MAX : Fld := ⟨.BUF_EQ, 15, 0⟩
abbrev F.BUF_EQ_STAT.STUCK : Fld := ⟨.BUF_EQ_STAT, 63, 63⟩
abbrev F.BUF_EQ_STAT.ONDIE : Fld := ⟨.BUF_EQ_STAT, 52, 32⟩
abbrev F.BUF_EQ_STAT.SHARED : Fld := ⟨.BUF_EQ_STAT, 20, 0⟩
abbrev F.BUF_CT_EN.EGR : Fld := ⟨.BUF_CT_EN, 63, 0⟩
abbrev F.SPL_CTL.EN : Fld := ⟨.SPL_CTL, 63, 63⟩
abbrev F.SPL_CTL.HOLD : Fld := ⟨.SPL_CTL, 62, 62⟩
abbrev F.SPL_CTL.SR_EN : Fld := ⟨.SPL_CTL, 61, 61⟩
abbrev F.SPL_CTL.NRR_EN : Fld := ⟨.SPL_CTL, 60, 60⟩
abbrev F.SPL_CTL.NRR_K : Fld := ⟨.SPL_CTL, 55, 52⟩
abbrev F.SPL_CTL.PRED_T : Fld := ⟨.SPL_CTL, 50, 48⟩
abbrev F.SPL_CTL.SR_IDLE : Fld := ⟨.SPL_CTL, 47, 32⟩
abbrev F.SPL_CTL.THROTTLE : Fld := ⟨.SPL_CTL, 31, 28⟩
abbrev F.SPL_STATUS.QUIESCED : Fld := ⟨.SPL_STATUS, 63, 63⟩
abbrev F.SPL_STATUS.SRSTATE : Fld := ⟨.SPL_STATUS, 62, 61⟩
abbrev F.SPL_STATUS.RFM : Fld := ⟨.SPL_STATUS, 60, 60⟩
abbrev F.SPL_STATUS.TRAINED : Fld := ⟨.SPL_STATUS, 59, 59⟩
abbrev F.SPL_STATUS.GOLDEN_LOST : Fld := ⟨.SPL_STATUS, 58, 58⟩
abbrev F.SPL_STATUS.RETIRED : Fld := ⟨.SPL_STATUS, 31, 0⟩
abbrev F.SPL_POOL.INFLIGHT : Fld := ⟨.SPL_POOL, 54, 32⟩
abbrev F.SPL_POOL.FREE : Fld := ⟨.SPL_POOL, 22, 0⟩
abbrev F.SPL_SR_LAT.CLR : Fld := ⟨.SPL_SR_LAT, 63, 63⟩
abbrev F.SPL_SR_LAT.MAX : Fld := ⟨.SPL_SR_LAT, 15, 0⟩
abbrev F.SPL_TRAIN.EN : Fld := ⟨.SPL_TRAIN, 63, 63⟩
abbrev F.SPL_TRAIN.PERIOD : Fld := ⟨.SPL_TRAIN, 47, 32⟩
abbrev F.SPL_TRAIN.MARGIN_MIN : Fld := ⟨.SPL_TRAIN, 15, 8⟩
abbrev F.SPL_TRAIN.MARGIN : Fld := ⟨.SPL_TRAIN, 7, 0⟩
abbrev F.SPL_RETIRE.GO : Fld := ⟨.SPL_RETIRE, 63, 63⟩
abbrev F.SPL_RETIRE.AUTO : Fld := ⟨.SPL_RETIRE, 62, 62⟩
abbrev F.SPL_RETIRE.ACTIVE : Fld := ⟨.SPL_RETIRE, 61, 61⟩
abbrev F.SPL_RETIRE.PC : Fld := ⟨.SPL_RETIRE, 52, 48⟩
abbrev F.SPL_RETIRE.UE_LIMIT : Fld := ⟨.SPL_RETIRE, 47, 40⟩
abbrev F.SPL_RETIRE.CE_LIMIT : Fld := ⟨.SPL_RETIRE, 39, 24⟩
abbrev F.SPL_AUD_CTL.EN : Fld := ⟨.SPL_AUD_CTL, 63, 63⟩
abbrev F.SPL_AUD_CTL.RECLAIM : Fld := ⟨.SPL_AUD_CTL, 62, 62⟩
abbrev F.SPL_AUD_CTL.WALK : Fld := ⟨.SPL_AUD_CTL, 61, 61⟩
abbrev F.SPL_AUD_CTL.PERSIST : Fld := ⟨.SPL_AUD_CTL, 55, 48⟩
abbrev F.SPL_AUD_STATUS.DIFF : Fld := ⟨.SPL_AUD_STATUS, 63, 40⟩
abbrev F.SPL_AUD_STATUS.LEAKED : Fld := ⟨.SPL_AUD_STATUS, 39, 16⟩
abbrev F.SPL_DFREE_LOG.VALID : Fld := ⟨.SPL_DFREE_LOG, 63, 63⟩
abbrev F.SPL_DFREE_LOG.OVERRUN : Fld := ⟨.SPL_DFREE_LOG, 62, 62⟩
abbrev F.SPL_DFREE_LOG.PAGE : Fld := ⟨.SPL_DFREE_LOG, 24, 0⟩
abbrev F.SPL_GPOOL.CFGERR : Fld := ⟨.SPL_GPOOL, 63, 63⟩
abbrev F.SPL_GPOOL.RSV : Fld := ⟨.SPL_GPOOL, 56, 32⟩
abbrev F.SPL_GPOOL.SHARED_FREE : Fld := ⟨.SPL_GPOOL, 24, 0⟩
abbrev F.SPL_GAP_LOG.VALID : Fld := ⟨.SPL_GAP_LOG, 63, 63⟩
abbrev F.SPL_GAP_LOG.CAUSE : Fld := ⟨.SPL_GAP_LOG, 62, 62⟩
abbrev F.SPL_GAP_LOG.PORT : Fld := ⟨.SPL_GAP_LOG, 45, 36⟩
abbrev F.SPL_GAP_LOG.QUEUE : Fld := ⟨.SPL_GAP_LOG, 35, 32⟩
abbrev F.SPL_GAP_LOG.FRAMES : Fld := ⟨.SPL_GAP_LOG, 31, 0⟩
abbrev F.SPL_Q.EN : Fld := ⟨.SPL_Q, 63, 63⟩
abbrev F.SPL_Q.PALPHA : Fld := ⟨.SPL_Q, 62, 59⟩
abbrev F.SPL_Q.HI : Fld := ⟨.SPL_Q, 58, 38⟩
abbrev F.SPL_Q.HEAD : Fld := ⟨.SPL_Q, 37, 17⟩
abbrev F.SPL_Q.PMIN : Fld := ⟨.SPL_Q, 16, 0⟩
abbrev F.SPL_Q_STAT.PAGES : Fld := ⟨.SPL_Q_STAT, 63, 39⟩
abbrev F.SPL_Q_STAT.HEADCELLS : Fld := ⟨.SPL_Q_STAT, 38, 18⟩
abbrev F.QUE_PORT.QSHIFT : Fld := ⟨.QUE_PORT, 59, 56⟩
abbrev F.QUE_PORT.OVH : Fld := ⟨.QUE_PORT, 55, 48⟩
abbrev F.QUE_SCH.PARENT : Fld := ⟨.QUE_SCH, 63, 61⟩
abbrev F.QUE_SCH.PRI : Fld := ⟨.QUE_SCH, 60, 58⟩
abbrev F.QUE_SCH.WEIGHT : Fld := ⟨.QUE_SCH, 57, 50⟩
abbrev F.QUE_SCH.YLIM : Fld := ⟨.QUE_SCH, 49, 34⟩
abbrev F.QUE_SCH.RLIM : Fld := ⟨.QUE_SCH, 33, 18⟩
abbrev F.SHP_CFG.EN : Fld := ⟨.SHP_CFG, 63, 63⟩
abbrev F.SHP_CFG.RATE : Fld := ⟨.SHP_CFG, 62, 42⟩
abbrev F.SHP_CFG.BURST : Fld := ⟨.SHP_CFG, 41, 26⟩
abbrev F.SHP_STAT.ELIG : Fld := ⟨.SHP_STAT, 63, 63⟩
abbrev F.SHP_STAT.WHEEL : Fld := ⟨.SHP_STAT, 62, 62⟩
abbrev F.SHP_STAT.CREDIT : Fld := ⟨.SHP_STAT, 31, 0⟩
abbrev F.MTR_A.EN : Fld := ⟨.MTR_A, 63, 63⟩
abbrev F.MTR_A.MODE : Fld := ⟨.MTR_A, 62, 61⟩
abbrev F.MTR_A.AWARE : Fld := ⟨.MTR_A, 60, 60⟩
abbrev F.MTR_A.RESET : Fld := ⟨.MTR_A, 59, 59⟩
abbrev F.MTR_A.CIR : Fld := ⟨.MTR_A, 58, 34⟩
abbrev F.MTR_A.CBS : Fld := ⟨.MTR_A, 33, 10⟩
abbrev F.MTR_B.PIR : Fld := ⟨.MTR_B, 63, 39⟩
abbrev F.MTR_B.XBS : Fld := ⟨.MTR_B, 38, 15⟩
abbrev F.MTR_TOK.TC : Fld := ⟨.MTR_TOK, 63, 32⟩
abbrev F.MTR_TOK.TX : Fld := ⟨.MTR_TOK, 31, 0⟩
abbrev F.PEP_RING.EN : Fld := ⟨.PEP_RING, 63, 63⟩
abbrev F.PEP_RING.FULL : Fld := ⟨.PEP_RING, 62, 62⟩
abbrev F.PEP_RING.OBS : Fld := ⟨.PEP_RING, 61, 61⟩
abbrev F.PEP_RING.BASE : Fld := ⟨.PEP_RING, 55, 45⟩
abbrev F.PEP_RING.SIZE : Fld := ⟨.PEP_RING, 44, 33⟩
abbrev F.PEP_RING.SNAPLEN : Fld := ⟨.PEP_RING, 32, 27⟩
abbrev F.PEP_RING_STAT.USED : Fld := ⟨.PEP_RING_STAT, 55, 32⟩
abbrev F.PEP_RING_STAT.SEQ : Fld := ⟨.PEP_RING_STAT, 31, 0⟩
abbrev F.PEP_MIR.EN : Fld := ⟨.PEP_MIR, 63, 63⟩
abbrev F.PEP_MIR.TYPE : Fld := ⟨.PEP_MIR, 62, 62⟩
abbrev F.PEP_MIR.SAMPLE : Fld := ⟨.PEP_MIR, 61, 58⟩
abbrev F.PEP_MIR.MPOOL : Fld := ⟨.PEP_MIR, 57, 56⟩
abbrev F.PEP_MIR.RING : Fld := ⟨.PEP_MIR, 55, 48⟩
abbrev F.PEP_MIR.DEST : Fld := ⟨.PEP_MIR, 47, 38⟩
abbrev F.PEP_MIR.QUEUE : Fld := ⟨.PEP_MIR, 37, 33⟩
abbrev F.PEP_MIR.TRUNC : Fld := ⟨.PEP_MIR, 32, 19⟩
abbrev F.PEP_SAMP.IEN : Fld := ⟨.PEP_SAMP, 63, 63⟩
abbrev F.PEP_SAMP.IK : Fld := ⟨.PEP_SAMP, 62, 59⟩
abbrev F.PEP_SAMP.EEN : Fld := ⟨.PEP_SAMP, 58, 58⟩
abbrev F.PEP_SAMP.EK : Fld := ⟨.PEP_SAMP, 57, 54⟩
abbrev F.PEP_SAMP.RING : Fld := ⟨.PEP_SAMP, 53, 46⟩
abbrev F.SHU_CTL.EN : Fld := ⟨.SHU_CTL, 63, 63⟩
abbrev F.SHU_CTL.COMMIT : Fld := ⟨.SHU_CTL, 62, 62⟩
abbrev F.SHU_CTL.ERR : Fld := ⟨.SHU_CTL, 61, 61⟩
abbrev F.SHU_CTL.PREEMPT : Fld := ⟨.SHU_CTL, 60, 60⟩
abbrev F.SHU_CTL.VERIFY : Fld := ⟨.SHU_CTL, 59, 59⟩
abbrev F.SHU_CTL.ADDFRAG : Fld := ⟨.SHU_CTL, 58, 57⟩
abbrev F.SHU_CTL.PMASK : Fld := ⟨.SHU_CTL, 56, 37⟩
abbrev F.SHU_CTL.PARKMASK : Fld := ⟨.SHU_CTL, 36, 17⟩
abbrev F.SHU_CTL.ERRIDX : Fld := ⟨.SHU_CTL, 16, 9⟩
abbrev F.SHU_CTL.LEN : Fld := ⟨.SHU_CTL, 8, 0⟩
abbrev F.SHU_STAT.PSTATE : Fld := ⟨.SHU_STAT, 63, 62⟩
abbrev F.SHU_STAT.PARKED : Fld := ⟨.SHU_STAT, 61, 61⟩
abbrev F.SHU_STAT.SUSP : Fld := ⟨.SHU_STAT, 60, 60⟩
abbrev F.SHU_STAT.OPEN : Fld := ⟨.SHU_STAT, 59, 40⟩
abbrev F.SHU_STAT.SKIP : Fld := ⟨.SHU_STAT, 39, 20⟩
abbrev F.SHU_STAT.SHUTOUT : Fld := ⟨.SHU_STAT, 19, 0⟩
abbrev F.SHU_SILL.PROG : Fld := ⟨.SHU_SILL, 63, 63⟩
abbrev F.SHU_SILL.SILL_LEN : Fld := ⟨.SHU_SILL, 61, 48⟩
abbrev F.SHU_SILL.SPAN : Fld := ⟨.SHU_SILL, 31, 0⟩
abbrev F.SHU_ENTRY.MASK : Fld := ⟨.SHU_ENTRY, 51, 32⟩
abbrev F.SHU_ENTRY.PHASE : Fld := ⟨.SHU_ENTRY, 31, 0⟩
abbrev F.LN_PORT.EN : Fld := ⟨.LN_PORT, 63, 63⟩
abbrev F.LN_PORT.SLICE : Fld := ⟨.LN_PORT, 62, 58⟩
abbrev F.LN_PORT.SLOT : Fld := ⟨.LN_PORT, 57, 53⟩
abbrev F.LN_PORT.NLANES : Fld := ⟨.LN_PORT, 52, 51⟩
abbrev F.LN_PORT.RATE : Fld := ⟨.LN_PORT, 50, 48⟩
abbrev F.LN_PORT.FLOOR : Fld := ⟨.LN_PORT, 47, 45⟩
abbrev F.LN_PORT.MODE : Fld := ⟨.LN_PORT, 44, 43⟩
abbrev F.LN_PORT.FEC : Fld := ⟨.LN_PORT, 42, 41⟩
abbrev F.LN_PORT.MAXFRAME : Fld := ⟨.LN_PORT, 40, 27⟩
abbrev F.LN_PCTL.DORMANT : Fld := ⟨.LN_PCTL, 63, 63⟩
abbrev F.LN_PCTL.QTX_EN : Fld := ⟨.LN_PCTL, 62, 62⟩
abbrev F.LN_PCTL.QRX_EN : Fld := ⟨.LN_PCTL, 61, 61⟩
abbrev F.LN_PCTL.QIDLE : Fld := ⟨.LN_PCTL, 60, 48⟩
abbrev F.LN_PCTL.LOOP : Fld := ⟨.LN_PCTL, 47, 46⟩
abbrev F.LN_PCTL.RETRAIN : Fld := ⟨.LN_PCTL, 42, 42⟩
abbrev F.LN_PCTL.TRAIN_TMO : Fld := ⟨.LN_PCTL, 40, 32⟩
abbrev F.LN_PSTAT.STATE : Fld := ⟨.LN_PSTAT, 63, 60⟩
abbrev F.LN_PSTAT.CUR_RATE : Fld := ⟨.LN_PSTAT, 59, 57⟩
abbrev F.LN_PSTAT.JOINED : Fld := ⟨.LN_PSTAT, 56, 56⟩
abbrev F.LN_PSTAT.TXQ : Fld := ⟨.LN_PSTAT, 55, 55⟩
abbrev F.LN_PSTAT.RXQ : Fld := ⟨.LN_PSTAT, 54, 54⟩
abbrev F.LN_PSTAT.REVERSED : Fld := ⟨.LN_PSTAT, 53, 53⟩
abbrev F.LN_PSTAT.PERMUTED : Fld := ⟨.LN_PSTAT, 52, 52⟩
abbrev F.LN_SPARE.AUTO : Fld := ⟨.LN_SPARE, 63, 63⟩
abbrev F.LN_SPARE.WIRED : Fld := ⟨.LN_SPARE, 62, 62⟩
abbrev F.LN_SPARE.GO : Fld := ⟨.LN_SPARE, 61, 61⟩
abbrev F.LN_SPARE.TARGET : Fld := ⟨.LN_SPARE, 60, 56⟩
abbrev F.LN_SPARE.STATE : Fld := ⟨.LN_SPARE, 55, 53⟩
abbrev F.LN_SPARE.REPLACED : Fld := ⟨.LN_SPARE, 52, 48⟩
abbrev F.LN_SPARE.SER_LIM : Fld := ⟨.LN_SPARE, 47, 42⟩
abbrev F.LN_CFG.TXINV : Fld := ⟨.LN_CFG, 63, 63⟩
abbrev F.LN_CFG.RXINV : Fld := ⟨.LN_CFG, 62, 62⟩
abbrev F.LN_CFG.PRESET : Fld := ⟨.LN_CFG, 61, 56⟩
abbrev F.LN_STATUS.PWR : Fld := ⟨.LN_STATUS, 63, 62⟩
abbrev F.LN_STATUS.LOCK : Fld := ⟨.LN_STATUS, 61, 61⟩
abbrev F.LN_STATUS.FROZEN : Fld := ⟨.LN_STATUS, 60, 60⟩
abbrev F.LN_STATUS.COEF_VALID : Fld := ⟨.LN_STATUS, 59, 59⟩
abbrev F.LN_STATUS.FAULT : Fld := ⟨.LN_STATUS, 58, 54⟩
abbrev F.LN_STATUS.FAILED : Fld := ⟨.LN_STATUS, 53, 53⟩
abbrev F.LN_STATUS.MARGIN : Fld := ⟨.LN_STATUS, 47, 40⟩
abbrev F.LN_STATUS.SNAP_MARGIN : Fld := ⟨.LN_STATUS, 39, 32⟩
abbrev F.LN_ADAPT.FREEZE_EN : Fld := ⟨.LN_ADAPT, 63, 63⟩
abbrev F.LN_ADAPT.DRIFT_LIM : Fld := ⟨.LN_ADAPT, 55, 48⟩
abbrev F.LN_ADAPT.MARGIN_MIN : Fld := ⟨.LN_ADAPT, 47, 40⟩
abbrev F.LN_ADAPT.SNAP_INT : Fld := ⟨.LN_ADAPT, 39, 32⟩
abbrev F.INJ_CTL.EN : Fld := ⟨.INJ_CTL, 63, 63⟩
abbrev F.INJ_CTL.MODE : Fld := ⟨.INJ_CTL, 62, 60⟩
abbrev F.INJ_CTL.FCSV : Fld := ⟨.INJ_CTL, 59, 59⟩
abbrev F.INJ_CTL.PEN : Fld := ⟨.INJ_CTL, 58, 58⟩
abbrev F.INJ_CTL.K : Fld := ⟨.INJ_CTL, 57, 53⟩
abbrev F.INJ_CTL.N : Fld := ⟨.INJ_CTL, 52, 48⟩
abbrev F.INJ_CTL.DELAY : Fld := ⟨.INJ_CTL, 47, 32⟩
abbrev F.INJ_CTL.OFF : Fld := ⟨.INJ_CTL, 26, 18⟩
abbrev F.INJ_CTL.XMASK : Fld := ⟨.INJ_CTL, 17, 10⟩
abbrev F.INJ_CTL.MOFF : Fld := ⟨.INJ_CTL, 9, 1⟩
abbrev F.INJ_MATCH_V.BYTES : Fld := ⟨.INJ_MATCH_V, 63, 0⟩
abbrev F.INJ_MATCH_M.BYTES : Fld := ⟨.INJ_MATCH_M, 63, 0⟩
abbrev F.INJ_SYM.SYMS : Fld := ⟨.INJ_SYM, 63, 59⟩
abbrev F.INJ_SYM.LANE : Fld := ⟨.INJ_SYM, 58, 56⟩
abbrev F.CLK_CTL.REF_PRI : Fld := ⟨.CLK_CTL, 63, 63⟩
abbrev F.CLK_CTL.REVERT : Fld := ⟨.CLK_CTL, 62, 62⟩
abbrev F.CLK_CTL.TIMREF : Fld := ⟨.CLK_CTL, 61, 61⟩
abbrev F.CLK_STATUS.XO_LOST : Fld := ⟨.CLK_STATUS, 63, 63⟩
abbrev F.CLK_STATUS.TRN_RO : Fld := ⟨.CLK_STATUS, 62, 62⟩
abbrev F.CLK_STATUS.REF0_OK : Fld := ⟨.CLK_STATUS, 61, 61⟩
abbrev F.CLK_STATUS.REF1_OK : Fld := ⟨.CLK_STATUS, 60, 60⟩
abbrev F.CLK_STATUS.REFSEL : Fld := ⟨.CLK_STATUS, 59, 59⟩
abbrev F.CLK_STATUS.LOCK : Fld := ⟨.CLK_STATUS, 23, 16⟩
abbrev F.CLK_STATUS.COAST : Fld := ⟨.CLK_STATUS, 15, 8⟩
abbrev F.CLK_XO.NOM : Fld := ⟨.CLK_XO, 63, 48⟩
abbrev F.CLK_XO.LAST : Fld := ⟨.CLK_XO, 47, 32⟩
abbrev F.CLK_DVFS.TARGET : Fld := ⟨.CLK_DVFS, 63, 61⟩
abbrev F.CLK_DVFS.CUR : Fld := ⟨.CLK_DVFS, 60, 58⟩
abbrev F.CLK_DVFS.STATE : Fld := ⟨.CLK_DVFS, 57, 55⟩
abbrev F.CLK_DVFS.VREG_LOST : Fld := ⟨.CLK_DVFS, 54, 54⟩
abbrev F.CLK_DVFS.SETTLE_TMO : Fld := ⟨.CLK_DVFS, 47, 40⟩
abbrev F.CLK_OP.RETIRED : Fld := ⟨.CLK_OP, 63, 63⟩
abbrev F.CLK_OP.FREQ : Fld := ⟨.CLK_OP, 47, 32⟩
abbrev F.CLK_OP.VNOM : Fld := ⟨.CLK_OP, 31, 16⟩
abbrev F.CLK_OP.VADJ : Fld := ⟨.CLK_OP, 15, 0⟩
abbrev F.CLK_FMEAS_CTL.GO : Fld := ⟨.CLK_FMEAS_CTL, 63, 63⟩
abbrev F.CLK_FMEAS_CTL.TGT : Fld := ⟨.CLK_FMEAS_CTL, 62, 57⟩
abbrev F.CLK_FMEAS_CTL.REF : Fld := ⟨.CLK_FMEAS_CTL, 56, 51⟩
abbrev F.CLK_FMEAS_CTL.N : Fld := ⟨.CLK_FMEAS_CTL, 50, 45⟩
abbrev F.CLK_FMEAS_CTL.TMO : Fld := ⟨.CLK_FMEAS_CTL, 44, 29⟩
abbrev F.CLK_FMEAS_RES.VALID : Fld := ⟨.CLK_FMEAS_RES, 63, 63⟩
abbrev F.CLK_FMEAS_RES.TIMEOUT : Fld := ⟨.CLK_FMEAS_RES, 62, 62⟩
abbrev F.CLK_FMEAS_RES.COUNT : Fld := ⟨.CLK_FMEAS_RES, 47, 0⟩
abbrev F.CLK_SWFORCED.MUX : Fld := ⟨.CLK_SWFORCED, 7, 0⟩
abbrev F.PWR_CTL.LOOP_EN : Fld := ⟨.PWR_CTL, 63, 63⟩
abbrev F.PWR_CTL.MODE : Fld := ⟨.PWR_CTL, 62, 62⟩
abbrev F.PWR_CTL.OPMIN : Fld := ⟨.PWR_CTL, 61, 59⟩
abbrev F.PWR_CTL.LQIDLE : Fld := ⟨.PWR_CTL, 58, 48⟩
abbrev F.PWR_CTL.BUSHZ : Fld := ⟨.PWR_CTL, 47, 46⟩
abbrev F.PWR_CTL.HYST : Fld := ⟨.PWR_CTL, 45, 40⟩
abbrev F.PWR_STATE.REQ : Fld := ⟨.PWR_STATE, 63, 62⟩
abbrev F.PWR_STATE.CUR : Fld := ⟨.PWR_STATE, 61, 60⟩
abbrev F.PWR_STATE.WARMING : Fld := ⟨.PWR_STATE, 59, 59⟩
abbrev F.PWR_CAP.CAP : Fld := ⟨.PWR_CAP, 63, 48⟩
abbrev F.PWR_CAP.EFF : Fld := ⟨.PWR_CAP, 47, 32⟩
abbrev F.PWR_CAP.CREDIT_MAX : Fld := ⟨.PWR_CAP, 31, 16⟩
abbrev F.PWR_CAP.CREDIT : Fld := ⟨.PWR_CAP, 15, 0⟩
abbrev F.PWR_STATUS.MEAS : Fld := ⟨.PWR_STATUS, 63, 48⟩
abbrev F.PWR_STATUS.EST : Fld := ⟨.PWR_STATUS, 47, 32⟩
abbrev F.PWR_STATUS.GAIN : Fld := ⟨.PWR_STATUS, 31, 20⟩
abbrev F.PWR_STATUS.LIMIT : Fld := ⟨.PWR_STATUS, 19, 18⟩
abbrev F.PWR_STATUS.DISAGREE : Fld := ⟨.PWR_STATUS, 17, 17⟩
abbrev F.PWR_STATUS.RAIL_LOST : Fld := ⟨.PWR_STATUS, 16, 16⟩
abbrev F.PWR_STATUS.THROT : Fld := ⟨.PWR_STATUS, 15, 15⟩
abbrev F.PWR_STATUS.HINT : Fld := ⟨.PWR_STATUS, 14, 14⟩
abbrev F.PWR_STATUS.BOOST : Fld := ⟨.PWR_STATUS, 13, 13⟩
abbrev F.PWR_STATUS.FORCED_FIXED : Fld := ⟨.PWR_STATUS, 12, 12⟩
abbrev F.PWR_DOM_ON.ON : Fld := ⟨.PWR_DOM_ON, 63, 0⟩
abbrev F.PWR_RAIL.EN : Fld := ⟨.PWR_RAIL, 63, 63⟩
abbrev F.PWR_RAIL.KIND : Fld := ⟨.PWR_RAIL, 62, 60⟩
abbrev F.PWR_RAIL.ADDR : Fld := ⟨.PWR_RAIL, 59, 53⟩
abbrev F.PWR_RAIL.PAGE : Fld := ⟨.PWR_RAIL, 52, 45⟩
abbrev F.PWR_RAIL.VCORE : Fld := ⟨.PWR_RAIL, 44, 44⟩
abbrev F.PWR_RAIL.LOST : Fld := ⟨.PWR_RAIL, 32, 32⟩
abbrev F.PWR_RAIL.POUT : Fld := ⟨.PWR_RAIL, 31, 16⟩
abbrev F.PWR_RAIL.STATUS : Fld := ⟨.PWR_RAIL, 15, 0⟩
abbrev F.PWR_HCLASS.OP : Fld := ⟨.PWR_HCLASS, 63, 61⟩
abbrev F.PWR_HCLASS.EXTRA : Fld := ⟨.PWR_HCLASS, 60, 48⟩
abbrev F.PWR_HCLASS.LEAD : Fld := ⟨.PWR_HCLASS, 47, 32⟩
abbrev F.PWR_THERM.THROT_T : Fld := ⟨.PWR_THERM, 63, 56⟩
abbrev F.PWR_THERM.HOT : Fld := ⟨.PWR_THERM, 55, 44⟩
abbrev F.PWR_THERM.HOTIDX : Fld := ⟨.PWR_THERM, 43, 38⟩
abbrev F.PWR_THERM.BOOST_T : Fld := ⟨.PWR_THERM, 37, 30⟩
abbrev F.PWR_THERM.WARM_T : Fld := ⟨.PWR_THERM, 29, 22⟩
abbrev F.PWR_THERM.WARM_TMO : Fld := ⟨.PWR_THERM, 21, 12⟩
abbrev F.PWR_TSENS.TEMP : Fld := ⟨.PWR_TSENS, 63, 52⟩
abbrev F.PWR_TSENS.MAX : Fld := ⟨.PWR_TSENS, 51, 40⟩
abbrev F.AGE_CTL.PERIOD : Fld := ⟨.AGE_CTL, 63, 56⟩
abbrev F.AGE_CTL.GO : Fld := ⟨.AGE_CTL, 55, 55⟩
abbrev F.AGE_CTL.AUTO : Fld := ⟨.AGE_CTL, 54, 54⟩
abbrev F.AGE_STATUS.SHIFT : Fld := ⟨.AGE_STATUS, 63, 48⟩
abbrev F.AGE_STATUS.SEC : Fld := ⟨.AGE_STATUS, 47, 0⟩
abbrev F.AGE_REC.VALID : Fld := ⟨.AGE_REC, 63, 63⟩
abbrev F.AGE_REC.CODE : Fld := ⟨.AGE_REC, 62, 56⟩
abbrev F.AGE_REC.UNIT : Fld := ⟨.AGE_REC, 55, 40⟩
abbrev F.AGE_REC.VALUE : Fld := ⟨.AGE_REC, 39, 24⟩
abbrev F.AGE_REC.DAY : Fld := ⟨.AGE_REC, 23, 0⟩
abbrev F.TRN_CTL.WAKE_EN : Fld := ⟨.TRN_CTL, 63, 59⟩
abbrev F.TRN_CTL.KEEP_SPILL : Fld := ⟨.TRN_CTL, 58, 58⟩
abbrev F.TRN_CTL.JHI_T : Fld := ⟨.TRN_CTL, 55, 48⟩
abbrev F.TRN_CTL.JLO_T : Fld := ⟨.TRN_CTL, 47, 40⟩
abbrev F.TRN_CTL.UV_T : Fld := ⟨.TRN_CTL, 39, 30⟩
abbrev F.TRN_WAKE.SRC : Fld := ⟨.TRN_WAKE, 63, 59⟩
abbrev F.TRN_WAKE.PENDING : Fld := ⟨.TRN_WAKE, 58, 58⟩
abbrev F.TRN_WAKE.TRIPPED : Fld := ⟨.TRN_WAKE, 57, 57⟩
abbrev F.TRN_WAKE.TRIPS : Fld := ⟨.TRN_WAKE, 56, 48⟩
abbrev F.TRN_ALARM.EN : Fld := ⟨.TRN_ALARM, 63, 63⟩
abbrev F.TRN_ALARM.SEC : Fld := ⟨.TRN_ALARM, 47, 0⟩
abbrev F.FAB_CTL.EN : Fld := ⟨.FAB_CTL, 63, 63⟩
abbrev F.FAB_CTL.POLICY : Fld := ⟨.FAB_CTL, 62, 61⟩
abbrev F.FAB_CTL.DQ : Fld := ⟨.FAB_CTL, 60, 56⟩
abbrev F.FAB_CTL.DEPUTY_PRI : Fld := ⟨.FAB_CTL, 55, 48⟩
abbrev F.FAB_CTL.DOMAIN : Fld := ⟨.FAB_CTL, 47, 32⟩
abbrev F.FAB_CTL.SHED_MASK : Fld := ⟨.FAB_CTL, 31, 16⟩
abbrev F.FAB_CTL.RELAX : Fld := ⟨.FAB_CTL, 15, 8⟩
abbrev F.FAB_CTL.LEAD : Fld := ⟨.FAB_CTL, 7, 0⟩
abbrev F.FAB_STATUS.STATE : Fld := ⟨.FAB_STATUS, 63, 61⟩
abbrev F.FAB_STATUS.DEPUTY : Fld := ⟨.FAB_STATUS, 60, 60⟩
abbrev F.FAB_STATUS.MEMBERS : Fld := ⟨.FAB_STATUS, 59, 51⟩
abbrev F.FAB_STATUS.MYNUM : Fld := ⟨.FAB_STATUS, 50, 43⟩
abbrev F.FAB_STATUS.UPPORT : Fld := ⟨.FAB_STATUS, 42, 33⟩
abbrev F.FAB_STATUS.TERM : Fld := ⟨.FAB_STATUS, 31, 16⟩
abbrev F.FAB_STATUS.DEFICIT : Fld := ⟨.FAB_STATUS, 15, 0⟩
abbrev F.FAB_MGR.UID : Fld := ⟨.FAB_MGR, 63, 0⟩
abbrev F.FAB_CMD.RECLAIM : Fld := ⟨.FAB_CMD, 63, 63⟩
abbrev F.FAB_CMD.REJOIN : Fld := ⟨.FAB_CMD, 62, 62⟩
abbrev F.FAB_EPOCH_CMD.GO : Fld := ⟨.FAB_EPOCH_CMD, 63, 63⟩
abbrev F.FAB_EPOCH_CMD.RESULT : Fld := ⟨.FAB_EPOCH_CMD, 62, 61⟩
abbrev F.FAB_EPOCH_CMD.CYCLE : Fld := ⟨.FAB_EPOCH_CMD, 47, 0⟩
abbrev F.FAB_EPOCH_PHASE.ID : Fld := ⟨.FAB_EPOCH_PHASE, 63, 48⟩
abbrev F.FAB_EPOCH_PHASE.PENDING : Fld := ⟨.FAB_EPOCH_PHASE, 47, 44⟩
abbrev F.FAB_EPOCH_PHASE.PHASE : Fld := ⟨.FAB_EPOCH_PHASE, 31, 0⟩
abbrev F.FAB_EPOCH_GROUPS.GROUPS : Fld := ⟨.FAB_EPOCH_GROUPS, 63, 0⟩
abbrev F.FAB_MEMBER.VALID : Fld := ⟨.FAB_MEMBER, 63, 63⟩
abbrev F.FAB_MEMBER.DEPUTY : Fld := ⟨.FAB_MEMBER, 62, 62⟩
abbrev F.FAB_MEMBER.PROFILE : Fld := ⟨.FAB_MEMBER, 61, 61⟩
abbrev F.FAB_MEMBER.FIXED : Fld := ⟨.FAB_MEMBER, 60, 60⟩
abbrev F.FAB_MEMBER.HOPS : Fld := ⟨.FAB_MEMBER, 59, 56⟩
abbrev F.FAB_MEMBER.DEFICIT : Fld := ⟨.FAB_MEMBER, 55, 40⟩
abbrev F.FAB_MEMBER.CUR_OP : Fld := ⟨.FAB_MEMBER, 34, 32⟩
abbrev F.FAB_MEMBER.ACK : Fld := ⟨.FAB_MEMBER, 31, 16⟩
abbrev F.FAB_MEMBER.SHED : Fld := ⟨.FAB_MEMBER, 15, 0⟩
abbrev F.FAB_MEMBER_UID.UID : Fld := ⟨.FAB_MEMBER_UID, 63, 0⟩
abbrev F.FAB_STK.EN : Fld := ⟨.FAB_STK, 63, 63⟩
abbrev F.FAB_STK.PRI : Fld := ⟨.FAB_STK, 62, 55⟩
abbrev F.FAB_STK.MYNUM : Fld := ⟨.FAB_STK, 54, 53⟩
abbrev F.FAB_STK.MASTER : Fld := ⟨.FAB_STK, 52, 51⟩
abbrev F.FAB_STK.STATE : Fld := ⟨.FAB_STK, 50, 48⟩
abbrev F.FAB_STK.MEMBERS : Fld := ⟨.FAB_STK, 47, 44⟩
abbrev F.FAB_STK_PORTS.PORTS : Fld := ⟨.FAB_STK_PORTS, 63, 0⟩
abbrev F.FAB_STK_ROUTE.VALID : Fld := ⟨.FAB_STK_ROUTE, 63, 60⟩
abbrev F.FAB_STK_ROUTE.P0 : Fld := ⟨.FAB_STK_ROUTE, 59, 50⟩
abbrev F.FAB_STK_ROUTE.P1 : Fld := ⟨.FAB_STK_ROUTE, 49, 40⟩
abbrev F.FAB_STK_ROUTE.P2 : Fld := ⟨.FAB_STK_ROUTE, 39, 30⟩
abbrev F.FAB_STK_ROUTE.P3 : Fld := ⟨.FAB_STK_ROUTE, 29, 20⟩
abbrev F.EVT_STATUS.HIGH : Fld := ⟨.EVT_STATUS, 63, 32⟩
abbrev F.EVT_STATUS.STATUS : Fld := ⟨.EVT_STATUS, 31, 0⟩
abbrev F.EVT_MASK.MASK : Fld := ⟨.EVT_MASK, 31, 0⟩
abbrev F.EVT_SEV.SEV : Fld := ⟨.EVT_SEV, 63, 0⟩
abbrev F.EVT_SUMMARY.ALERT : Fld := ⟨.EVT_SUMMARY, 63, 63⟩
abbrev F.EVT_SUMMARY.PENDING : Fld := ⟨.EVT_SUMMARY, 47, 0⟩
abbrev F.CNT_GEN.GEN : Fld := ⟨.CNT_GEN, 63, 0⟩
abbrev F.CNT_ALLOW.ALLOW : Fld := ⟨.CNT_ALLOW, 31, 0⟩
abbrev F.TEL_CTL.NODEID : Fld := ⟨.TEL_CTL, 31, 0⟩
abbrev F.TEL_IOAM_A.EN : Fld := ⟨.TEL_IOAM_A, 63, 63⟩
abbrev F.TEL_IOAM_A.NSANY : Fld := ⟨.TEL_IOAM_A, 62, 62⟩
abbrev F.TEL_IOAM_A.NODEID : Fld := ⟨.TEL_IOAM_A, 55, 0⟩
abbrev F.TEL_IOAM_B.NS : Fld := ⟨.TEL_IOAM_B, 63, 48⟩
abbrev F.TEL_IOAM_B.HLMARK : Fld := ⟨.TEL_IOAM_B, 47, 45⟩
abbrev F.TEL_IOAM_B.HLOFF : Fld := ⟨.TEL_IOAM_B, 44, 36⟩
abbrev F.TEL_IOAM_B.NSDATA : Fld := ⟨.TEL_IOAM_B, 31, 0⟩
abbrev F.TEL_HIST.EN : Fld := ⟨.TEL_HIST, 63, 63⟩
abbrev F.TEL_HIST.QTY : Fld := ⟨.TEL_HIST, 62, 62⟩
abbrev F.TEL_HIST.MINEXP : Fld := ⟨.TEL_HIST, 61, 58⟩
abbrev F.TEL_DIG.EN : Fld := ⟨.TEL_DIG, 63, 63⟩
abbrev F.TEL_DIG.H : Fld := ⟨.TEL_DIG, 62, 62⟩
abbrev F.TEL_DIG.RING : Fld := ⟨.TEL_DIG, 61, 54⟩
abbrev F.TEL_DIG.IDLE : Fld := ⟨.TEL_DIG, 53, 38⟩
abbrev F.TEL_DIG.ACTIVE : Fld := ⟨.TEL_DIG, 37, 22⟩
abbrev F.TEL_DIG_FLUSH.GO : Fld := ⟨.TEL_DIG_FLUSH, 63, 63⟩
abbrev F.TEL_CSEL.EN : Fld := ⟨.TEL_CSEL, 63, 63⟩
abbrev F.TEL_CSEL.DENIED : Fld := ⟨.TEL_CSEL, 62, 62⟩
abbrev F.TEL_CSEL.DST : Fld := ⟨.TEL_CSEL, 57, 48⟩
abbrev F.TEL_CSEL.INDEX : Fld := ⟨.TEL_CSEL, 31, 0⟩
abbrev F.GLB_REP_CTL.GO : Fld := ⟨.GLB_REP_CTL, 63, 63⟩
abbrev F.GLB_REP_CTL.AUTO : Fld := ⟨.GLB_REP_CTL, 62, 62⟩
abbrev F.GLB_REP_CTL.CSQ_GO : Fld := ⟨.GLB_REP_CTL, 61, 61⟩
abbrev F.GLB_REP_CTL.CSQ : Fld := ⟨.GLB_REP_CTL, 60, 60⟩
abbrev F.GLB_REP_CTL.LANE_GO : Fld := ⟨.GLB_REP_CTL, 59, 59⟩
abbrev F.GLB_REP_CTL.SLICE : Fld := ⟨.GLB_REP_CTL, 58, 54⟩
abbrev F.GLB_REP_CTL.CSQ_AUTO : Fld := ⟨.GLB_REP_CTL, 53, 53⟩
abbrev F.GLB_REP_STATUS.STATE : Fld := ⟨.GLB_REP_STATUS, 63, 61⟩
abbrev F.GLB_REP_STATUS.SLICE : Fld := ⟨.GLB_REP_STATUS, 60, 56⟩
abbrev F.GLB_REP_STATUS.NEXT : Fld := ⟨.GLB_REP_STATUS, 47, 44⟩
abbrev F.GLB_REP_STATUS.PENDING : Fld := ⟨.GLB_REP_STATUS, 31, 0⟩
abbrev F.GLB_REP_FAILED.FAILED : Fld := ⟨.GLB_REP_FAILED, 31, 0⟩
abbrev F.GLB_SRAM_REP.DONE : Fld := ⟨.GLB_SRAM_REP, 63, 48⟩
abbrev F.GLB_SRAM_REP.EXHAUSTED : Fld := ⟨.GLB_SRAM_REP, 47, 32⟩
abbrev F.GLB_SRAM_REP.CE_DAY : Fld := ⟨.GLB_SRAM_REP, 31, 16⟩
abbrev F.GLB_RECOV_LOG.VALID : Fld := ⟨.GLB_RECOV_LOG, 63, 63⟩
abbrev F.GLB_RECOV_LOG.KIND : Fld := ⟨.GLB_RECOV_LOG, 62, 59⟩
abbrev F.GLB_RECOV_LOG.UNIT : Fld := ⟨.GLB_RECOV_LOG, 58, 48⟩
abbrev F.GLB_RECOV_LOG.LOST : Fld := ⟨.GLB_RECOV_LOG, 47, 24⟩
abbrev F.GLB_RECOV_LOG.GAP : Fld := ⟨.GLB_RECOV_LOG, 23, 23⟩
abbrev F.GLB_RECOV_LOG.DURATION : Fld := ⟨.GLB_RECOV_LOG, 19, 0⟩
abbrev F.MAI_FLOWLET.EN : Fld := ⟨.MAI_FLOWLET, 63, 63⟩
abbrev F.MAI_FLOWLET.FLUSH : Fld := ⟨.MAI_FLOWLET, 62, 62⟩
abbrev F.MAI_FLOWLET.FBIT : Fld := ⟨.MAI_FLOWLET, 61, 57⟩
abbrev F.MAI_FLOWLET.GAP : Fld := ⟨.MAI_FLOWLET, 47, 32⟩

end Sys2Proof.Machine
end

