-- ==== Sys2Proof/Machine/Regs.lean ====
section
/-! DEFINITION. The register file: one home for every software-visible field, with the values in force of double-buffered
fields kept beside it (R5 to R12). -/

namespace Sys2Proof.Machine

/-- The address of an instance of a register: base plus each index times its stride. -/
def RegName.addr (n : RegName) (ix : List Nat) : Nat :=
  n.spec.base + ((n.spec.dims.zip ix).map fun p => p.1.2 * p.2).sum

/-- The reset contents of CLK_OP[k]: FREQ in MHz and VNOM in mV of the operating points of R19. -/
def clkOpReset (k : Nat) : Nat :=
  match k with
  | 0 => 2000 * 2 ^ 32 + 820 * 2 ^ 16
  | 1 => 1800 * 2 ^ 32 + 760 * 2 ^ 16
  | 2 => 1600 * 2 ^ 32 + 710 * 2 ^ 16
  | 3 => 1400 * 2 ^ 32 + 670 * 2 ^ 16
  | 4 => 1200 * 2 ^ 32 + 630 * 2 ^ 16
  | _ => 1000 * 2 ^ 32 + 600 * 2 ^ 16

/-- What an instance of a register holds after reset: the value of its table, and for CLK_OP the operating points of R19. -/
def RegName.resetAt (n : RegName) (ix : List Nat) : Word :=
  match n with
  | .CLK_OP => BitVec.ofNat 64 (n.spec.reset ||| clkOpReset (ix.headD 0))
  | _ => BitVec.ofNat 64 n.spec.reset

/-- The stored value of a register. -/
def Dev.rget (d : Dev) (n : RegName) (ix : List Nat) : Word := mget (n.resetAt ix) d.regs (n.addr ix)

/-- The device stores a whole register. -/
def Dev.rset (d : Dev) (n : RegName) (ix : List Nat) (v : Word) : Dev :=
  { d with regs := mset (n.resetAt ix) d.regs (n.addr ix) v }

/-- The value most recently written to a field (R10). -/
def Dev.fget (d : Dev) (f : Fld) (ix : List Nat) : Nat := wbits (d.rget f.reg ix) f.hi f.lo

/-- The device stores a field. -/
def Dev.fset (d : Dev) (f : Fld) (ix : List Nat) (v : Nat) : Dev :=
  d.rset f.reg ix (wput (d.rget f.reg ix) f.hi f.lo v)

/-- The register value whose boundary fields are in force: the one before the pending write, if a write is pending (R10). -/
def Dev.rforce (d : Dev) (n : RegName) (ix : List Nat) : Word :=
  match mget? d.inForce (n.addr ix) with
  | some w => w
  | none => d.rget n ix

/-- The value in force of a class B field (R10). -/
def Dev.fgetB (d : Dev) (f : Fld) (ix : List Nat) : Nat := wbits (d.rforce f.reg ix) f.hi f.lo

/-- One-bit fields as booleans. -/
def Dev.fbit (d : Dev) (f : Fld) (ix : List Nat) : Bool := d.fget f ix != 0
/-- One-bit fields in force as booleans. -/
def Dev.fbitB (d : Dev) (f : Fld) (ix : List Nat) : Bool := d.fgetB f ix != 0

/-- Several device stores into one register's fields. -/
def Dev.fsets (d : Dev) (l : List (Fld × Nat)) (ix : List Nat) : Dev := l.foldl (fun (d : Dev) p => d.fset p.1 ix p.2) d

/-- A register's pending boundary fields take effect (R10). -/
def Dev.applyB (d : Dev) (n : RegName) (ix : List Nat) : Dev := { d with inForce := mdel d.inForce (n.addr ix) }

/-- One pending boundary field takes effect, the register's others not yet. -/
def Dev.applyField (d : Dev) (f : Fld) (ix : List Nat) : Dev :=
  match mget? d.inForce (f.reg.addr ix) with
  | some w => { d with inForce := mins d.inForce (f.reg.addr ix) (wput w f.hi f.lo (d.fget f ix)) }
  | none => d

/-- The pending boundary fields of every instance of a register whose address lies in a span take effect. -/
def Dev.applyBSpan (d : Dev) (lo len : Nat) : Dev :=
  { d with inForce := d.inForce.filter fun p => decide (p.1 < lo) || decide (lo + len ≤ p.1) }

/-- The index of an address in dimensions given outermost first, where the offset is exactly one of their instances. -/
def dimIndex : List (Nat × Nat) → Nat → Option (List Nat)
  | [], o => if o = 0 then some [] else none
  | (cnt, stride) :: ds, o =>
    let i := o / stride
    if cnt ≤ i then none else (dimIndex ds (o - i * stride)).map (i :: ·)

/-- The register and instance that an address selects, bits 2:0 ignored (R5, R6). -/
def regDecode (addr : Nat) : Option (RegName × List Nat) :=
  let a := addr / 8 * 8
  findFirst (fun _ => true) (RegName.all.filterMap fun n =>
    if n.spec.base ≤ a then (dimIndex n.spec.dims (a - n.spec.base)).map (fun ix => (n, ix)) else none)

end Sys2Proof.Machine
end

