-- ==== Sys2Proof/Machine/Directory.lean ====
section
/-! DEFINITION. The events and counters by name: each event's identifier and highest severity as the chapters' event tables give
them (R388, R389, R107), and the counter directory of R382 and R383. -/

namespace Sys2Proof.Machine

abbrev Ev.GLB_QVIOL : Nat := 3
abbrev Ev.GLB_BADACCESS : Nat := 4
abbrev Ev.GLB_DOMAIN_OFF : Nat := 5
abbrev Ev.CTL_LINK : Nat := 64
abbrev Ev.CTL_FAILOVER : Nat := 65
abbrev Ev.TVX_SESSION : Nat := 66
abbrev Ev.TVX_SESSION_LOST : Nat := 67
abbrev Ev.TVX_OPEN_REFUSED : Nat := 68
abbrev Ev.TVX_PRIV : Nat := 69
abbrev Ev.TVX_EVT_LATE : Nat := 70
abbrev Ev.CTL_MSEC_DROP : Nat := 71
abbrev Ev.CTL_PN_LOW : Nat := 72
abbrev Ev.CTL_PN_END : Nat := 73
abbrev Ev.CTL_BOTH_DOWN : Nat := 74
abbrev Ev.TVX_MALFORMED : Nat := 75
abbrev Ev.CSQ_FAULT : Nat := 80
abbrev Ev.CSQ_SAFEPT : Nat := 81
abbrev Ev.CSQ_TAKEOVER : Nat := 82
abbrev Ev.CSQ_SHADOW_LOST : Nat := 83
abbrev Ev.CSQ_AT_CANCEL : Nat := 84
abbrev Ev.CSQ_EVQ_LOST : Nat := 85
abbrev Ev.CSQ_SEQ_FAULT : Nat := 86
abbrev Ev.CSQ_ECC_CORR : Nat := 87
abbrev Ev.IMG_LOADED : Nat := 88
abbrev Ev.IMG_REFUSED : Nat := 89
abbrev Ev.IMG_PATCH_DONE : Nat := 90
abbrev Ev.IMG_PATCH_PARTIAL : Nat := 91
abbrev Ev.IMG_FUSE : Nat := 92
abbrev Ev.IMG_GOLDEN_BAD : Nat := 93
abbrev Ev.IMG_DEADBOLT_DENY : Nat := 94
abbrev Ev.IMG_STORE_UECC : Nat := 95
abbrev Ev.TIM_DPLL_STATE : Nat := 96
abbrev Ev.TIM_SRC_LOST : Nat := 97
abbrev Ev.TIM_HOLDOVER : Nat := 98
abbrev Ev.TIM_PTP_PORT : Nat := 99
abbrev Ev.TIM_STEP : Nat := 100
abbrev Ev.CYC_REALIGN : Nat := 101
abbrev Ev.CYC_IN_LOST : Nat := 102
abbrev Ev.CYC_IN_EDGE : Nat := 103
abbrev Ev.CYC_PT_LATE : Nat := 104
abbrev Ev.CYC_PT_REFUSED : Nat := 105
abbrev Ev.TIM_CAL_RANGE : Nat := 106
abbrev Ev.TIM_ADJ_REFUSED : Nat := 107
abbrev Ev.CLK_XO_LOST : Nat := 112
abbrev Ev.CLK_REF_LOST : Nat := 113
abbrev Ev.CLK_PLL_COAST : Nat := 114
abbrev Ev.CLK_SWFORCED : Nat := 115
abbrev Ev.CLK_DVFS_TMO : Nat := 116
abbrev Ev.CLK_PLL_RELOCK : Nat := 117
abbrev Ev.PRS_ILLEGAL : Nat := 136
abbrev Ev.PRS_PAT_REFUSED : Nat := 137
abbrev Ev.MA_ILLEGAL : Nat := 160
abbrev Ev.MA_NODEST : Nat := 161
abbrev Ev.MA_EDIT_ERR : Nat := 162
abbrev Ev.MA_SWAP : Nat := 163
abbrev Ev.TBL_BAD_ENTRY : Nat := 176
abbrev Ev.TBL_LEARN_FULL : Nat := 177
abbrev Ev.TBL_LEARN_LIMIT : Nat := 178
abbrev Ev.TBL_BADLOG_OVERRUN : Nat := 179
abbrev Ev.TBL_MOVE_STATIC : Nat := 180
abbrev Ev.TBL_LEARN_DUAL : Nat := 181
abbrev Ev.TBL_CMD_COLLIDE : Nat := 182
abbrev Ev.BUF_DFREE : Nat := 192
abbrev Ev.BUF_AUD_MISMATCH : Nat := 193
abbrev Ev.BUF_AUD_LEAK : Nat := 194
abbrev Ev.BUF_HDRM_DROP : Nat := 195
abbrev Ev.BUF_CFGERR : Nat := 196
abbrev Ev.BUF_STUCK : Nat := 197
abbrev Ev.BUF_STOMP : Nat := 198
abbrev Ev.BUF_NOCELL : Nat := 199
abbrev Ev.BUF_CELL_UECC : Nat := 200
abbrev Ev.SPL_ECC_CORR : Nat := 224
abbrev Ev.SPL_UECC : Nat := 225
abbrev Ev.SPL_DFREE : Nat := 226
abbrev Ev.SPL_AUD_MISMATCH : Nat := 227
abbrev Ev.SPL_AUD_LEAK : Nat := 228
abbrev Ev.SPL_RETIRE_START : Nat := 229
abbrev Ev.SPL_RETIRE_DONE : Nat := 230
abbrev Ev.SPL_GAP : Nat := 231
abbrev Ev.SPL_TRAIN_FAIL : Nat := 232
abbrev Ev.SPL_MARGIN : Nat := 233
abbrev Ev.SPL_PAGE_DENY : Nat := 235
abbrev Ev.SPL_CFGERR : Nat := 236
abbrev Ev.SPL_GOLDEN_LOST : Nat := 237
abbrev Ev.SHP_LATE : Nat := 256
abbrev Ev.QUE_COLOUR_DROP : Nat := 257
abbrev Ev.PEP_LOST : Nat := 258
abbrev Ev.PEP_CFGERR : Nat := 259
abbrev Ev.PEP_MIR_DROP : Nat := 260
abbrev Ev.SHU_SKIP : Nat := 264
abbrev Ev.SHU_OVERRUN : Nat := 265
abbrev Ev.SHU_REFUSED : Nat := 266
abbrev Ev.SHU_SILL_DROP : Nat := 267
abbrev Ev.SHU_VERIFY_FAIL : Nat := 268
abbrev Ev.LN_LINK : Nat := 288
abbrev Ev.LN_FALLBACK : Nat := 289
abbrev Ev.LN_FAULT : Nat := 290
abbrev Ev.LN_CORRECTED : Nat := 291
abbrev Ev.LN_REVERT : Nat := 292
abbrev Ev.LN_SPARE_START : Nat := 293
abbrev Ev.LN_SPARE_DONE : Nat := 294
abbrev Ev.LN_SPARE_FAIL : Nat := 295
abbrev Ev.LN_JOIN : Nat := 296
abbrev Ev.LN_TRAIN_FAIL : Nat := 297
abbrev Ev.LN_RX_OVERRUN : Nat := 298
abbrev Ev.LN_CFGERR : Nat := 299
abbrev Ev.PWR_STATE : Nat := 320
abbrev Ev.PWR_CAP_LIMIT : Nat := 321
abbrev Ev.PWR_DISAGREE : Nat := 322
abbrev Ev.PWR_RAIL_LOST : Nat := 323
abbrev Ev.PWR_THROTTLE : Nat := 324
abbrev Ev.PWR_THERMTRIP : Nat := 325
abbrev Ev.PWR_HINT_DROP : Nat := 326
abbrev Ev.PWR_WARMUP_TMO : Nat := 327
abbrev Ev.PWR_VDD_UV : Nat := 328
abbrev Ev.AGE_REPLAN : Nat := 330
abbrev Ev.AGE_OP0_RETIRED : Nat := 331
abbrev Ev.AGE_MARGIN_END : Nat := 332
abbrev Ev.AGE_REC_FULL : Nat := 333
abbrev Ev.PWR_CREDIT_OUT : Nat := 334
abbrev Ev.PWR_STATE_DROP : Nat := 335
abbrev Ev.FAB_STATE : Nat := 352
abbrev Ev.FAB_MEMBER : Nat := 353
abbrev Ev.FAB_REFUSED : Nat := 354
abbrev Ev.FAB_TAKEOVER : Nat := 355
abbrev Ev.FAB_MGR_SILENT : Nat := 356
abbrev Ev.FAB_LATE : Nat := 357
abbrev Ev.FAB_PACE : Nat := 358
abbrev Ev.FAB_PACE_CAP : Nat := 359
abbrev Ev.FAB_SHED : Nat := 360
abbrev Ev.FAB_EPOCH : Nat := 361
abbrev Ev.FAB_MSG_BAD : Nat := 362
abbrev Ev.FAB_SPLIT : Nat := 363
abbrev Ev.STK_STATE : Nat := 364
abbrev Ev.STK_REFUSED : Nat := 365
abbrev Ev.STK_HDR_BAD : Nat := 366
abbrev Ev.TEL_IOAM_SKIP : Nat := 384
abbrev Ev.TEL_CNT_DENY : Nat := 385
abbrev Ev.REP_SLICE_START : Nat := 416
abbrev Ev.REP_SLICE_DONE : Nat := 417
abbrev Ev.REP_SLICE_FAIL : Nat := 418
abbrev Ev.REP_SRAM : Nat := 419
abbrev Ev.REP_SRAM_EXHAUSTED : Nat := 420
abbrev Ev.REP_RECOVERY : Nat := 421
abbrev Ev.REP_LANE_RESTORED : Nat := 422
abbrev Ev.REP_LANE_RETEST_FAIL : Nat := 423
abbrev Ev.REP_CSQ_REPAIRED : Nat := 424
abbrev Ev.REP_CSQ_REPAIR_FAIL : Nat := 425

/-- The highest severity of an event: 0 info, 1 warn, 2 error, 3 fatal; an identifier that no chapter defines is info (R388), and
group 47 has the severities of R107. -/
def evSev (id : Nat) : Nat :=
  if id ∈ [3, 4, 5, 65, 67, 68, 70, 71, 72, 75, 82, 85, 94, 97, 98, 100, 101, 103, 104, 107, 113, 115, 137, 161, 162, 176, 177, 180, 182, 193, 197, 198, 227, 229, 230, 233, 235, 256, 258, 260, 264, 265, 267, 268, 289, 292, 293, 294, 296, 297, 298, 322, 324, 326, 327, 331, 333, 335, 355, 357, 359, 360, 362, 366, 385, 416] then 1
  else if id ∈ [69, 73, 74, 80, 81, 83, 86, 89, 91, 93, 95, 102, 105, 106, 112, 114, 116, 136, 160, 179, 181, 192, 194, 195, 196, 199, 200, 225, 226, 228, 231, 232, 236, 237, 259, 266, 290, 295, 299, 321, 323, 328, 332, 354, 356, 361, 363, 365, 418, 420, 423, 425] then 2
  else if id ∈ [325] then 3
  else if 1520 ≤ id ∧ id ≤ 1527 then 1
  else if 1528 ≤ id ∧ id ≤ 1531 then 2
  else if 1532 ≤ id ∧ id ≤ 1535 then 3
  else 0

/-- The event's chapter defines an argument for it (R73, R114, R247 and the event tables). -/
def evArgStated (id : Nat) : Bool :=
  ! decide (id ∈ [3, 4, 65, 67, 68, 69, 70, 71, 72, 73, 74, 75, 88, 89, 90, 91, 93, 94, 96, 97, 98, 99, 100, 101, 102, 103, 104, 105, 106, 107,
    112, 116, 192, 193, 236, 320, 321, 322, 325, 326, 327, 328, 331, 333, 334, 335, 352, 354, 356, 357, 359, 361, 362, 363, 364, 365])

/-- A counter index (R382). -/
def ctIdx (block kind inst : Nat) : Nat := block * 2 ^ 26 + kind * 2 ^ 21 + inst

/-- BLOCK 0, KIND 0. -/
abbrev Ct.TIM_ADJ_REFUSED (i : Nat) : Nat := ctIdx 0 0 i
/-- BLOCK 0, KIND 1. -/
abbrev Ct.TIM_STEP_CNT (i : Nat) : Nat := ctIdx 0 1 i
/-- BLOCK 0, KIND 2. -/
abbrev Ct.CYC_IN_REJECT (i : Nat) : Nat := ctIdx 0 2 i
/-- BLOCK 0, KIND 3. -/
abbrev Ct.CYC_IN_EARLY (i : Nat) : Nat := ctIdx 0 3 i
/-- BLOCK 0, KIND 4. -/
abbrev Ct.CYC_IN_MISS (i : Nat) : Nat := ctIdx 0 4 i
/-- BLOCK 0, KIND 5. -/
abbrev Ct.CYC_REALIGN_CNT (i : Nat) : Nat := ctIdx 0 5 i
/-- BLOCK 0, KIND 6. -/
abbrev Ct.CYC_PT_LATE (i : Nat) : Nat := ctIdx 0 6 i
/-- BLOCK 0, KIND 7. -/
abbrev Ct.CYC_PT_DROP (i : Nat) : Nat := ctIdx 0 7 i
/-- BLOCK 0, KIND 8. -/
abbrev Ct.TVX_RX_DISCARD (i : Nat) : Nat := ctIdx 0 8 i
/-- BLOCK 0, KIND 9. -/
abbrev Ct.CTL_MSEC_DROP (i : Nat) : Nat := ctIdx 0 9 i
/-- BLOCK 0, KIND 10. -/
abbrev Ct.TVX_RX_OOS (i : Nat) : Nat := ctIdx 0 10 i
/-- BLOCK 0, KIND 11. -/
abbrev Ct.TVX_EVT_LATE (i : Nat) : Nat := ctIdx 0 11 i
/-- BLOCK 0, KIND 12. -/
abbrev Ct.TVX_EVT_DROP (i : Nat) : Nat := ctIdx 0 12 i
/-- BLOCK 0, KIND 13. -/
abbrev Ct.CSQ_AT_LATE (i : Nat) : Nat := ctIdx 0 13 i
/-- BLOCK 0, KIND 14. -/
abbrev Ct.CSQ_ECC_CORR (i : Nat) : Nat := ctIdx 0 14 i
/-- BLOCK 0, KIND 15. -/
abbrev Ct.BUF_CELL_CORR_CNT (i : Nat) : Nat := ctIdx 0 15 i
/-- BLOCK 0, KIND 16. -/
abbrev Ct.BUF_DFREE_CNT (i : Nat) : Nat := ctIdx 0 16 i
/-- BLOCK 0, KIND 17. -/
abbrev Ct.BUF_TRUNC_CNT (i : Nat) : Nat := ctIdx 0 17 i
/-- BLOCK 0, KIND 18. -/
abbrev Ct.XFS_MCG_EMPTY_CNT (i : Nat) : Nat := ctIdx 0 18 i
/-- BLOCK 0, KIND 19. -/
abbrev Ct.CLK_STEP_CNT (i : Nat) : Nat := ctIdx 0 19 i
/-- BLOCK 0, KIND 20. -/
abbrev Ct.PWR_STATE_DROP_CNT (i : Nat) : Nat := ctIdx 0 20 i
/-- BLOCK 0, KIND 21. -/
abbrev Ct.FAB_MSG_BAD_CNT (i : Nat) : Nat := ctIdx 0 21 i
/-- BLOCK 0, KIND 22. -/
abbrev Ct.FAB_RELAY_CNT (i : Nat) : Nat := ctIdx 0 22 i
/-- BLOCK 0, KIND 23. -/
abbrev Ct.FAB_LATE_CNT (i : Nat) : Nat := ctIdx 0 23 i
/-- BLOCK 1, KIND 0. -/
abbrev Ct.PRS_CTX_WAIT (i : Nat) : Nat := ctIdx 1 0 i
/-- BLOCK 1, KIND 1. -/
abbrev Ct.PRS_ILLEGAL_CNT (i : Nat) : Nat := ctIdx 1 1 i
/-- BLOCK 1, KIND 2. -/
abbrev Ct.MAI_DROP_CNT (i : Nat) : Nat := ctIdx 1 2 i
/-- BLOCK 1, KIND 3. -/
abbrev Ct.MAI_NODEST_CNT (i : Nat) : Nat := ctIdx 1 3 i
/-- BLOCK 1, KIND 4. -/
abbrev Ct.MA_SWAP_CNT (i : Nat) : Nat := ctIdx 1 4 i
/-- BLOCK 1, KIND 5. -/
abbrev Ct.MAE_DROP_CNT (i : Nat) : Nat := ctIdx 1 5 i
/-- BLOCK 1, KIND 6. -/
abbrev Ct.MAE_EDIT_ERR_CNT (i : Nat) : Nat := ctIdx 1 6 i
/-- BLOCK 1, KIND 7. -/
abbrev Ct.MA_ILLEGAL_CNT (i : Nat) : Nat := ctIdx 1 7 i
/-- BLOCK 1, KIND 8. -/
abbrev Ct.TBL_CMD_COLLIDE_CNT (i : Nat) : Nat := ctIdx 1 8 i
/-- BLOCK 1, KIND 9. -/
abbrev Ct.TBL_LEARN_QDROP_CNT (i : Nat) : Nat := ctIdx 1 9 i
/-- BLOCK 1, KIND 10. -/
abbrev Ct.TBL_BADLOG_LOST_CNT (i : Nat) : Nat := ctIdx 1 10 i
/-- BLOCK 1, KIND 11. -/
abbrev Ct.XFS_STAGE_FULL_CNT (i : Nat) : Nat := ctIdx 1 11 i
/-- BLOCK 1, KIND 12. -/
abbrev Ct.SHP_LATE_CNT (i : Nat) : Nat := ctIdx 1 12 i
/-- BLOCK 1, KIND 13. -/
abbrev Ct.TEL_DIG_REC_CNT (i : Nat) : Nat := ctIdx 1 13 i
/-- BLOCK 1, KIND 14. -/
abbrev Ct.TEL_CNT_DENY_CNT (i : Nat) : Nat := ctIdx 1 14 i
/-- BLOCK 2, KIND 0. -/
abbrev Ct.LN_RX_FRAMES (i : Nat) : Nat := ctIdx 2 0 i
/-- BLOCK 2, KIND 1. -/
abbrev Ct.LN_RX_BYTES (i : Nat) : Nat := ctIdx 2 1 i
/-- BLOCK 2, KIND 2. -/
abbrev Ct.LN_TX_FRAMES (i : Nat) : Nat := ctIdx 2 2 i
/-- BLOCK 2, KIND 3. -/
abbrev Ct.LN_TX_BYTES (i : Nat) : Nat := ctIdx 2 3 i
/-- BLOCK 2, KIND 4. -/
abbrev Ct.LN_RX_FCS_CNT (i : Nat) : Nat := ctIdx 2 4 i
/-- BLOCK 2, KIND 5. -/
abbrev Ct.LN_RX_MAC_ERR_CNT (i : Nat) : Nat := ctIdx 2 5 i
/-- BLOCK 2, KIND 6. -/
abbrev Ct.LN_RX_RUNT_CNT (i : Nat) : Nat := ctIdx 2 6 i
/-- BLOCK 2, KIND 7. -/
abbrev Ct.LN_RX_OVERRUN_CNT (i : Nat) : Nat := ctIdx 2 7 i
/-- BLOCK 2, KIND 8. -/
abbrev Ct.LN_FALLBACK_CNT (i : Nat) : Nat := ctIdx 2 8 i
/-- BLOCK 2, KIND 9. -/
abbrev Ct.INJ_CNT (i : Nat) : Nat := ctIdx 2 9 i
/-- BLOCK 2, KIND 10. -/
abbrev Ct.TBL_LEARN_LIMIT_CNT (i : Nat) : Nat := ctIdx 2 10 i
/-- BLOCK 2, KIND 11. -/
abbrev Ct.BUF_DROP_HDRM_CNT (i : Nat) : Nat := ctIdx 2 11 i
/-- BLOCK 2, KIND 12. -/
abbrev Ct.BUF_DROP_ING_CNT (i : Nat) : Nat := ctIdx 2 12 i
/-- BLOCK 2, KIND 13. -/
abbrev Ct.BUF_DROP_EGR_CNT (i : Nat) : Nat := ctIdx 2 13 i
/-- BLOCK 2, KIND 14. -/
abbrev Ct.BUF_PAUSE_RX_CNT (i : Nat) : Nat := ctIdx 2 14 i
/-- BLOCK 2, KIND 15. -/
abbrev Ct.BUF_PFC_TX_CNT (i : Nat) : Nat := ctIdx 2 15 i
/-- BLOCK 2, KIND 16. -/
abbrev Ct.BUF_PFC_RX_CNT (i : Nat) : Nat := ctIdx 2 16 i
/-- BLOCK 2, KIND 17. -/
abbrev Ct.BUF_CT_CNT (i : Nat) : Nat := ctIdx 2 17 i
/-- BLOCK 2, KIND 18. -/
abbrev Ct.BUF_RX_STOMP_CNT (i : Nat) : Nat := ctIdx 2 18 i
/-- BLOCK 2, KIND 19. -/
abbrev Ct.SHU_DROP_CNT (i : Nat) : Nat := ctIdx 2 19 i
/-- BLOCK 2, KIND 20. -/
abbrev Ct.SPL_PAGE_DENY_CNT (i : Nat) : Nat := ctIdx 2 20 i
/-- BLOCK 2, KIND 21. -/
abbrev Ct.STK_HDR_BAD_CNT (i : Nat) : Nat := ctIdx 2 21 i
/-- BLOCK 2, KIND 22. -/
abbrev Ct.TEL_IOAM_CNT (i : Nat) : Nat := ctIdx 2 22 i
/-- BLOCK 2, KIND 23. -/
abbrev Ct.TEL_IOAM_SKIP_CNT (i : Nat) : Nat := ctIdx 2 23 i
/-- BLOCK 3, KIND 0. -/
abbrev Ct.BUF_BADTAIL_DROP_CNT (i : Nat) : Nat := ctIdx 3 0 i
/-- BLOCK 3, KIND 1. -/
abbrev Ct.BUF_STOMP_CNT (i : Nat) : Nat := ctIdx 3 1 i
/-- BLOCK 3, KIND 2. -/
abbrev Ct.PRS_MALF_CNT (i : Nat) : Nat := ctIdx 3 2 i
/-- BLOCK 4, KIND 0. -/
abbrev Ct.QUE_TX_FRAMES (i : Nat) : Nat := ctIdx 4 0 i
/-- BLOCK 4, KIND 1. -/
abbrev Ct.QUE_TX_BYTES (i : Nat) : Nat := ctIdx 4 1 i
/-- BLOCK 4, KIND 2. -/
abbrev Ct.BUF_ECN_MARK_CNT (i : Nat) : Nat := ctIdx 4 2 i
/-- BLOCK 4, KIND 3. -/
abbrev Ct.BUF_ECN_DROP_CNT (i : Nat) : Nat := ctIdx 4 3 i
/-- BLOCK 4, KIND 4. -/
abbrev Ct.BUF_STUCK_CNT (i : Nat) : Nat := ctIdx 4 4 i
/-- BLOCK 4, KIND 5. -/
abbrev Ct.BUF_QFLUSH_CNT (i : Nat) : Nat := ctIdx 4 5 i
/-- BLOCK 4, KIND 6. -/
abbrev Ct.SPL_UECC_DROP_CNT (i : Nat) : Nat := ctIdx 4 6 i
/-- BLOCK 4, KIND 7. -/
abbrev Ct.SPL_RETIRE_DROP_CNT (i : Nat) : Nat := ctIdx 4 7 i
/-- BLOCK 4, KIND 8. -/
abbrev Ct.QUE_DROP_YEL_CNT (i : Nat) : Nat := ctIdx 4 8 i
/-- BLOCK 4, KIND 9. -/
abbrev Ct.QUE_DROP_RED_CNT (i : Nat) : Nat := ctIdx 4 9 i
/-- BLOCK 4, KIND 10. -/
abbrev Ct.SHU_SKIP_CNT (i : Nat) : Nat := ctIdx 4 10 i
/-- BLOCK 4, KIND 11. -/
abbrev Ct.SHU_HOLD_CNT (i : Nat) : Nat := ctIdx 4 11 i
/-- BLOCK 4, KIND 12. -/
abbrev Ct.SHU_OVERRUN_CNT (i : Nat) : Nat := ctIdx 4 12 i
/-- BLOCK 4, KIND 13. -/
abbrev Ct.QUE_DROP_SILL_CNT (i : Nat) : Nat := ctIdx 4 13 i
/-- BLOCK 4, KIND 14. -/
abbrev Ct.SHU_FRAG_CNT (i : Nat) : Nat := ctIdx 4 14 i
/-- BLOCK 4, KIND 15. -/
abbrev Ct.FAB_SHED_DROP_CNT (i : Nat) : Nat := ctIdx 4 15 i
/-- BLOCK 5, KIND 0. -/
abbrev Ct.LN_REVERT_CNT (i : Nat) : Nat := ctIdx 5 0 i
/-- BLOCK 5, KIND 1. -/
abbrev Ct.LN_FEC_CORR_CNT (i : Nat) : Nat := ctIdx 5 1 i
/-- BLOCK 5, KIND 2. -/
abbrev Ct.LN_FEC_UNCORR_CNT (i : Nat) : Nat := ctIdx 5 2 i
/-- BLOCK 6, KIND 0. -/
abbrev Ct.MTR_GREEN_CNT (i : Nat) : Nat := ctIdx 6 0 i
/-- BLOCK 6, KIND 1. -/
abbrev Ct.MTR_YELLOW_CNT (i : Nat) : Nat := ctIdx 6 1 i
/-- BLOCK 6, KIND 2. -/
abbrev Ct.MTR_RED_CNT (i : Nat) : Nat := ctIdx 6 2 i
/-- BLOCK 7, KIND 0. -/
abbrev Ct.TBL_LEARN_FULL_CNT (i : Nat) : Nat := ctIdx 7 0 i
/-- BLOCK 7, KIND 1. -/
abbrev Ct.TBL_LEARN_CNT (i : Nat) : Nat := ctIdx 7 1 i
/-- BLOCK 7, KIND 2. -/
abbrev Ct.TBL_MOVE_CNT (i : Nat) : Nat := ctIdx 7 2 i
/-- BLOCK 7, KIND 3. -/
abbrev Ct.TBL_AGED_CNT (i : Nat) : Nat := ctIdx 7 3 i
/-- BLOCK 7, KIND 4. -/
abbrev Ct.TBL_BAD_CNT (i : Nat) : Nat := ctIdx 7 4 i
/-- BLOCK 8, KIND 0. -/
abbrev Ct.PEP_LOST_CNT (i : Nat) : Nat := ctIdx 8 0 i
/-- BLOCK 8, KIND 1. -/
abbrev Ct.PEP_MIR_CNT (i : Nat) : Nat := ctIdx 8 1 i
/-- BLOCK 8, KIND 2. -/
abbrev Ct.PEP_MIR_DROP_CNT (i : Nat) : Nat := ctIdx 8 2 i
/-- BLOCK 9, KIND 0. -/
abbrev Ct.SPL_NRR_CNT (i : Nat) : Nat := ctIdx 9 0 i
/-- BLOCK 9, KIND 1. -/
abbrev Ct.SPL_ECC_CORR_CNT (i : Nat) : Nat := ctIdx 9 1 i
/-- BLOCK 9, KIND 2. -/
abbrev Ct.SPL_TRAIN_FORCE_CNT (i : Nat) : Nat := ctIdx 9 2 i
/-- BLOCK 9, KIND 3. -/
abbrev Ct.SPL_SR_ABORT_CNT (i : Nat) : Nat := ctIdx 9 3 i
/-- BLOCK 9, KIND 4. -/
abbrev Ct.SPL_SR_WAKE_CNT (i : Nat) : Nat := ctIdx 9 4 i
/-- BLOCK 9, KIND 5. -/
abbrev Ct.SPL_DFREE_CNT (i : Nat) : Nat := ctIdx 9 5 i
/-- BLOCK 10, KIND 0. -/
abbrev Ct.BUF_DROP_NOCELL_CNT (i : Nat) : Nat := ctIdx 10 0 i
/-- BLOCK 11, KIND 0. -/
abbrev Ct.EVT_CNT (i : Nat) : Nat := ctIdx 11 0 i
/-- BLOCK 12, KIND 0. -/
abbrev Ct.TEL_HIST_BIN (i : Nat) : Nat := ctIdx 12 0 i
/-- BLOCK 12, KIND 1. -/
abbrev Ct.TEL_HIST_SUM (i : Nat) : Nat := ctIdx 12 1 i

/-- An index names a counter only when its BLOCK and KIND are listed and its INSTANCE names something that exists (R382). -/
def ctExists (idx : Nat) : Bool :=
  let b := bitsN idx 31 26
  let k := bitsN idx 25 21
  let i := bitsN idx 20 0
  decide (idx < 2 ^ 32) &&
  match b with
  | 0 => decide (k ≤ 23) && i == 0
  | 1 => decide (k ≤ 14) && decide (i < 32)
  | 2 => decide (k ≤ 23) && decide (i < 1024)
  | 3 => decide (k ≤ 2) && decide (i / 16 < 1024) && decide (i % 16 < if k = 2 then 8 else 9)
  | 4 => decide (k ≤ 15) && decide (i / 32 < 1024) && decide (i % 32 < 20)
  | 5 => decide (k ≤ 2) && decide (i < 1056)
  | 6 => decide (k ≤ 2) && decide (i < 32 * 65536)
  | 7 => decide (k ≤ 4) && decide (i < 32 * 64)
  | 8 => if k = 0 then decide (i < 256) else decide (k ≤ 2) && decide (1 ≤ i) && decide (i < 64)
  | 9 => if k ≤ 2 then decide (i < 128) else decide (k ≤ 5) && decide (i < 4)
  | 10 => k == 0 && decide (i < 4)
  | 11 => k == 0 && decide (i / 64 < 1536) && (decide (i % 64 ≤ 35) || i % 64 == 63)
  | 12 => (k == 0 && decide (i < 32 * 256)) || (k == 1 && decide (i < 32 * 8))
  | _ => false

end Sys2Proof.Machine
end

