-- ==== Sys2Proof/Machine/Ops.lean ====
section
/-! DEFINITION. The operations every unit shares: counting, free values, raising an event, the passing of time, and the queries of
state that several chapters ask. -/

namespace Sys2Proof.Machine

set_option cleanup.letToHave false

/-- A counter's value (R381). -/
def Dev.counter (d : Dev) (idx : Nat) : Word := mget 0 d.counters idx

/-- A counter grows by n modulo 2^64 (R381). -/
def Dev.count (d : Dev) (idx n : Nat) : Dev :=
  { d with counters := mset 0 d.counters idx (d.counter idx + BitVec.ofNat 64 n) }

/-- The free value that the next draw gives (log entry 2). -/
def Dev.freeNow (d : Dev) : Word := Config.freeValue d.freeCtr

/-- A free value has been drawn (log entry 2). -/
def Dev.drawn (d : Dev) : Dev := { d with freeCtr := d.freeCtr + 1 }

/-- The device runs the Precision profile (R15, R24). -/
def Dev.precision (d : Dev) : Bool := d.fbit F.GLB_PROFILE.LOADED [] && d.fbit F.GLB_PROFILE.PROFILE []

/-- The primary sequencer: CSQ_STATUS.PRIMARY (R111). -/
def Dev.primary (d : Dev) : Nat := d.fget F.CSQ_STATUS.PRIMARY []

/-- The index of context c of sequencer sq among the sixteen contexts. -/
def ctxIx (sq c : Nat) : Nat := sq * 8 + c

/-- Context c of sequencer sq. -/
def Dev.ctx (d : Dev) (sq c : Nat) : Ctx := d.csq.ctxs.getD (ctxIx sq c) {}

/-- Context c of sequencer sq changed by f. -/
def Dev.ctxMod (d : Dev) (sq c : Nat) (f : Ctx → Ctx) : Dev :=
  { d with csq := { d.csq with ctxs := lmod d.csq.ctxs (ctxIx sq c) f } }

/-- Session n is open (TVX_SESSION[n].OPEN). -/
def Dev.sessionOpen (d : Dev) (n : Nat) : Bool := decide (n < 8) && d.fbit F.TVX_SESSION.OPEN [n]

/-- What lies behind session n. -/
def Dev.session (d : Dev) (n : Nat) : Session := d.ctl.sessions.getD n {}

/-- Session n changed by f. -/
def Dev.sessionMod (d : Dev) (n : Nat) (f : Session → Session) : Dev :=
  { d with ctl := { d.ctl with sessions := lmod d.ctl.sessions n f } }

/-- The unit of an event raised in slice s (R387). -/
def unitSlice (s : Nat) : Nat := s
/-- The slice of a port (R288). -/
def Dev.portSlice (d : Dev) (p : Nat) : Nat := d.fget F.LN_PORT.SLICE [p]
/-- The MAC slot of a port (R288). -/
def Dev.portSlot (d : Dev) (p : Nat) : Nat := d.fget F.LN_PORT.SLOT [p]
/-- The unit of an event raised by a port: its slice (R387). -/
def Dev.unitPort (d : Dev) (p : Nat) : Nat := d.portSlice p
/-- The unit of an event raised by a lane (R387, R2). -/
def unitLane (n : Nat) : Nat := n / 33
/-- The unit of an event raised by a spill stack (R387). -/
def unitStack (k : Nat) : Nat := 32 + k
/-- The unit of every other source (R387). -/
def unitDev : Nat := 63

/-- An instruction of a context is complete (R72, R83): it is counted, and the next one follows it. -/
def Ctx.complete (x : Ctx) : Ctx := { x with pc := x.pc + 1, icount := x.icount + 1, st := .ready }

/-- A sequencer has retired an instruction now (R110). -/
def Dev.retired (d : Dev) (sq : Nat) : Dev :=
  let now := d.now
  { d with csq := { d.csq with lastRetire := d.csq.lastRetire.set sq now } }

/-- A waiting context whose handler may run makes the implicit call as soon as a record enters its queue (R98): the WAIT's own
address is pushed and its deadline kept. A WAIT on EVENT makes none. -/
def Ctx.wakeToHandler (x : Ctx) : Ctx :=
  match x.wait with
  | some w =>
    if x.st = .waiting ∧ x.hen ∧ x.inh = none ∧ w.cond ≠ 4 ∧ x.rstack.length < 8 ∧ x.aborts = [] ∧ ¬ x.ending ∧ ¬ x.evq.isEmpty then
      { x with st := .ready, rstack := x.pc :: x.rstack, pc := x.handler, inh := some x.rstack.length,
               resumeDeadline := some w.deadline, wait := none }
    else x
  | none => x

/-- A record arrives at a context's event queue (R96): 16 records, a discarded one sets LOST in the next record fetched. -/
def Ctx.pushRec (x : Ctx) (r : EvRec) : Ctx :=
  if x.evq.length < 16 then Ctx.wakeToHandler { x with evq := x.evq ++ [r] } else { x with evLost := true }

/-- A context takes records of the group of event id (R96). -/
def Ctx.selects (x : Ctx) (id : Nat) : Bool := x.groups.getLsbD (id / 32)

/-- A record arrives at a session's event queue (R73, R75): merged with a waiting record of the same ID and ARG, else queued, else
discarded and counted. -/
def Dev.pushSessionRec (d : Dev) (n : Nat) (r : EvRec) : Dev :=
  let s := d.session n
  if s.evq.any (fun x => x.id == r.id && x.arg == r.arg) then
    d.sessionMod n fun s =>
      { s with evq := s.evq.map fun x => if x.id == r.id && x.arg == r.arg then { x with rep := min 255 (x.rep + 1) } else x }
  else if s.evq.length < 512 then
    d.sessionMod n fun s => { s with evq := s.evq ++ [{ r with lost := s.evLost }], evLost := false }
  else (d.sessionMod n fun s => { s with evLost := true }).count (Ct.TVX_EVT_DROP 0) 1

/-- An event's status and HIGH bits, its counter, and the records of the contexts and of the subscribed sessions (R389); what a full
context queue raises in turn is left to raiseSev. -/
def Dev.raiseOne (d : Dev) (id sev arg unit : Nat) : Dev :=
  let g := id / 32
  let i := id % 32
  let d := d.fset F.EVT_STATUS.STATUS [g] (d.fget F.EVT_STATUS.STATUS [g] ||| 2 ^ i)
  let d := if 2 ≤ sev then d.fset F.EVT_STATUS.HIGH [g] (d.fget F.EVT_STATUS.HIGH [g] ||| 2 ^ i) else d
  let d := d.count (Ct.EVT_CNT (64 * id + unit)) 1
  let r : EvRec := { id := id, sev := sev, arg := arg % 2 ^ 18, time := d.fab, raised := d.now }
  let d := { d with csq := { d.csq with ctxs := d.csq.ctxs.map fun x => if x.selects id then x.pushRec r else x } }
  if bitN (d.fget F.EVT_MASK.MASK [g]) i then d
  else (List.range 8).foldl (fun (d : Dev) n =>
    if d.sessionOpen n && bitN (d.fget F.TVX_EVT_SUB.GROUPS [n]) g then d.pushSessionRec n r else d) d

/-- The contexts that would discard a record of event id now: their queue is full (R96). -/
def Dev.fullQueues (d : Dev) (id : Nat) : List Nat :=
  (List.range 16).filter fun i =>
    let x := d.csq.ctxs.getD i {}
    x.selects id && decide (16 ≤ x.evq.length)

/-- An event is raised with a severity of its own (R389); each context record discarded raises event 85, except a discarded record of
event 85 itself (R96). -/
def Dev.raiseSev (d : Dev) (id sev arg unit : Nat) : Dev :=
  let full := d.fullQueues id
  let d := d.raiseOne id sev arg unit
  if id = Ev.CSQ_EVQ_LOST then d
  else full.foldl (fun (d : Dev) i => d.raiseOne Ev.CSQ_EVQ_LOST 1 i unitDev) d

/-- The argument that an event carries: `arg` where its chapter defines one, else a free value (log entry 4). -/
def evArg (id arg : Nat) : Nat := if evArgStated id then arg else Config.eventArg id

/-- An event is raised at the severity its table gives (R389). -/
def Dev.raise (d : Dev) (id arg unit : Nat) : Dev := d.raiseSev id (evSev id) (evArg id arg) unit

/-- An event whose raises are limited to one per interval and unit: an occurrence within the interval is counted and not raised
(R387). -/
def Dev.raiseLimited (d : Dev) (id arg unit interval : Nat) : Dev :=
  let k := 64 * id + unit
  match mget? d.lastEv k with
  | some t => if d.now < t + interval then d.count (Ct.EVT_CNT k) 1
              else ({ d with lastEv := mins d.lastEv k d.now }).raise id arg unit
  | none => ({ d with lastEv := mins d.lastEv k d.now }).raise id arg unit

/-- As raiseLimited, with the limit kept per `sub` of the event (a ring, a port), or for the whole device where `sub` is 0 throughout. -/
def Dev.raiseKeyed (d : Dev) (id sub arg unit interval : Nat) : Dev :=
  let k := 2 ^ 40 + 2 ^ 20 * id + sub
  match mget? d.lastEv k with
  | some t => if d.now < t + interval then d.count (Ct.EVT_CNT (64 * id + unit)) 1
              else ({ d with lastEv := mins d.lastEv k d.now }).raise id arg unit
  | none => ({ d with lastEv := mins d.lastEv k d.now }).raise id arg unit

/-- ALERT_N is driven low: some event has STATUS = 1, HIGH = 1 and MASK = 0, or the crystal has not passed its check for more than
1 s (R76, R390). -/
def Dev.alertLow (d : Dev) : Bool :=
  d.img.xoAlert || (List.range 48).any fun g =>
    (d.fget F.EVT_STATUS.STATUS [g] &&& d.fget F.EVT_STATUS.HIGH [g] &&& (2 ^ 32 - 1 - d.fget F.EVT_MASK.MASK [g])) != 0

/-- How far fabric time runs in dt of device time: at the frequency correction TIM_FREQ.ADJ, in 2^-16 ppb (R31, R32, TIM_FREQ). -/
def Dev.fabRun (d : Dev) (dt : Nat) : Int :=
  (dt : Int) + (dt : Int) * sext 40 (d.fget F.TIM_FREQ.ADJ []) / 65536000000000

/-- The part of a slew's remaining offset that dt of device time removes, at SLEWMAX ppm (R32). -/
def Dev.slewPart (d : Dev) (dt : Nat) : Int :=
  match d.tim.slew with
  | none => 0
  | some r =>
    let q : Nat := dt * atLeast1 (d.fget F.TIM_CTL.SLEWMAX []) / 1000000
    if 0 ≤ r then min r q else max r (-(q : Int))

/-- Device time passes to instant t; time never runs back. Fabric time runs at its corrected rate, with the slew in progress. -/
def Dev.advanceTo (d : Dev) (t : Nat) : Dev :=
  if t ≤ d.now then d
  else
    let dt := t - d.now
    let part := d.slewPart dt
    { d with now := t, fab := ((d.fab : Int) + d.fabRun dt + part).toNat,
             tim := { d.tim with slew := d.tim.slew.map (· - part) } }

/-- A deadline dt after instant t0 has come. -/
def Dev.since (d : Dev) (t0 dt : Nat) : Bool := decide (t0 + dt ≤ d.now)

/-- The device is in Active (R334). -/
def Dev.active (d : Dev) : Bool := d.pwr.dev == .active
/-- The device is in Standby or Active: the control complex, the sequencers and the timing units run. -/
def Dev.up (d : Dev) : Bool := d.pwr.dev == .standby || d.pwr.dev == .active

/-- A software access, which the host can make only in Standby and Active (chapter 01, Blocks outside the packet path). -/
def Dev.sw (d : Dev) (f : Dev → Dev) : Dev := if d.up then f d else d

/-- Profile-independent spelling of an index (s, i) of a per-slice store of k elements. -/
def sx (s k i : Nat) : Nat := s * k + i

end Sys2Proof.Machine
end

