-- ==== Sys2Proof/Machine/Phase.lean ====
section
/-! DEFINITION. What the cycle and the ports answer to every chapter that asks: cycle number and phase (R39, R41, R42), the port of a
MAC slot, port rates and frame times (R287 to R289, R253). -/

namespace Sys2Proof.Machine

set_option cleanup.letToHave false

/-- CYC_STATUS.STATE (R41): 0 STOPPED, 1 WAIT_START, 2 RUN, 3 PARKED, 4 FLYWHEEL. -/
def Dev.cycState (d : Dev) : Nat := d.fget F.CYC_STATUS.STATE []

/-- Phase is valid in RUN and FLYWHEEL (R41). -/
def Dev.phaseValid (d : Dev) : Bool := d.cycState == 2 || d.cycState == 4

/-- The source of the cycle, 0b11 acting as LOCAL (R38): 0 LOCAL, 1 DOMAIN, 2 CYCLE_IN. -/
def Dev.cycSrc (d : Dev) : Nat :=
  let v := d.fget F.CYC_CTL.SRC []
  if v = 3 then 0 else v

/-- Fabric time since the current cycle's start, in 2^-32 ns. -/
def Dev.cycElapsed (d : Dev) : Nat := d.fab * 65536 - d.cyc.base

/-- The phase of an elapsed time in a cycle of period per: the fraction in 2^-32 of the period; with CYCLE_IN it is held at its
maximum past the period (R39, R42). While no interval between real edges gives P_est, the spec states no phase: a free value
(log entry 2). -/
def Dev.phaseOf (d : Dev) (el : Nat) : Nat :=
  if d.cyc.per = 0 then d.freeNow.toNat % 2 ^ 32
  else if d.cycSrc = 2 then min (el * 2 ^ 32 / d.cyc.per) (2 ^ 32 - 1)
  else (el % d.cyc.per) * 2 ^ 32 / d.cyc.per

/-- The phase at this instant (R39, R42). -/
def Dev.phase (d : Dev) : Nat := d.phaseOf d.cycElapsed

/-- The cycle number at this instant (R39, R42); it keeps its last value while the unit is stopped. -/
def Dev.cycNum (d : Dev) : Nat :=
  if d.phaseValid && d.cycSrc != 2 && d.cyc.per != 0 then (d.cyc.num + d.cycElapsed / d.cyc.per) % 2 ^ 48 else d.cyc.num

/-- A cycle number is reached: at or after n in the order of a counter that wraps at 2^48. -/
def cycReached (cur n : Nat) : Bool := decide ((cur + 2 ^ 48 - n % 2 ^ 48) % 2 ^ 48 < 2 ^ 47)

/-- The instant (cycle n, phase φ) has come (R103, R105, R361). -/
def Dev.phaseReached (d : Dev) (n ph : Nat) : Bool :=
  d.phaseValid && (if d.cycNum == n % 2 ^ 48 then decide (ph ≤ d.phase) else cycReached d.cycNum n)

/-- The effective stretch for a base period: at most 13,107, and at most what keeps P within 1 s (R40). -/
def effStretch (period stretch : Nat) : Nat :=
  let s := min stretch 13107
  if period * (65536 + s) ≤ sec 1 * 65536 then s else (sec 1 * 65536) / period - 65536

/-- The base period that CYC_PERIOD holds in a word, in 2^-16 ns, held to 250 ns to 1 s. -/
def periodOf (w : Word) : Nat := max (ns 250) (min (sec 1) (ns (wbits w 47 16) + wbits w 15 0))

/-- The effective period P in 2^-32 ns (R39, R40). -/
def perOf (period stretch : Nat) : Nat := period * (65536 + effStretch period stretch)

/-- The enabled port that owns MAC slot m of slice s (R288). -/
def Dev.slotPort (d : Dev) (s m : Nat) : Option Nat :=
  (findFirst (fun p : Nat × PortSt => d.fbit F.LN_PORT.EN [p.1] && d.portSlice p.1 == s && d.portSlot p.1 == m) d.lane.ports).map (·.1)

/-- What lies behind a port's registers. -/
def Dev.port (d : Dev) (p : Nat) : PortSt := (mget? d.lane.ports p).getD {}

/-- Port p changed by f. -/
def Dev.portMod (d : Dev) (p : Nat) (f : PortSt → PortSt) : Dev :=
  { d with lane := { d.lane with ports := mins d.lane.ports p (f (d.port p)) } }

/-- The ports that have been enabled. -/
def Dev.portList (d : Dev) : List Nat := d.lane.ports.map (·.1)

/-- The number of lanes of a port. -/
def Dev.portLanes (d : Dev) (p : Nat) : Nat := 2 ^ d.fget F.LN_PORT.NLANES [p]

/-- LN_PSTAT[p].STATE (R293). -/
def Dev.portState (d : Dev) (p : Nat) : Nat := d.fget F.LN_PSTAT.STATE [p]

/-- The port is UP (R293). -/
def Dev.portUp (d : Dev) (p : Nat) : Bool := d.portState p == 5

/-- The Ethernet speed of one lane in Gb/s at a lane rate (R287, R289). -/
def laneGbps (rate : Nat) : Nat :=
  match rate with
  | 0 => 10
  | 1 => 25
  | 2 => 50
  | 3 => 100
  | _ => 200

/-- The port's speed in Gb/s at its trained rate (R289). -/
def Dev.portGbps (d : Dev) (p : Nat) : Nat := d.portLanes p * laneGbps (d.fget F.LN_PSTAT.CUR_RATE [p])

/-- The time that n bytes take on a port, in 2^-16 ns, rounded up. -/
def Dev.wireTime (d : Dev) (p n : Nat) : Nat := ceilDiv (n * 8 * 65536) (d.portGbps p)

/-- The port's maximum frame size with FCS; below 64 acts as 64 (LN_PORT.MAXFRAME). -/
def Dev.maxFrame (d : Dev) (p : Nat) : Nat := max 64 (d.fgetB F.LN_PORT.MAXFRAME [p])

/-- Copy i of the admitted frames, changed by f. -/
def Dev.copyMod (d : Dev) (i : Nat) (f : Copy → Copy) : Dev :=
  { d with buf := { d.buf with copies := d.buf.copies.map fun (c : Copy) => if c.id = i then f c else c } }

/-- A port copy of a mirror session (R266): on a unicast queue with MCOPY = 1. -/
def Copy.mirror (c : Copy) : Bool := c.mcopy && decide (c.queue < 16)

/-- Copy i of the admitted frames. -/
def Dev.copy? (d : Dev) (i : Nat) : Option Copy := findFirst (fun (c : Copy) => c.id == i) d.buf.copies

/-- The slice and slot of a port, as register indices. -/
def Dev.pIx (d : Dev) (p : Nat) : List Nat := [d.portSlice p, d.portSlot p]

/-- The domain takes part on this device (R353). -/
def Dev.fabEn (d : Dev) : Bool := d.fbit F.FAB_CTL.EN []

/-- The domain's links: joined UP ports whose join record names FAB_CTL.DOMAIN (R353). -/
def Dev.domainLinks (d : Dev) : List Nat :=
  d.portList.filter fun p =>
    d.fabEn && d.portUp p && d.fbit F.LN_PSTAT.JOINED [p] &&
      ((d.port p).partner.any fun r => r.domain == d.fget F.FAB_CTL.DOMAIN [])

/-- The queue of domain messages: 16 to 31 act as 15 (FAB_CTL.DQ). -/
def Dev.domainQueue (d : Dev) : Nat := min 15 (d.fget F.FAB_CTL.DQ [])

/-- FAB_STATUS.STATE. -/
def Dev.fabState (d : Dev) : Nat := d.fget F.FAB_STATUS.STATE []

/-- The device is in charge of its domain: state MANAGER or ACTING (R361). -/
def Dev.inCharge (d : Dev) : Bool := d.fabState == 3 || d.fabState == 4

/-- ROLE as latched (R352). -/
def Dev.role (d : Dev) : Nat := d.fget F.GLB_PROFILE.ROLE []

/-- The domain engine sets EXTSTATE of every domain link (R359): MASTER (6), and SLAVE (9) on a worker's upstream port. -/
def Dev.showExt (d : Dev) : Dev :=
  let up := d.fget F.FAB_STATUS.UPPORT []
  d.domainLinks.foldl (fun (d : Dev) p => d.fset F.TIM_PORT.EXTSTATE [p] (if ! d.inCharge && d.role == 1 && p == up then 9 else 6)) d

/-- A change of FAB_STATUS.STATE raises event 352 (R372). -/
def Dev.setFabState (d : Dev) (v : Nat) : Dev :=
  if d.fabState = v then d else (d.fset F.FAB_STATUS.STATE [] v).raise Ev.FAB_STATE 0 unitDev

end Sys2Proof.Machine
end

