-- ==== Sys2Proof/Machine/Write.lean ====
section
/-! DEFINITION. A register write, field by field: access codes, change classes, and the quiesce rules of the blocks (R5 to R12, R87 and
each chapter's register rule). What a write starts beyond its fields is added by `Machine/Bus`. -/

namespace Sys2Proof.Machine

set_option cleanup.letToHave false

/-- The bits hi down to lo as a word. -/
def fieldMask (hi lo : Nat) : Word := BitVec.ofNat 64 ((2 ^ (hi + 1 - lo) - 1) <<< lo)

/-- What a register holds after one field of it takes its part of a store of v under the mask m (access codes of chapter 00); qok says
that a quiesce field is accepted. -/
def FieldSpec.store (f : FieldSpec) (qok : Bool) (cur v m : Word) : Word :=
  let b := fieldMask f.hi f.lo &&& m
  let put := (cur &&& ~~~b) ||| (v &&& b)
  match f.acc with
  | .rw | .rws | .wo => if f.cls == .quiesce && ! qok then cur else put
  | .w1c => cur &&& ~~~(v &&& b)
  | .sc => cur ||| (v &&& b)
  | .ro | .ros => cur

/-- A store of v under the mask m would change a quiesce field that is not accepted (R11). -/
def FieldSpec.violates (f : FieldSpec) (qok : Bool) (cur v m : Word) : Bool :=
  f.cls == .quiesce && ! qok && (f.acc == .rw || f.acc == .rws) && ((cur ^^^ v) &&& m &&& fieldMask f.hi f.lo) != 0

/-- A store changes a boundary field. -/
def FieldSpec.pends (f : FieldSpec) (cur v m : Word) : Bool :=
  f.cls == .boundary && (f.acc == .rw || f.acc == .rws) && ((cur ^^^ v) &&& m &&& fieldMask f.hi f.lo) != 0

/-- The port p is held and quiesced (R221). -/
def Dev.portQuiet (d : Dev) (p : Nat) : Bool := d.fbit F.BUF_PORT.HOLD [p] && d.fbit F.BUF_PORT.QUIESCED [p]

/-- The enabled port of a MAC slot is held and quiesced; a slot without a port has nothing that runs. -/
def Dev.slotQuiet (d : Dev) (s m : Nat) : Bool := (d.slotPort s m).all d.portQuiet

/-- The ingress stages of a slice are quiesced (R174). -/
def Dev.maiQuiet (d : Dev) (s : Nat) : Bool := d.fbit F.MAI_CTL.HOLD [s] && d.fbit F.MAI_STATUS.QUIESCED [s]
/-- The egress stages of a slice are quiesced (R174). -/
def Dev.maeQuiet (d : Dev) (s : Nat) : Bool := d.fbit F.MAE_CTL.HOLD [s] && d.fbit F.MAE_STATUS.QUIESCED [s]

/-- The port that a lane belongs to, if one is enabled. -/
def Dev.lanePort (d : Dev) (n : Nat) : Option Nat :=
  findFirst (fun p => d.fbit F.LN_PORT.EN [p] && d.portSlice p == n / 33 && decide (d.portSlot p ≤ n % 33) &&
    decide (n % 33 < d.portSlot p + d.portLanes p)) d.portList

/-- Whether the quiesce fields of a register are accepted now, by the rule of its block (R51, R52, R80, R147, R174, R193, R221, R246,
R269, R285, R316, R330, R350, R371). -/
def Dev.qAccepts (d : Dev) (n : RegName) (ix : List Nat) : Bool :=
  let i := ix.headD 0
  match n with
  | .TIM_CTL | .TIM_PTP_CLOCK | .CLK_CTL => ! d.fbit F.TIM_CTL.SERVO_EN []
  | .TIM_PORT => ! d.fbit F.TIM_PORT.EN ix
  | .CYC_CTL | .CYC_ANCHOR_SEC | .CYC_ANCHOR_NSF | .CYC_IN => d.cycState == 0
  | .CTL_CP => ! d.fbit F.CTL_CP.EN ix
  | .PRS_SCAN_CTL | .PRS_HKEY => d.fbit F.PRS_CTL.HOLD [i] && d.fbit F.PRS_STATUS.QUIESCED [i]
  | .MAI_STAGE | .MAI_LU | .MAI_CARRY => d.maiQuiet i
  | .MAE_STAGE | .MAE_LU => d.maeQuiet i
  | .TBL_DESC_A | .TBL_DESC_B | .TBL_KEY | .TBL_LEARN => d.maiQuiet i && d.maeQuiet i
  | .BUF_SP | .BUF_HDRM | .BUF_CTL => d.fbit F.BUF_CTL.HOLD [] && d.fbit F.BUF_STATUS.QUIESCED []
  | .BUF_PORT | .BUF_IPG_A | .BUF_IPG_B | .BUF_EQ => d.portQuiet i
  | .SPL_CTL => d.fbit F.SPL_CTL.HOLD ix && d.fbit F.SPL_STATUS.QUIESCED ix
  | .SPL_Q => d.portQuiet i && (List.range 16).all fun q => d.fget F.SPL_Q_STAT.PAGES [i, q] == 0
  | .QUE_SCH | .SHU_CTL => d.slotQuiet i (ix.getD 1 0)
  | .PEP_RING => ! d.fbit F.PEP_RING.EN ix
  | .LN_PORT => ! d.fbit F.LN_PORT.EN ix && d.portState i == 0
  | .LN_CFG => (d.lanePort i).all fun p => ! d.portUp p
  | .INJ_CTL | .INJ_MATCH_V | .INJ_MATCH_M | .INJ_SYM => ! d.fbit F.INJ_CTL.EN ix
  | .PWR_CTL | .PWR_RAIL => ! d.fbit F.PWR_CTL.LOOP_EN []
  | .FAB_CTL => ! d.fbit F.FAB_CTL.EN []
  | .FAB_STK_PORTS => ! d.fbit F.FAB_STK.EN []
  | _ => true

/-- Quiesce fields are accepted: by the block's rule, while REG_INIT is applied (R120), and in a slice between the end of DRAIN and the start
of RETURN (R398). -/
def Dev.qOpen (d : Dev) (n : RegName) (ix : List Nat) : Bool :=
  let a := n.addr ix
  d.qAccepts n ix || d.img.boot == .load ||
    (decide (0x4000000000 ≤ a) && d.fget F.GLB_REP_STATUS.STATE [] == 2 && d.rep.cur.any fun r => r.slice == (a - 0x4000000000) / 0x40000000)

/-- A boundary field of this register takes effect at once: its boundary is the cycle boundary and the cycle unit is STOPPED (R52). -/
def Dev.boundaryNow (d : Dev) (n : RegName) : Bool :=
  match n with
  | .CYC_CTL | .CYC_PERIOD | .SHU_SILL | .FAB_CTL => d.cycState == 0
  | .SHU_CTL => d.cycState == 0
  | _ => false

/-- A Q violation: the first is recorded in GLB_QVIOL, a later one sets OVERRUN, event 3 for each (R11, R24). -/
def Dev.qviol (d : Dev) (addr sq c : Nat) : Dev :=
  let d :=
    if d.fbit F.GLB_QVIOL.VALID [] then d.fset F.GLB_QVIOL.OVERRUN [] 1
    else d.fsets [(F.GLB_QVIOL.VALID, 1), (F.GLB_QVIOL.SEQ, sq), (F.GLB_QVIOL.CONTEXT, c), (F.GLB_QVIOL.ADDR, addr / 8 * 8)] []
  d.raise Ev.GLB_QVIOL 0 unitDev

/-- The fields of a register take a store of v under the mask m, each by its access code and class (R10 to R12, R87). -/
def Dev.storeFields (d : Dev) (n : RegName) (ix : List Nat) (v m : Word) : Dev :=
  let fs := n.spec.fields
  let qok := d.qOpen n ix
  let cur := d.rget n ix
  let new := fs.foldl (fun (w : Word) f => f.store qok w v m) cur
  let a := n.addr ix
  let pend := fs.any (fun f => f.pends cur v m) && ! d.boundaryNow n
  let d1 := if pend && (mget? d.inForce a).isNone then { d with inForce := mins d.inForce a cur } else d
  d1.rset n ix new

/-- Whether every quiesce field in a store was accepted (R88). -/
def Dev.storeAccepted (d : Dev) (n : RegName) (ix : List Nat) (v m : Word) : Bool :=
  let qok := d.qOpen n ix
  let cur := d.rget n ix
  ! n.spec.fields.any fun f => f.violates qok cur v m

/-- A register write without what it starts: its fields, and the record of a dropped quiesce field (R11, R12). -/
def Dev.storeReg (d : Dev) (sq c : Nat) (n : RegName) (ix : List Nat) (v m : Word) : Dev :=
  let ok := d.storeAccepted n ix v m
  let d := d.storeFields n ix v m
  if ok then d else d.qviol (n.addr ix) sq c

/-- A whole-word store. -/
def allOnes : Word := BitVec.ofNat 64 (2 ^ 64 - 1)

end Sys2Proof.Machine
end

