-- ==== Sys2Proof/Machine/Recover.lean ====
section
/-! DEFINITION. What other units ask of repair (chapter 18): the recovery log, SRAM soft repair, and the start or queueing of a slice
repair. -/

namespace Sys2Proof.Machine

set_option cleanup.letToHave false

/-- A recovery ends (R411): one record in the ring of GLB_RECOV_LOG, event 421 with its index. `start` is the instant of the
trigger. -/
def Dev.recovered (d : Dev) (kind unit lost gap start : Nat) : Dev :=
  let i := d.fget F.GLB_REP_STATUS.NEXT []
  let d := d.rset .GLB_RECOV_LOG [i] 0
  let d := d.fsets [(F.GLB_RECOV_LOG.VALID, 1), (F.GLB_RECOV_LOG.KIND, kind), (F.GLB_RECOV_LOG.UNIT, unit),
    (F.GLB_RECOV_LOG.LOST, min lost (2 ^ 24 - 1)), (F.GLB_RECOV_LOG.GAP, gap),
    (F.GLB_RECOV_LOG.DURATION, min ((d.now - start) / us 1) (2 ^ 20 - 1))] [i]
  (d.fset F.GLB_REP_STATUS.NEXT [] ((i + 1) % 16)).raise Ev.REP_RECOVERY i unitDev

/-- A failing SRAM row of a macro in power domain `dom` is soft-repaired (R403, R405): eight redundant rows each; the model counts the
rows used per domain's macro number `mac`. `ue` says that the error was uncorrectable, which ends in a recovery record (R411). -/
def Dev.sramRepair (d : Dev) (dom mac : Nat) (ue : Bool) : Dev :=
  let k := dom * 65536 + mac % 65536
  let used := mget 0 d.rep.rows k
  if used < 8 then
    let d := { d with rep := { d.rep with rows := mset 0 d.rep.rows k (used + 1) } }
    let d := d.fset F.GLB_SRAM_REP.DONE [] (min 65535 (d.fget F.GLB_SRAM_REP.DONE [] + 1))
    let d := d.raise Ev.REP_SRAM dom unitDev
    if ue then d.recovered 4 dom 0 0 d.now else d
  else
    let d := { d with rep := { d.rep with rows := mset 0 d.rep.rows k 9 } }
    let d := if used = 8 then d.fset F.GLB_SRAM_REP.EXHAUSTED [] (min 65535 (d.fget F.GLB_SRAM_REP.EXHAUSTED [] + 1)) else d
    d.raise Ev.REP_SRAM_EXHAUSTED dom unitDev

/-- A single-bit error is corrected in a row of a macro (R403): with CE_DAY not 0, more than CE_DAY of them within 24 h repair the row. -/
def Dev.sramCorrected (d : Dev) (dom mac row : Nat) : Dev :=
  let lim := d.fget F.GLB_SRAM_REP.CE_DAY []
  let k := (dom * 65536 + mac % 65536) * 65536 + row % 65536
  let now := d.now
  let l := ((mget? d.rep.corrected k).getD []).filter (fun t => decide (now < t + ms 86400000)) ++ [now]
  if lim = 0 then d
  else if l.length ≤ lim then { d with rep := { d.rep with corrected := mins d.rep.corrected k l } }
  else { d with rep := { d.rep with corrected := mdel d.rep.corrected k } }.sramRepair dom mac false

/-- A milestone is written to the next entry of the record, or event 333 is raised once all 64 are written (R348). -/
def Dev.milestone (d : Dev) (code unit value : Nat) : Dev :=
  if 64 ≤ d.ageRec.length then d.raise Ev.AGE_REC_FULL 0 unitDev
  else { d with ageRec := d.ageRec ++ [BitVec.ofNat 64 (2 ^ 63 + code % 128 * 2 ^ 56 + unit % 65536 * 2 ^ 40 + value % 65536 * 2 ^ 24 + tSec d.fab / 86400 % 2 ^ 24)] }

/-- A milestone of this code and unit has been recorded. -/
def Dev.hasMilestone (d : Dev) (code unit : Nat) : Bool := d.ageRec.any fun w => wbits w 62 56 == code && wbits w 55 40 == unit

/-- The slice is held down: it is being drained or rebuilt, or its repair failed (R398, R399, R402). -/
def Dev.sliceHeld (d : Dev) (s : Nat) : Bool :=
  ((d.fget F.GLB_REP_STATUS.STATE [] == 1 || d.fget F.GLB_REP_STATUS.STATE [] == 2) && d.rep.cur.any fun r => r.slice == s) ||
    (bitN (d.fget F.GLB_REP_FAILED.FAILED []) s && ! (d.fget F.GLB_REP_STATUS.STATE [] == 3 && d.rep.cur.any fun r => r.slice == s))

/-- A bundle waits for the safe point of this store instance, and holds what it must to bring it about (R127). -/
def Dev.patchWaits (d : Dev) (store inst : Nat) : Bool :=
  d.img.staging.any fun (x : Staging) => x.applying && (x.parts.head?.any fun y => y.2.1 == store && y.2.2 == inst)

/-- Frames of a slice that wait unbound in the ingress FIFOs are discarded and counted as overruns (R398). -/
def Dev.discardUnbound (d : Dev) (s : Nat) : Dev :=
  let gone := d.prs.frames.filter fun (f : Frame) => f.loc == .fifo && d.portSlice f.port == s
  let d := gone.foldl (fun (d : Dev) f => d.count (Ct.LN_RX_OVERRUN_CNT f.port) 1) d
  let keep := fun (f : Frame) => ! (f.loc == .fifo && d.portSlice f.port == s) || ! f.ended
  let mark := fun (f : Frame) => if f.loc == .fifo && d.portSlice f.port == s then { f with loc := .gone } else f
  { d with prs := { d.prs with frames := (d.prs.frames.filter keep).map mark },
           rep := { d.rep with cur := d.rep.cur.map fun (r : SliceRepair) => { r with lost := r.lost + gone.length } } }

/-- A slice repair starts (R396 to R398). -/
def Dev.sliceRepairStart (d : Dev) (s : Nat) : Dev :=
  let ups := d.portList.filter fun p => d.portUp p && d.portSlice p == s
  let d := { d with rep := { d.rep with cur := some { slice := s, start := d.now, upPorts := ups }, queue := d.rep.queue.filter (· != s) } }
  let pend := d.rep.queue.foldl (fun a x => a ||| 2 ^ x) 0
  let d := d.fsets [(F.GLB_REP_STATUS.STATE, 1), (F.GLB_REP_STATUS.SLICE, s), (F.GLB_REP_STATUS.PENDING, pend)] []
  (d.discardUnbound s).raise Ev.REP_SLICE_START s (unitSlice s)

/-- A slice repair is asked for (R395): merged with one pending or under way, started when none runs, queued otherwise. -/
def Dev.sliceRepairAsk (d : Dev) (s : Nat) : Dev :=
  if (d.rep.cur.any fun r => r.slice == s) || d.rep.queue.contains s then d
  else if d.rep.cur.isNone then d.sliceRepairStart s
  else
    let d := { d with rep := { d.rep with queue := d.rep.queue ++ [s] } }
    d.fset F.GLB_REP_STATUS.PENDING [] (d.fget F.GLB_REP_STATUS.PENDING [] ||| 2 ^ s)

/-- An uncorrectable error in a slice store (R121, R396): event 95 with the store's index, the row's soft repair, and a slice repair
with GLB_REP_CTL.AUTO = 1. -/
def Dev.sliceStoreError (d : Dev) (s store : Nat) : Dev :=
  let d := (d.raise Ev.IMG_STORE_UECC store (unitSlice s)).sramRepair (66 + s) 0 true
  if d.fbit F.GLB_REP_CTL.AUTO [] then d.sliceRepairAsk s else d

end Sys2Proof.Machine
end

