-- ==== Sys2Proof/Machine/Domains.lean ====
section
/-! DEFINITION. The lanes of the ports, lane groups and the 127 switched power domains (R17, R288, R305, R306, R332, R405). -/

namespace Sys2Proof.Machine

set_option cleanup.letToHave false

/-- The global number of data lane i of a slice; 32 is the spare lane (R2, R288). -/
def laneOf (s i : Nat) : Nat := 33 * s + i

/-- The global numbers of a port's own data lanes (R288). -/
def Dev.portBase (d : Dev) (p : Nat) : List Nat := (List.range (d.portLanes p)).map fun i => laneOf (d.portSlice p) (d.portSlot p + i)

/-- The spare of slice s carries the PCS lane of data lane i (R311). -/
def Dev.replaced (d : Dev) (s i : Nat) : Bool := d.fget F.LN_SPARE.STATE [s] == 3 && d.fget F.LN_SPARE.REPLACED [s] == i

/-- The global numbers of the lanes that carry a port's traffic. -/
def Dev.portLaneList (d : Dev) (p : Nat) : List Nat :=
  let s := d.portSlice p
  (List.range (d.portLanes p)).map fun i => if d.replaced s (d.portSlot p + i) then laneOf s 32 else laneOf s (d.portSlot p + i)

/-- The enabled port whose traffic, or whose own data lane, lane n is. -/
def Dev.portOfLane (d : Dev) (n : Nat) : Option Nat :=
  let s := n / 33
  if n % 33 = 32 then (if d.fget F.LN_SPARE.STATE [s] = 3 then d.lanePort (laneOf s (d.fget F.LN_SPARE.REPLACED [s])) else none) else d.lanePort n

/-- What lies behind a lane's registers. -/
def Dev.laneSt (d : Dev) (n : Nat) : LaneSt := (mget? d.lane.lanes n).getD {}

/-- Lane n changed by f. -/
def Dev.laneMod (d : Dev) (n : Nat) (f : LaneSt → LaneSt) : Dev :=
  { d with lane := { d.lane with lanes := mins d.lane.lanes n (f (d.laneSt n)) } }

/-- The sparing under way in slice s. -/
def Dev.sparingOf (d : Dev) (s : Nat) : Option Sparing := mget? d.lane.sparing s

/-- The ports of the slice are down for its repair: from the end of DRAIN to RETURN, or since the repair failed (R398, R402). -/
def Dev.sliceDown (d : Dev) (s : Nat) : Bool :=
  (d.fget F.GLB_REP_STATUS.STATE [] == 2 && d.rep.cur.any fun r => r.slice == s) ||
    (bitN (d.fget F.GLB_REP_FAILED.FAILED []) s && ! (d.fget F.GLB_REP_STATUS.STATE [] == 3 && d.rep.cur.any fun r => r.slice == s))

/-- The slice is under repair: lane sparing and lane restore wait for its return (R395). -/
def Dev.sliceRepairing (d : Dev) (s : Nat) : Bool := d.rep.cur.any fun r => r.slice == s

/-- The lane is in deep shut (R305). -/
def Dev.deepShut (d : Dev) (n : Nat) : Bool :=
  let s := n / 33
  if n % 33 = 32 then ! d.precision && ! (decide (d.fget F.LN_SPARE.STATE [s] ∈ [1, 2, 3])) && (d.sparingOf s).isNone
  else if d.fbit F.LN_STATUS.FAILED [n] then ! ((d.sparingOf s).any fun x => x.restore && x.target == n % 33)
  else match d.lanePort n with
    | none => true
    | some p => d.portState p == 7 || d.sliceDown s

/-- A lane that keeps its group powered (R306): not in deep shut, with stored coefficients, or a spare reserved for sparing (R21). -/
def Dev.laneHolds (d : Dev) (n : Nat) : Bool :=
  ! d.deepShut n || d.fbit F.LN_STATUS.COEF_VALID [n] || (n % 33 == 32 && ! d.precision)

/-- LN_STATUS.PWR of a lane: its group off or still powering on, deep shut, or on. -/
def Dev.showLane (d : Dev) (n : Nat) : Dev :=
  let g := n / 16
  let v := if ! d.pwr.on.getLsbD g || (mget? d.lane.groupOn g).isSome then 0 else if d.deepShut n then 1 else 2
  let d := d.fset F.LN_STATUS.PWR [n] v
  if v = 2 then d else d.fset F.LN_STATUS.LOCK [n] 0

/-- The lane supplies are present (R420). -/
def Dev.laneRails (d : Dev) : Bool := d.pwr.supplies.contains .laneA && d.pwr.supplies.contains .laneB && d.pwr.supplies.contains .laneC

/-- A lane group is powered on or off as R306 and R332 give. -/
def Dev.refreshGroup (d : Dev) (g : Nat) : Dev :=
  let lanes := rangeFrom (16 * g) 16
  let want := d.active && d.laneRails && lanes.any d.laneHolds
  let on := d.pwr.on.getLsbD g
  let bit := BitVec.ofNat 127 (2 ^ g)
  let now := d.now
  let d : Dev :=
    if want && ! on then { d with pwr := { d.pwr with on := d.pwr.on ||| bit }, lane := { d.lane with groupOn := mins d.lane.groupOn g now } }
    else if ! want && on then { d with pwr := { d.pwr with on := d.pwr.on &&& ~~~bit }, lane := { d.lane with groupOn := mdel d.lane.groupOn g } }
    else d
  lanes.foldl (fun (d : Dev) n => d.showLane n) d

/-- The groups of some lanes are brought up to date. -/
def Dev.refreshLanes (d : Dev) (l : List Nat) : Dev := (l.map (· / 16)).eraseDups.foldl (fun (d : Dev) g => d.refreshGroup g) d

/-- Every lane group is brought up to date. -/
def Dev.refreshAllGroups (d : Dev) : Dev := (List.range 66).foldl (fun (d : Dev) g => d.refreshGroup g) d

/-- The image load has reached step LOAD (R115). -/
def Dev.loadOn (d : Dev) : Bool := d.pwr.dev == .active || (d.pwr.dev == .standby && (d.img.boot == .load || d.img.boot == .standby))

/-- A slice domain is to be fully powered (R332). -/
def Dev.sliceWanted (d : Dev) (s : Nat) : Bool :=
  match d.pwr.dev with
  | .active => (d.portList.any fun p => d.fbit F.LN_PORT.EN [p] && d.portSlice p == s) || d.rep.cur.any fun r => r.slice == s
  | .standby => d.img.boot == .load || d.fbit F.PWR_STATE.WARMING [] || d.rep.cur.any fun r => r.slice == s
  | _ => false

/-- A domain other than a lane group is to be powered (R332). -/
def Dev.domWanted (d : Dev) (i : Nat) : Bool :=
  if i < 66 then d.pwr.on.getLsbD i
  else if i < 98 then d.sliceWanted (i - 66)
  else if i < 114 then d.active || (d.pwr.dev == .standby && decide (i < 102) && d.img.boot != .standby)
  else if i < 118 then d.loadOn
  else if i < 122 then d.active
  else if i < 126 then d.loadOn
  else d.up

/-- A row that the self-test of a domain finds failing is repaired, or its macro is exhausted (R405). -/
def Dev.bistRow (d : Dev) (k : Nat) : Dev :=
  let used := mget 0 d.rep.rows k
  if used < 8 then { d with rep := { d.rep with rows := mset 0 d.rep.rows k (used + 1) } }
  else
    let d : Dev := { d with rep := { d.rep with rows := mset 0 d.rep.rows k 9 } }
    let d := if used = 8 then d.fset F.GLB_SRAM_REP.EXHAUSTED [] (min 65535 (d.fget F.GLB_SRAM_REP.EXHAUSTED [] + 1)) else d
    d.raise Ev.REP_SRAM_EXHAUSTED (k / 65536) unitDev

/-- The domains are switched as the state and the configuration require (R332). A domain that goes off loses its soft repairs; a slice in
retention keeps them. The self-test of a domain that was off finds the failing rows of `bad`, domain × 65,536 + macro (R333, R405). -/
def Dev.refreshDomains (d : Dev) (bad : List Nat) : Dev :=
  let set := fun (p : Nat → Bool) => (List.range 127).foldl (fun (b : BitVec 127) i => if p i then b ||| BitVec.ofNat 127 (2 ^ i) else b) 0
  let new := set fun i => d.domWanted i
  let old := d.pwr.tested
  let tested := new ||| (old &&& set fun i => decide (66 ≤ i) && decide (i < 98) && d.up)
  let rows := d.rep.rows.filter fun x => tested.getLsbD (x.1 / 65536)
  let d : Dev := { d with pwr := { d.pwr with on := new, tested := tested }, rep := { d.rep with rows := rows, corrected := d.rep.corrected.filter fun x => tested.getLsbD (x.1 / 4294967296) } }
  bad.foldl (fun (d : Dev) k => if new.getLsbD (k / 65536) && ! old.getLsbD (k / 65536) then d.bistRow k else d) d

end Sys2Proof.Machine
end

