-- ==== Sys2Proof/Machine/Hints.lean ====
section
/-! DEFINITION. Power hints (R343, R49, R106), swap triggers (R163, R164) and the frames that the device itself originates. -/

namespace Sys2Proof.Machine

set_option cleanup.letToHave false

/-- The fabric time, in 2^-16 ns, of phase ph in cycle n, with the period in force (R39). -/
def Dev.phaseTime (d : Dev) (n ph : Nat) : Nat :=
  (d.cyc.base + ((n + 2 ^ 48 - d.cyc.num) % 2 ^ 48) * d.cyc.per + ph * d.cyc.per / 2 ^ 32) / 65536

/-- The cycle of the next occurrence of a phase; none while phase is invalid (R106). -/
def Dev.nextOccurrence (d : Dev) (ph : Nat) : Option Nat :=
  if d.phaseValid then some (if d.phase < ph then d.cycNum else (d.cycNum + 1) % 2 ^ 48) else none

/-- PWR_STATUS.HINT shows whether a hint is active. -/
def Dev.showHints (d : Dev) : Dev := d.fset F.PWR_STATUS.HINT [] (if d.pwr.hints.any (·.stop.isSome) then 1 else 0)

/-- A hint whose start is nearer than its class's LEAD takes effect at once (R343). -/
def Dev.hintStep (d : Dev) (h : Hint) : Hint :=
  match h.stop, h.cyc with
  | none, some n =>
    let t := d.phaseTime n h.phase
    if t ≤ d.fab + us (d.fgetB F.PWR_HCLASS.LEAD [h.cls]) then { h with stop := some (t + h.len * d.cyc.per / 2 ^ 40) } else h
  | _, _ => h

/-- A hint arrives at the power controller: length 0 is ignored, a 17th is discarded with event 326 (R343). -/
def Dev.hintPass (d : Dev) (h : Hint) : Dev :=
  if h.len = 0 then d
  else if 16 ≤ d.pwr.hints.length then d.raise Ev.PWR_HINT_DROP 0 unitDev
  else Dev.showHints { d with pwr := { d.pwr with hints := d.pwr.hints ++ [d.hintStep h] } }

/-- A hint that starts now (R49, R106). -/
def Dev.hintNow (d : Dev) (cls len : Nat) : Dev :=
  d.hintPass { cls := cls, cyc := some d.cycNum, phase := d.phase, len := len, stop := some (d.fab + len * d.cyc.per / 2 ^ 40) }

/-- A slice's domain is fully powered: domain 66 + s (R332). -/
def Dev.sliceOn (d : Dev) (s : Nat) : Bool := d.pwr.on.getLsbD (66 + s)

/-- A slice that is neither quiesced, drained nor unpowered (R164). -/
def Dev.sliceRunning (d : Dev) (s : Nat) : Bool :=
  d.sliceOn s && ! d.fbit F.MAI_CTL.HOLD [s] && ! (d.rep.cur.any fun r => r.slice == s)

/-- A trigger of group g reaches a slice: it is counted (R163) and waits for the slice's next boundary; a slice that is not running
takes the running slices' state when it next binds a frame (R164). -/
def Dev.swapReach (d : Dev) (s g : Nat) : Dev :=
  let k := s * 64 + g
  let d1 := d.count (Ct.MA_SWAP_CNT s) 1
  { d1 with mat := { d1.mat with
      swaps := mins d1.mat.swaps k ((mget? d1.mat.swaps k).getD 0 + 1),
      needSash := if d.sliceRunning s then d1.mat.needSash else if k ∈ d1.mat.needSash then d1.mat.needSash else d1.mat.needSash ++ [k] } }

/-- A trigger that reaches every slice: a phase-table entry, an epoch or a SCOPE = 1 write; event 163 once, by the device (R163). -/
def Dev.swapAll (d : Dev) (g : Nat) : Dev :=
  ((List.range 32).foldl (fun (d : Dev) s => d.swapReach s g) d).raise Ev.MA_SWAP g unitDev

/-- A trigger of one slice: a SCOPE = 0 write; event 163 by the slice (R163). -/
def Dev.swapOne (d : Dev) (s g : Nat) : Dev := (d.swapReach s g).raise Ev.MA_SWAP g (unitSlice s)

/-- A frame that the device originates joins an egress queue of a port (R28, R357). -/
def Dev.originate (d : Dev) (p q : Nat) (bytes : List Byte) : Dev :=
  let c : Copy := { id := d.buf.nextCopy, inPort := p, port := p, queue := q, cellsDone := true, ended := true,
                    len := some (max 64 (bytes.length + 4)), charged := 0, bytes := bytes, seg := .head, enqueued := true,
                    domMsg := true }
  { d with buf := { d.buf with copies := d.buf.copies ++ [c], nextCopy := d.buf.nextCopy + 1 } }

end Sys2Proof.Machine
end

