-- ==== Sys2Proof/Machine/Shutter.lean ====
section
/-! DEFINITION. Shutter lists, windows and sills (chapter 12): the mask in force, the windows of a queue, the sill spans and the
windows skipped, the test of R276, and the fragment point of R281. -/

namespace Sys2Proof.Machine

set_option cleanup.letToHave false

/-- The key of MAC slot m of slice s among the device's MAC slots. -/
def slotKey (s m : Nat) : Nat := s * 32 + m

/-- The key of a port's MAC slot. -/
def Dev.portKey (d : Dev) (p : Nat) : Nat := slotKey (d.portSlice p) (d.portSlot p)

/-- Entry n of the active shutter list of a MAC slot (R273). -/
def Dev.shuActive (d : Dev) (k n : Nat) : Word := mget 0 d.shu.active (k * 256 + n)

/-- The length of the active list of a MAC slot (R273). -/
def Dev.shuLen (d : Dev) (k : Nat) : Nat := min 256 (mget 0 d.shu.activeLen k)

/-- The active list as steps of (PHASE, MASK), entries of equal phase represented by the one of highest index (R272). -/
def Dev.shuSteps (d : Dev) (k : Nat) : List (Nat × Nat) :=
  (List.range (d.shuLen k)).foldr (fun n acc =>
    let w := d.shuActive k n
    let ph := wbits w 31 0
    match acc with
    | (ph', m') :: _ => if ph = ph' then acc else (ph, wbits w 51 32) :: (ph', m') :: acc.tail
    | [] => [(ph, wbits w 51 32)]) []

/-- The mask of the step with the greatest phase not above ph; below the first step, that of the last (R272). -/
def stepMask (steps : List (Nat × Nat)) (ph : Nat) : Nat :=
  match (steps.filter fun x => decide (x.1 ≤ ph)).getLast? with
  | some x => x.2
  | none => (steps.getLast?.map (·.2)).getD 0xFFFFF

/-- The windows of queue q in a list of steps: opening phase and span of phase, where the queue has a closing (R272). -/
def windows (steps : List (Nat × Nat)) (q : Nat) : List (Nat × Nat) :=
  let n := steps.length
  let bit := fun i => bitN ((steps.getD (i % n) (0, 0)).2) q
  let ph := fun i => (steps.getD (i % n) (0, 0)).1
  if n = 0 ∨ (List.range n).all bit then []
  else (List.range n).filterMap fun i =>
    if bit i && ! bit (i + n - 1) then
      match findFirst (fun j => ! bit (i + j)) (rangeFrom 1 n) with
      | some j => some (ph i, (ph (i + j) + 2 ^ 32 - ph i) % 2 ^ 32)
      | none => none
    else none

/-- The phase ph lies in the window (R272). -/
def inWindow (w : Nat × Nat) (ph : Nat) : Bool := decide ((ph + 2 ^ 32 - w.1) % 2 ^ 32 < w.2)

/-- Queue q never closes under these steps (R272). -/
def neverCloses (steps : List (Nat × Nat)) (q : Nat) : Bool := steps.all fun x => bitN x.2 q

/-- The window of queue q at opening phase o of MAC slot k is skipped (R275). -/
def Dev.skipped (d : Dev) (k q o : Nat) : Bool := d.shu.skips.any fun x => x.1 == k * 32 + q && x.2 == o

/-- The mask in force from the active list at a phase, skipped windows taken as closed (R272, R275). -/
def Dev.listMask (d : Dev) (k ph : Nat) : Nat :=
  let steps := d.shuSteps k
  let raw := stepMask steps ph
  (List.range 20).foldl (fun m q =>
    if bitN raw q && ! ((windows steps q).any fun w => inWindow w ph && d.skipped k q w.1) then m ||| 2 ^ q else m) 0

/-- The mask that the cycle gives the port on MAC slot m of slice s now: all open without a list, PARKMASK while phase is invalid
(R271, R283). -/
def Dev.slotMask (d : Dev) (s m : Nat) : Nat :=
  if ! d.fbitB F.SHU_CTL.EN [s, m] then 0xFFFFF
  else if d.shuLen (slotKey s m) = 0 then 0xFFFFF
  else if ! d.phaseValid then d.fget F.SHU_CTL.PARKMASK [s, m]
  else d.listMask (slotKey s m) d.phase

/-- On a domain link, the queue of domain messages is open in every mask (R357). -/
def Dev.portMask (d : Dev) (p : Nat) : Nat :=
  let m := d.slotMask (d.portSlice p) (d.portSlot p)
  if p ∈ d.domainLinks then m ||| 2 ^ d.domainQueue else m

/-- Queue q of the port is preemptable and preemption is active (R274, R280, R357). -/
def Dev.preemptable (d : Dev) (p q : Nat) : Bool :=
  d.fget F.SHU_STAT.PSTATE (d.pIx p) == 2 && bitN (d.fget F.SHU_CTL.PMASK (d.pIx p)) q &&
    ! (decide (p ∈ d.domainLinks) && q == d.domainQueue)

/-- The smallest fragment with its preamble and gap, in bytes (R274, R281). -/
def Dev.minFragment (d : Dev) (p : Nat) : Nat := 64 * (1 + d.fget F.SHU_CTL.ADDFRAG (d.pIx p))

/-- The charged length of a frame of n bytes on a port (R253): OVH is signed. -/
def Dev.chargedLen (d : Dev) (p n : Nat) : Nat := ((n : Int) + sext 8 (d.fgetB F.QUE_PORT.OVH (d.pIx p))).toNat

/-- The sill of a queue in bytes on the wire (R274). -/
def Dev.sillBytes (d : Dev) (p q : Nat) : Nat :=
  if d.preemptable p q then d.minFragment p + 20
  else
    let l := if d.fbitB F.SHU_SILL.PROG (d.pIx p ++ [q]) then max 64 (d.fgetB F.SHU_SILL.SILL_LEN (d.pIx p ++ [q])) else d.maxFrame p
    d.chargedLen p l

/-- The span of a sill: ceil(sill × 2^32 ÷ P), at most 0xFFFF_FFFF (R274). -/
def Dev.sillSpan (d : Dev) (p q : Nat) : Nat :=
  if d.cyc.per = 0 ∨ d.portGbps p = 0 then 2 ^ 32 - 1
  else min (2 ^ 32 - 1) (ceilDiv (d.sillBytes p q * 8 * 2 ^ 32 * 2 ^ 32) (d.portGbps p * d.cyc.per))

/-- Whether the port's shutters act on queue q now. -/
def Dev.shuttered (d : Dev) (p : Nat) : Bool :=
  d.fbitB F.SHU_CTL.EN (d.pIx p) && d.shuLen (d.portKey p) != 0

/-- One queue of a recomputation (R275): the windows shorter than the span are skipped, a window that is open now excepted; event
264 for each window newly skipped. -/
def Dev.recomputeQueue (d : Dev) (p q : Nat) : Dev :=
  let k := d.portKey p
  let span := d.sillSpan p q
  let d1 := d.fset F.SHU_SILL.SPAN (d.pIx p ++ [q]) span
  let ws := windows (d.shuSteps k) q
  let isOpen := fun (w : Nat × Nat) => d.phaseValid && inWindow w d.phase && bitN (d.fget F.SHU_STAT.OPEN (d.pIx p)) q
  let skip := ws.filter fun w => decide (w.2 < span) && ! isOpen w
  let fresh := skip.filter fun w => ! d.skipped k q w.1
  let d2 := { d1 with shu := { d1.shu with
    skips := (d1.shu.skips.filter fun x => x.1 != k * 32 + q) ++ skip.map fun w => (k * 32 + q, w.1) } }
  let d3 := fresh.foldl (fun (d : Dev) _ => d.raiseLimited Ev.SHU_SKIP (32 * p + q) (d.unitPort p) (ms 1)) d2
  let put := fun (d : Dev) (f : Fld) (b : Bool) =>
    let old := d.fget f (d.pIx p)
    d.fset f (d.pIx p) (if b then old ||| 2 ^ q else old &&& (2 ^ 20 - 1 - 2 ^ q))
  put (put d3 F.SHU_STAT.SKIP (! skip.isEmpty)) F.SHU_STAT.SHUTOUT (! ws.isEmpty && skip.length == ws.length)

/-- The recomputation of every span of a port (R274, R275). -/
def Dev.recomputePort (d : Dev) (p : Nat) : Dev := (List.range 20).foldl (fun (d : Dev) q => d.recomputeQueue p q) d

/-- The recomputation of every port's sills (R40, R275). -/
def Dev.recomputeSills (d : Dev) : Dev := d.portList.foldl (fun (d : Dev) p => d.recomputePort p) d

/-- The openings that skips suppress are counted once a cycle, as phase ph reaches them (R275). -/
def Dev.countSkips (d : Dev) (p ph : Nat) : Dev :=
  let due := d.shu.skips.filter fun x => x.1 / 32 == d.portKey p && decide (x.2 ≤ ph) && ! d.shu.counted.contains x
  let d := due.foldl (fun (d : Dev) x => d.count (Ct.SHU_SKIP_CNT (32 * p + x.1 % 32)) 1) d
  { d with shu := { d.shu with counted := d.shu.counted ++ due } }

/-- Preemption of a port that is UP starts: off, verifying, or active at once (R280). -/
def Dev.preemptStart (d : Dev) (p : Nat) : Dev :=
  let ix := d.pIx p
  if ! d.fbit F.SHU_CTL.PREEMPT ix then d.fset F.SHU_STAT.PSTATE ix 0
  else if d.fbit F.SHU_CTL.VERIFY ix then
    let now := d.now
    Dev.fset { d with shu := { d.shu with verifyAt := mins d.shu.verifyAt p now } } F.SHU_STAT.PSTATE ix 1
  else d.fset F.SHU_STAT.PSTATE ix 2

/-- A copy that the port is sending as an express frame (R278). -/
def Dev.sending (d : Dev) (p : Nat) : Option Copy :=
  findFirst (fun c : Copy => c.port == p && c.started && ! c.suspended) d.buf.copies

/-- The mask in force changes to m (R272): an express frame still being sent at its queue's closing is an overrun (R278), counted
once; a frame that started while the list was parked is not one (R283). -/
def Dev.setMask (d : Dev) (p m : Nat) : Dev :=
  let ix := d.pIx p
  let old := d.fget F.SHU_STAT.OPEN ix
  let d := match d.sending p with
    | some c =>
      if bitN old c.queue && ! bitN m c.queue && ! (d.preemptable p c.queue && ! c.mirror) && ! c.overrun && d.phaseValid && ! d.fbit F.SHU_STAT.PARKED ix then
        let d := d.count (Ct.SHU_OVERRUN_CNT (32 * p + c.queue)) 1
        let d := d.raiseLimited Ev.SHU_OVERRUN (32 * p + c.queue) (d.unitPort p) (ms 1)
        d.copyMod c.id fun x => { x with overrun := true }
      else d
    | none => d
  let d := d.fset F.SHU_STAT.OPEN ix m
  let d := d.fset F.SHU_STAT.PARKED ix (if d.phaseValid then 0 else 1)
  { d with shu := { d.shu with heldIn := d.shu.heldIn.filter fun x => ! (x.1 / 32 == p && ! bitN m (x.1 % 32)) } }

/-- Every port's mask is brought to what the cycle gives now. -/
def Dev.refreshMasks (d : Dev) : Dev := d.portList.foldl (fun (d : Dev) p => d.setMask p (d.portMask p)) d

/-- The period in force after the current cycle, as far as it is known (R276). -/
def Dev.nextPer (d : Dev) : Nat :=
  match d.cyc.change with
  | some c => if c.eff = (d.cyc.num + 1) % 2 ^ 48 then perOf c.period c.stretch else d.cyc.per
  | none => if (mget? d.inForce (RegName.addr .CYC_PERIOD [])).isSome && d.cycSrc == 0 then perOf (periodOf (d.rget .CYC_PERIOD [])) (d.fget F.CYC_PERIOD.STRETCH []) else d.cyc.per

/-- The time left until queue q of the port closes, in 2^-16 ns; none where it has no closing (R276, R283). -/
def Dev.timeLeft (d : Dev) (p q : Nat) : Option Nat :=
  let steps := d.shuSteps (d.portKey p)
  if ! d.shuttered p || ! d.phaseValid || neverCloses steps q || (decide (p ∈ d.domainLinks) && q == d.domainQueue) then none
  else
    let ph := d.phase
    match findFirst (fun w => inWindow w ph) (windows steps q) with
    | none => some 0
    | some w =>
      let left := w.2 - (ph + 2 ^ 32 - w.1) % 2 ^ 32
      let here := min left (2 ^ 32 - ph)
      some ((here * d.cyc.per + (left - here) * d.nextPer) / 2 ^ 48)

/-- The bytes of a copy still to be sent. -/
def Copy.rest (c : Copy) (n : Nat) : Nat := n - c.sentBytes

/-- The shutter test of R276 for the head copy of a queue. -/
def Dev.shutterAllows (d : Dev) (c : Copy) : Bool :=
  bitN (d.portMask c.port) c.queue &&
  match d.timeLeft c.port c.queue with
  | none => true
  | some left =>
    let sill := d.wireTime c.port (d.sillBytes c.port c.queue)
    match c.len with
    | some n => decide (d.wireTime c.port (d.chargedLen c.port (c.rest n)) ≤ left) || (d.preemptable c.port c.queue && ! c.mirror && decide (sill ≤ left))
    | none => decide (sill ≤ left)

/-- The frame data of the fragment that R281 sends of `rest` bytes with `left` time: the largest multiple of 8 B that, with its
4 B mCRC, preamble and gap, ends by the closing, holds a minimum fragment, and leaves 64 B. -/
def Dev.fragmentBytes (d : Dev) (p rest left : Nat) : Option Nat :=
  let fits := left * d.portGbps p / (8 * 65536)
  let a := if fits < 24 then 0 else fits - 24
  let n := min a (rest - 64) / 8 * 8
  if d.minFragment p ≤ n + 4 ∧ 0 < n ∧ n + 64 ≤ rest then some n else none

end Sys2Proof.Machine
end

