-- ==== Sys2Proof/Machine/FabMsg.lean ====
section
/-! DEFINITION. Domain messages sent (R354 to R357), the deficit and its report (R364), and the announcement of a period change
(R360, R365). -/

namespace Sys2Proof.Machine

set_option cleanup.letToHave false

/-- The device's own unique identifier (R24). -/
def Dev.uid (d : Dev) : Nat := d.fuses.uid.toNat

/-- CTL_MAC[k]: at a cold restart 0x02 or 0x06 and GLB_UID[39:0] (R55), as set up in the register by the restart. -/
def Dev.ctlMac (d : Dev) (k : Nat) : Nat := d.fget F.CTL_MAC.ADDR [k]

/-- The payload LEN that a message type requires, given its payload (R354). -/
def domLenOk (typ len : Nat) (payload : List Byte) : Bool :=
  match typ with
  | 1 => len == 8
  | 2 => len == 8 + 12 * beNat (slice payload 2 2) && decide (beNat (slice payload 2 2) ≤ 64)
  | 3 => len == 40
  | 4 => len == 24
  | 5 => len == 16
  | 6 => len == 16
  | 7 => len == 8
  | _ => false

/-- The Ethernet frame of a domain message, without its FCS (R354). -/
def Dev.domFrame (d : Dev) (m : DomMsg) : List Byte :=
  beBytes 6 0x034C58000002 ++ beBytes 6 (d.ctlMac 0) ++ beBytes 2 0x8100 ++ beBytes 2 0xE000 ++ beBytes 2 0x88B6 ++
    [BitVec.ofNat 8 (16 + m.typ), BitVec.ofNat 8 (m.hops * 16 + if m.tomgr then 8 else 0)] ++
    beBytes 2 (d.fget F.FAB_CTL.DOMAIN []) ++ beBytes 8 m.origin ++ beBytes 2 m.term ++ beBytes 2 m.payload.length ++
    beBytes 4 m.seq ++ beBytes 4 0 ++ m.payload

/-- A domain message goes out through queue DQ of the links named (R357). -/
def Dev.domOut (d : Dev) (m : DomMsg) : Dev :=
  let d := { d with fabric := { d.fabric with sent := m :: d.fabric.sent } }
  m.ports.foldl (fun (d : Dev) p => d.originate p d.domainQueue (d.domFrame m)) d

/-- The SEQ of the next message that the device originates (R356). -/
def Dev.fabSeq (d : Dev) : Nat := ((Config.freeValue d.fabric.seqDraw).toNat + d.fabric.seq) % 2 ^ 32

/-- The device originates a domain message; none is sent until 100 ms after the release of its reset (R356). -/
def Dev.domSend (d : Dev) (typ : Nat) (tomgr : Bool) (payload : List Byte) : Dev :=
  if d.since d.fabric.releasedAt (ms 100) then
    let m : DomMsg := { typ := typ, hops := 15, tomgr := tomgr, origin := d.uid, term := d.fget F.FAB_STATUS.TERM [],
                        seq := d.fabSeq, ports := d.domainLinks, payload := payload }
    Dev.domOut { d with fabric := { d.fabric with seq := d.fabric.seq + 1 } } m
  else d

/-- Whether PWR_CTL.MODE or the domain size makes the device run FIXED (R344). -/
def Dev.fixedMode (d : Dev) : Bool := d.fbit F.PWR_STATUS.FORCED_FIXED [] || d.fgetB F.PWR_CTL.MODE [] == 1

/-- The payload of HELLO (R354). -/
def Dev.helloPayload (d : Dev) : List Byte :=
  [BitVec.ofNat 8 (if d.precision then 1 else 0), BitVec.ofNat 8 (d.fget F.FAB_CTL.DEPUTY_PRI []),
   BitVec.ofNat 8 (if d.fixedMode then 1 else 0)] ++ List.replicate 5 0

/-- The member numbers present, in rising order (manager's view). -/
def Dev.memberNums (d : Dev) : List Nat := (List.range 256).filter fun n => d.fbit F.FAB_MEMBER.VALID [n]

/-- The member number of the deputy, 0 for none: the highest nonzero DEPUTY_PRI, the lowest UID on a tie (R362). -/
def Dev.deputyNum (d : Dev) : Nat :=
  let best := d.fabric.members.foldl (fun (b : Option Member) m =>
    if m.pri = 0 then b
    else match b with
      | none => some m
      | some x => if x.pri < m.pri ∨ (x.pri = m.pri ∧ m.uid < x.uid) then some m else b) none
  (best.map (·.num)).getD 0

/-- One entry of a ROSTER (R354). -/
def Dev.rosterEntry (d : Dev) (n : Nat) : List Byte :=
  beBytes 8 (d.fget F.FAB_MEMBER_UID.UID [n]) ++ [BitVec.ofNat 8 n,
    BitVec.ofNat 8 (d.fget F.FAB_MEMBER.PROFILE [n] + 2 * d.fget F.FAB_MEMBER.FIXED [n])] ++ beBytes 2 0

/-- The manager sends ROSTER: as many messages as 64 entries each need (R354, R358). -/
def Dev.rosterSend (d : Dev) : Dev :=
  let ns := d.memberNums
  let chunks := (List.range (ceilDiv (max 1 ns.length) 64)).map fun i => (64 * i, slice' ns (64 * i))
  let d := chunks.foldl (fun (d : Dev) c =>
    d.domSend 2 false (beBytes 2 c.1 ++ beBytes 2 c.2.length ++ beBytes 2 ns.length ++ beBytes 1 d.deputyNum ++ beBytes 1 0 ++
      c.2.flatMap d.rosterEntry)) d
  { d with fabric := { d.fabric with lastRoster := d.now, rosterDue := false } }
where
  slice' (l : List Nat) (o : Nat) : List Nat := (l.drop o).take 64

/-- The boundary at which a change sent now takes effect: m + 2 when two periods cover LEAD, else the first that does (R360). -/
def Dev.effNum (d : Dev) : Nat :=
  let lead := us (atLeast1 (d.fget F.FAB_CTL.LEAD [])) * 65536
  let j := if d.cyc.per = 0 ∨ lead ≤ 2 * d.cyc.per then 2 else ceilDiv lead d.cyc.per
  (d.cycNum + j) % 2 ^ 48

/-- The payload of CYCLE: the base, its number, the period and stretch, and the boundary at which they take effect (R354, R360). -/
def Dev.cyclePayload (d : Dev) (period stretch eff : Nat) : List Byte :=
  let b := d.cyc.gbase / 65536
  beBytes 6 (tSec b) ++ beBytes 4 (tNs b) ++ beBytes 2 (tFrac b) ++ beBytes 6 d.cyc.gnum ++ beBytes 4 (period / 65536) ++
    beBytes 2 (period % 65536) ++ beBytes 2 stretch ++ beBytes 6 eff ++ beBytes 1 (if d.cycSrc = 2 then 2 else 0) ++
    beBytes 1 (d.fgetB F.FAB_CTL.POLICY []) ++ beBytes 6 0

/-- The device in charge sends CYCLE (R360); with CYCLE_IN, the last edge as base and P_est as period, in effect at that boundary. -/
def Dev.cycleSend (d : Dev) : Dev :=
  let d1 :=
    if d.cycSrc = 2 then d.domSend 3 false (d.cyclePayload (d.cyc.per / 65536) 0 d.cyc.gnum)
    else match d.cyc.change with
      | some c => d.domSend 3 false (d.cyclePayload c.period c.stretch c.eff)
      | none => d.domSend 3 false (d.cyclePayload (periodOf (d.rforce .CYC_PERIOD [])) (d.fgetB F.CYC_PERIOD.STRETCH []) d.cyc.gnum)
  { d1 with fabric := { d1.fabric with lastCycleTx := some d.now } }

/-- The device in charge announces a period and stretch: they take effect everywhere at one boundary (R40, R360). -/
def Dev.announce (d : Dev) (period stretch : Nat) : Dev :=
  Dev.cycleSend { d with cyc := { d.cyc with change := some { eff := d.effNum, period := period, stretch := stretch } } }

/-- The pace deficit (R364): 0 at the fastest operating point that the mode allows; otherwise the largest over the slices of the
stretch that would let them keep up, from the frames offered since `arrivedFrom`. -/
def Dev.deficitNow (d : Dev) : Nat :=
  let cur := d.fget F.CLK_DVFS.CUR []
  let fastest := if d.fixedMode || d.fbit F.CLK_OP.RETIRED [0] then 1 else 0
  let dt := d.now - d.fabric.arrivedFrom
  if cur ≤ fastest ∨ dt = 0 then 0
  else
    let cap := 2 * d.fget F.CLK_OP.FREQ [cur] * 1000000
    (List.range 32).foldl (fun best s =>
      let a := mget 0 d.fabric.arrivals s
      let num := a * 65536000000000 * (65536 + d.fget F.CYC_STATUS.EFF_STRETCH [])
      let den := dt * 65536
      if cap * den < num then max best (ceilDiv (65536 * (num - cap * den)) (cap * den)) else best) 0

/-- Why the operating point is low: 0 none, 1 cap, 2 thermal, 3 undervoltage, 4 retired OP (R354, R364). -/
def Dev.paceCause (d : Dev) : Nat :=
  if d.clk.uvForced then 3
  else if d.fbit F.PWR_STATUS.THROT [] then 2
  else if d.fget F.PWR_STATUS.LIMIT [] ≠ 0 then 1
  else if d.fbit F.CLK_OP.RETIRED [0] then 4
  else 0

/-- The payload of PACE (R354). -/
def Dev.pacePayload (d : Dev) (deficit : Nat) : List Byte :=
  beBytes 2 (min 65535 deficit) ++ beBytes 1 (d.fget F.CLK_DVFS.CUR []) ++ beBytes 1 (if deficit = 0 then 0 else d.paceCause) ++
    beBytes 6 d.cycNum ++ beBytes 2 (d.fget F.FAB_EPOCH_PHASE.ID []) ++ beBytes 2 d.fabric.shedMask ++ beBytes 2 0

/-- A worker sends PACE with its deficit (R364). -/
def Dev.paceSend (d : Dev) : Dev :=
  let v := d.fget F.FAB_STATUS.DEFICIT []
  let d := d.domSend 5 true (d.pacePayload v)
  { d with fabric := { d.fabric with lastPace := d.now, sentDeficit := v } }

/-- Two deficits differ by 1,024 or more (R364). -/
def farApart (a b : Nat) : Bool := decide (1024 ≤ a - b) || decide (1024 ≤ b - a)

/-- The largest deficit of the domain, the device's own included (R365). -/
def Dev.largestDeficit (d : Dev) : Nat := d.memberNums.foldl (fun m n => max m (d.fget F.FAB_MEMBER.DEFICIT [n])) 0

/-- The policy in force, 3 acting as 0 (R365). -/
def Dev.policy (d : Dev) : Nat := let v := d.fgetB F.FAB_CTL.POLICY []; if v = 3 then 0 else v

/-- The device in charge sends SHED to a member (R365, R366), which may be the device itself. -/
def Dev.shedSendTo (d : Dev) (n mask : Nat) : Dev :=
  let d := (d.domSend 6 false (beBytes 8 (d.fget F.FAB_MEMBER_UID.UID [n]) ++ beBytes 2 mask ++ beBytes 6 0)).raise Ev.FAB_SHED n unitDev
  let d := { d with fabric := { d.fabric with shedSent := mset 0 d.fabric.shedSent n mask } }
  if n = d.fget F.FAB_STATUS.MYNUM [] then { d with fabric := { d.fabric with shedMask := mask } } else d

/-- What the pace policy does with the latest deficits; `boundary` says that this is the pass at a boundary, where the counts toward
RELAX run (R365). -/
def Dev.pacePolicy (d : Dev) (boundary : Bool) : Dev :=
  let relax := atLeast1 (d.fget F.FAB_CTL.RELAX [])
  if ! d.inCharge then d
  else if d.policy = 0 ∧ d.cycSrc ≠ 2 then
    let big := min 13107 d.largestDeficit
    let inForce := d.fget F.CYC_STATUS.EFF_STRETCH []
    let period := periodOf (d.rforce .CYC_PERIOD [])
    let say := fun (d : Dev) (v : Nat) =>
      let d := d.fset F.CYC_PERIOD.STRETCH [] v
      let d := (d.announce period v).raise Ev.FAB_PACE 0 unitDev
      { d with fabric := { d.fabric with announced := v, relaxFor := 0 } }
    if inForce < big ∧ d.fabric.announced ≠ big then say d big
    else if big < inForce then
      let n := if boundary then d.fabric.relaxFor + 1 else d.fabric.relaxFor
      if relax ≤ n ∧ d.fabric.announced ≠ big then say d big
      else { d with fabric := { d.fabric with relaxFor := n } }
    else { d with fabric := { d.fabric with relaxFor := 0 } }
  else if d.policy = 1 then
    d.fabric.members.foldl (fun (d : Dev) m =>
      let deficit := d.fget F.FAB_MEMBER.DEFICIT [m.num]
      let cur := mget 0 d.fabric.shedSent m.num
      let mask := d.fgetB F.FAB_CTL.SHED_MASK []
      let z := if deficit = 0 then (if boundary then m.zeroFor + 1 else m.zeroFor) else 0
      let d := { d with fabric := { d.fabric with members := d.fabric.members.map fun (x : Member) => if x.num = m.num then { x with zeroFor := z } else x } }
      if 0 < deficit ∧ cur ≠ mask then d.shedSendTo m.num mask
      else if deficit = 0 ∧ cur ≠ 0 ∧ relax ≤ z then d.shedSendTo m.num 0
      else d) d
  else d

/-- The members' part of a boundary: the deficit over the longer of P and 100 µs, its report, and the manager's policy (R364, R365). -/
def Dev.paceBoundary (d : Dev) : Dev :=
  if ! d.fabEn then d
  else
    let span := max (d.cyc.per / 65536) (us 100)
    let v := if d.since d.fabric.arrivedFrom span then d.deficitNow else d.fget F.FAB_STATUS.DEFICIT []
    let d := if d.since d.fabric.arrivedFrom span then { d with fabric := { d.fabric with arrivals := [], arrivedFrom := d.now } } else d
    let old := d.fget F.FAB_STATUS.DEFICIT []
    let d := d.fset F.FAB_STATUS.DEFICIT [] (min 65535 v)
    if d.inCharge then
      let me := d.fget F.FAB_STATUS.MYNUM []
      let d := d.fset F.FAB_MEMBER.DEFICIT [me] (min 65535 v)
      let d := if farApart v old then d.raise Ev.FAB_PACE me unitDev else d
      d.pacePolicy true
    else if d.fabState = 2 then
      let me := d.fget F.FAB_STATUS.MYNUM []
      let d := if 13107 < v ∧ v ≠ old then d.raise Ev.FAB_PACE_CAP 0 unitDev else d
      if farApart v d.fabric.sentDeficit then d.paceSend.raise Ev.FAB_PACE me unitDev else d
    else d

/-- The manager's CYCLE at a boundary: the first at least 100 µs after its previous CYCLE, and at every boundary at which it
announces a change (R360). -/
def Dev.cycleMsgBoundary (d : Dev) : Dev :=
  if ! d.inCharge || ! d.fabEn then d
  else
    let changed := d.rget .CYC_PERIOD [] != d.fabric.sharedPeriod && d.cycSrc != 2 && d.cyc.change.isNone
    let d := { d with fabric := { d.fabric with sharedPeriod := d.rget .CYC_PERIOD [] } }
    if changed then d.announce (periodOf (d.rget .CYC_PERIOD [])) (d.fget F.CYC_PERIOD.STRETCH [])
    else if (d.fabric.lastCycleTx.all fun t => d.since t (us 100)) then d.cycleSend
    else d

end Sys2Proof.Machine
end

