-- ==== Sys2Proof/Machine/Timing.lean ====
section
/-! DEFINITION. Timing units 0 and 1 (chapter 02): the DPLL and its sources, steps and slews of fabric time, the cycle unit's
boundaries, CYCLE_IN, realignment and the phase table. -/

namespace Sys2Proof.Machine

set_option cleanup.letToHave false

/-- A WAIT ends: its predicate, the next instruction, and a fresh count since the safe point (R93, R103). -/
def Ctx.finishWait (x : Ctx) (ok : Bool) : Ctx :=
  match x.wait with
  | none => x
  | some w =>
    let p := if w.pred = 0 then x.p else if ok then x.p ||| BitVec.ofNat 8 (2 ^ w.pred) else x.p &&& ~~~(BitVec.ofNat 8 (2 ^ w.pred))
    { x with p := p, pc := x.pc + 1, st := .ready, wait := none, since := 0 }

/-- The cycle unit's state changes (R41). -/
def Dev.setCycState (d : Dev) (v : Nat) : Dev := d.fset F.CYC_STATUS.STATE [] v

/-- Armed ATs that satisfy p are cancelled, with event 84 for each context concerned (R105). -/
def Dev.cancelAts (d : Dev) (p : AtSlot → Bool) : Dev :=
  let gone := d.csq.ats.filter p
  let who := (gone.map fun a => 8 * a.seq + a.ctx).eraseDups
  let d := { d with csq := { d.csq with ats := d.csq.ats.filter fun a => ! p a } }
  let d := gone.foldl (fun (d : Dev) a => d.rset .CSQ_AT [a.seq, a.slot] 0) d
  who.foldl (fun (d : Dev) w => d.raise Ev.CSQ_AT_CANCEL w unitDev) d

/-- CYCLE_OUT pulses: OUT_WIDTH × 8 ns, held to half the period (CYC_CTL). -/
def Dev.cycleOut (d : Dev) : Dev :=
  let w := ns 8 * atLeast1 (d.fgetB F.CYC_CTL.OUT_WIDTH [])
  { d with cyc := { d.cyc with outUntil := d.now + min w (d.cyc.per / 131072) } }

/-- A phase-table WAKE entry: the named context resumes if it waits in PTWAKE, else the wake is lost (R49, R103). -/
def Dev.wakeContext (d : Dev) (sq c : Nat) : Dev :=
  d.ctxMod sq c fun x =>
    match x.wait with
    | some w => if x.st = .waiting ∧ w.cond = 1 then x.finishWait true else x
    | none => x

/-- What a phase-table entry does (R49). -/
def Dev.fireEntry (d : Dev) (w : Word) : Dev :=
  let arg := wbits w 59 32
  match wbits w 62 60 with
  | 1 => d.swapAll (arg % 64)
  | 2 => d.hintNow (bitsN arg 27 24) (bitsN arg 23 0)
  | 3 => d.wakeContext (bitsN arg 3 3) (bitsN arg 2 0)
  | 4 =>
    let id := bitsN arg 10 0
    d.raiseSev id (evSev id) (Config.eventArg id) unitDev
  | 5 => if d.fgetB F.CYC_CTL.OUT_MODE [] = 3 then d.cycleOut else d
  | _ => d

/-- Entry n of the active phase table (R48). -/
def Dev.ptActive (d : Dev) (n : Nat) : Word := mget 0 d.cyc.active n

/-- The entries of the current cycle that have not fired, those left over from the last cycle first (R47). -/
def Dev.unfired (d : Dev) : List Word := d.cyc.carry ++ (rangeFrom d.cyc.fired (d.cyc.activeLen - d.cyc.fired)).map d.ptActive

/-- An epoch fires: each of its groups swaps in every slice (R361, R163). -/
def Dev.fireEpoch (d : Dev) (e : Epoch) : Dev :=
  let d := (List.range 64).foldl (fun (d : Dev) g => if e.groups.getLsbD g then d.swapAll g else d) d
  let d := { d with cyc := { d.cyc with epochs := d.cyc.epochs.filter fun x => x != e } }
  d.fset F.FAB_EPOCH_PHASE.PENDING [] d.cyc.epochs.length

/-- The phase-table entries that have come due on this tick (R45, R47): what is left over, then the entries whose phase is reached. -/
def Dev.dueEntries (d : Dev) : List Word :=
  d.cyc.carry ++ ((rangeFrom d.cyc.fired (d.cyc.activeLen - d.cyc.fired)).map d.ptActive).takeWhile fun w => decide (wbits w 31 0 ≤ d.phase)

/-- One due entry fires; a late one is counted and raises event 104 (R47). -/
def Dev.fireNext (d : Dev) : Dev :=
  match d.cyc.carry with
  | w :: rest =>
    let d := (d.count (Ct.CYC_PT_LATE 0) 1).raise Ev.CYC_PT_LATE 0 unitDev
    Dev.fireEntry { d with cyc := { d.cyc with carry := rest } } w
  | [] =>
    let w := d.ptActive d.cyc.fired
    let late := decide (131072 * 65536 ≤ d.cycElapsed) && decide (wbits w 31 0 ≤ d.phaseOf (d.cycElapsed - 131072 * 65536))
    let d := if late then (d.count (Ct.CYC_PT_LATE 0) 1).raise Ev.CYC_PT_LATE 0 unitDev else d
    Dev.fireEntry { d with cyc := { d.cyc with fired := d.cyc.fired + 1 } } w

/-- The next armed epoch whose instant has come (R361). -/
def Dev.dueEpoch (d : Dev) : Option Epoch := findFirst (fun e : Epoch => d.phaseReached e.cyc e.phase) d.cyc.epochs

/-- At most two entries fire on a 2 ns tick, an epoch counting as one (R45, R47, R361). -/
def Dev.fireTick (d : Dev) : Dev :=
  let tick := d.now / 131072
  let d := if d.cyc.tick = tick then d else { d with cyc := { d.cyc with tick := tick, tickFires := 0 } }
  iter 2 (fun d =>
    if ! d.phaseValid || decide (2 ≤ d.cyc.tickFires) then d
    else if ! d.dueEntries.isEmpty then
      let d := d.fireNext
      { d with cyc := { d.cyc with tickFires := d.cyc.tickFires + 1 } }
    else match d.dueEpoch with
      | some e =>
        let d := d.fireEpoch e
        { d with cyc := { d.cyc with tickFires := d.cyc.tickFires + 1 } }
      | none => d) d

/-- The shadow phase table's entries in use (R48). -/
def Dev.ptShadow (d : Dev) (n : Nat) : Word := d.rget .CYC_PT_ENTRY [n]
/-- CYC_PT_CTL.LEN, values above 4,096 acting as 4,096. -/
def Dev.ptLen (d : Dev) : Nat := min 4096 (d.fget F.CYC_PT_CTL.LEN [])

/-- The first bad entry of the shadow and what is wrong: 1 order, 2 type, 3 EMIT argument (R48). -/
def Dev.ptFault (d : Dev) : Option (Nat × Nat) :=
  let bad := fun n =>
    let w := d.ptShadow n
    let t := wbits w 62 60
    if 0 < n ∧ wbits w 31 0 < wbits (d.ptShadow (n - 1)) 31 0 then 1
    else if 6 ≤ t then 2
    else if t = 4 ∧ 1535 < wbits w 42 32 then 3
    else 0
  (findFirst (fun n => bad n != 0) (List.range d.ptLen)).map fun n => (n, bad n)

/-- The shadow phase table becomes active; COMMIT reads 0 (R48). -/
def Dev.ptActivate (d : Dev) : Dev :=
  let len := d.ptLen
  let act := (List.range len).foldl (fun m n => mset (0 : Word) m n (d.ptShadow n)) []
  let d := { d with cyc := { d.cyc with active := act, activeLen := len, checking := false, checked := false, fired := 0 } }
  d.fset F.CYC_PT_CTL.COMMIT [] 0

/-- A checked shutter list becomes active; COMMIT reads 0 and the port's spans are recomputed (R273, R274). -/
def Dev.shuActivate (d : Dev) (k : Nat) : Dev :=
  let ix := [k / 32, k % 32]
  let len := min 256 (d.fget F.SHU_CTL.LEN ix)
  let rest := d.shu.active.filter fun e => e.1 / 256 != k
  let act := (List.range len).foldl (fun m n => mset (0 : Word) m (k * 256 + n) (d.rget .SHU_ENTRY (ix ++ [n]))) rest
  let d := { d with shu := { d.shu with active := act, activeLen := mset 0 d.shu.activeLen k len, checked := d.shu.checked.filter (· != k) } }
  let d := d.fset F.SHU_CTL.COMMIT ix 0
  match d.slotPort (k / 32) (k % 32) with
  | some p => d.recomputePort p
  | none => d

/-- The class B fields whose boundary is the cycle boundary take effect (R52, R285, R371). -/
def Dev.applyCycleB (d : Dev) : Dev :=
  { d with inForce := d.inForce.filter fun x =>
      match regDecode x.1 with
      | some (n, _) => decide (n ∉ [RegName.CYC_CTL, .CYC_PERIOD, .SHU_CTL, .SHU_SILL, .FAB_CTL])
      | none => true }

/-- The period in force changes: the base is this boundary, EFF_STRETCH shows the stretch (R40). -/
def Dev.setPeriod (d : Dev) (period stretch : Nat) : Dev :=
  let d := d.fset F.CYC_STATUS.EFF_STRETCH [] (effStretch period stretch)
  { d with cyc := { d.cyc with per := perOf period stretch } }

/-- The change of period that this boundary brings, if any (R40, R360): one that a domain message or the device in charge named for
this cycle number, else, in LOCAL, what CYC_PERIOD holds. -/
def Dev.periodChange (d : Dev) : Dev :=
  if d.cycSrc = 2 then d
  else match d.cyc.change with
    | some c =>
      if cycReached d.cyc.num c.eff then
        let d := d.setPeriod c.period c.stretch
        { d with cyc := { d.cyc with change := none } }
      else d
    | none =>
      if d.cycSrc = 0 ∧ ¬ d.fabEn then
        d.setPeriod (periodOf (d.rget .CYC_PERIOD [])) (d.fget F.CYC_PERIOD.STRETCH [])
      else d

/-- The hints whose start waits for the first cycle after the unit returns to RUN (R106). -/
def Dev.resolveHints (d : Dev) : Dev :=
  { d with pwr := { d.pwr with hints := d.pwr.hints.map fun h => if h.cyc.isNone then { h with cyc := some d.cyc.num } else h } }

/-- An armed AT as CSQ_AT shows it (R113). -/
def AtSlot.show (a : AtSlot) : Word :=
  BitVec.ofNat 64 (2 ^ 63 + a.ctx % 8 * 2 ^ 60 + a.cyc % 2 ^ 28 * 2 ^ 32 + a.phase % 2 ^ 32)

/-- The armed ATs whose cycle waits for the first cycle after the unit returns to RUN are placed (R104). -/
def Dev.resolveAts (d : Dev) : Dev :=
  let num := d.cyc.num
  let place := fun (a : AtSlot) => match a.pend with
    | some k => { a with cyc := (num + k) % 2 ^ 48, pend := none }
    | none => a
  let was := d.csq.ats.filter fun (a : AtSlot) => a.pend.isSome
  let d : Dev := { d with csq := { d.csq with ats := d.csq.ats.map place } }
  was.foldl (fun (d : Dev) a => d.rset .CSQ_AT [a.seq, a.slot] (place a).show) d

/-- A new cycle starts: at `base` (2^-32 ns of fabric time) with number `num`. In order: entries left unfired are carried over (R47);
the period changes (R40); boundary fields, the phase table and shutter lists take effect; sills are recomputed (R275); then the new
cycle's masks; CYCLE_OUT; and the domain's part of a boundary (R360, R364). -/
def Dev.newCycle (d : Dev) (base num st : Nat) : Dev :=
  let carry := if d.phaseValid then d.unfired else d.cyc.carry
  let old := d.cyc.per
  let d := { d with cyc := { d.cyc with base := base, num := num, fired := 0, carry := carry, startAt := none } }
  let d := (d.setCycState st).resolveHints.resolveAts
  let d := d.applyCycleB.periodChange
  let d : Dev := if d.cyc.per ≠ old ∨ d.cycSrc = 2 then { d with cyc := { d.cyc with gbase := base, gnum := num } } else d
  let d := if d.cyc.checked then d.ptActivate else d
  let d := d.shu.checked.foldl (fun (d : Dev) k => d.shuActivate k) d
  let d := if d.cyc.per ≠ old ∨ d.cycSrc = 2 then d.recomputeSills else d
  let d : Dev := { d with shu := { d.shu with counted := [] } }
  let d := d.portList.foldl (fun (d : Dev) p => (d.countSkips p 0).setMask p (d.portMask p)) d
  let mode := d.fgetB F.CYC_CTL.OUT_MODE []
  let d := if mode = 1 ∨ (mode = 2 ∧ num % 2 ^ d.fgetB F.CYC_CTL.OUT_DIV [] = 0) then d.cycleOut else d
  d.cycleMsgBoundary.paceBoundary

/-- The cycle unit enters STOPPED (R41): boundary fields take effect (R52), checked tables become active at once (R48, R273), phase
is invalid, armed ATs are cancelled (R105). -/
def Dev.cycleHalt (d : Dev) : Dev :=
  let d := d.setCycState 0
  let d := { d with cyc := { d.cyc with stopReq := false, startAt := none, carry := [], fired := d.cyc.activeLen } }
  let d := d.applyCycleB
  let d := if d.cyc.checked then d.ptActivate else d
  let d := d.shu.checked.foldl (fun (d : Dev) k => d.shuActivate k) d
  (d.cancelAts fun _ => true).refreshMasks

/-- A boundary that the unit computes or accepts: the stop that waits for it, else the next cycle (R39, R41). -/
def Dev.boundaryAt (d : Dev) (base num st : Nat) : Dev :=
  if d.cyc.stopReq then Dev.cycleHalt { d with cyc := { d.cyc with base := base, num := num } } else d.newCycle base num st

/-- The first grid boundary of R39 at or after the fabric time `from` (in 2^-32 ns), and its cycle number. -/
def Dev.gridAfter (d : Dev) (from' : Nat) : Nat × Nat :=
  if d.cyc.per = 0 then (from', d.cyc.num)
  else
    let k : Int := ((from' : Int) - d.cyc.base + (d.cyc.per - 1)) / d.cyc.per
    (((d.cyc.base : Int) + k * d.cyc.per).toNat, (((d.cyc.num : Int) + k) % (2 ^ 48 : Nat)).toNat)

/-- A realignment on the grid of the boundary `base` with number `bnum` (R43): the unfired entries fire at once, the armed ATs of the current
cycle come due (R105), the unit is PARKED until the first grid boundary at least 250 ns later. -/
def Dev.realignOn (d : Dev) (base bnum : Nat) : Dev :=
  let todo := d.unfired
  let num := d.cycNum
  let d := (d.count (Ct.CYC_REALIGN_CNT 0) 1).raise Ev.CYC_REALIGN 0 unitDev
  let d := todo.foldl (fun (d : Dev) w => d.fireEntry w) d
  let d := { d with csq := { d.csq with ats := d.csq.ats.map fun (a : AtSlot) => if a.cyc = num ∧ a.pend = none then { a with due := true } else a } }
  let after := d.fab + ns (2 * ceilDiv todo.length 2) + ns 250
  let g := Dev.gridAfter { d with cyc := { d.cyc with base := base, num := bnum } } (after * 65536)
  let d := { d with cyc := { d.cyc with carry := [], fired := d.cyc.activeLen, startAt := some g.1, startNum := g.2 } }
  (d.setCycState 3).refreshMasks

/-- A realignment on the unit's own grid (R43). -/
def Dev.realign (d : Dev) : Dev := d.realignOn d.cyc.base d.cyc.num

/-- Fabric time is stepped: counted, event 100, and a realignment while the cycle runs (R32, R43). -/
def Dev.stepTime (d : Dev) (off : Int) : Dev :=
  let run := d.cycState == 2
  let d := { d with fab := ((d.fab : Int) + off).toNat }
  let d := (d.count (Ct.TIM_STEP_CNT 0) 1).raise Ev.TIM_STEP 0 unitDev
  if run then d.realign else d

/-- CYC_CTL.RUN is written 1 (R41): in LOCAL the first boundary is the first on the anchor's grid at least 1 µs away and no earlier
than the anchor (R39); in DOMAIN the first CYCLE gives the anchor (R360); with CYCLE_IN the first accepted edge is the boundary. -/
def Dev.cycleRun (d : Dev) : Dev :=
  if d.role = 3 ∧ d.fbit F.FAB_STK.EN [] then d.raise Ev.STK_REFUSED 0 unitDev
  else
    let d := d.fset F.CYC_CTL.RUN [] 1
    if d.cycState ≠ 0 then { d with cyc := { d.cyc with stopReq := false } }
    else
      let d := d.setCycState 1
      let d := { d with cyc := { d.cyc with stopReq := false, intervals := [], lastEdge := none, lastReal := false, synth := 0 } }
      if d.cycSrc = 0 then
        let anchor := (sec (d.fget F.CYC_ANCHOR_SEC.SEC []) + ns (d.fget F.CYC_ANCHOR_NSF.NS []) + d.fget F.CYC_ANCHOR_NSF.FRAC []) * 65536
        let d := d.setPeriod (periodOf (d.rget .CYC_PERIOD [])) (d.fget F.CYC_PERIOD.STRETCH [])
        let d := { d with cyc := { d.cyc with base := anchor, num := 0, gbase := anchor, gnum := 0 } }
        let g := d.gridAfter (max anchor ((d.fab + us 1) * 65536))
        { d with cyc := { d.cyc with startAt := some g.1, startNum := g.2 } }
      else { d with cyc := { d.cyc with startAt := none, per := if d.cycSrc = 2 then 0 else d.cyc.per } }

/-- CYC_CTL.RUN is written 0 (R41). -/
def Dev.cycleStop (d : Dev) : Dev :=
  let d := d.fset F.CYC_CTL.RUN [] 0
  if d.cycState = 0 then d
  else if d.cycState = 1 then d.cycleHalt
  else { d with cyc := { d.cyc with stopReq := true } }

/-- The computed boundary of LOCAL or DOMAIN that comes next, with its number and the state it leads to. -/
def Dev.nextBoundary (d : Dev) : Option (Nat × Nat) :=
  if d.cycState = 2 ∧ d.cyc.per ≠ 0 then some (d.cyc.base + d.cyc.per, (d.cyc.num + 1) % 2 ^ 48)
  else if d.cycState = 1 ∨ d.cycState = 3 then d.cyc.startAt.map fun a => (a, d.cyc.startNum)
  else none

/-- A computed boundary (R39, R41), when it has come. -/
def Dev.cycleBoundary (d : Dev) : Dev :=
  if d.cycSrc = 2 ∧ d.cycState ≠ 3 then d
  else match d.nextBoundary with
    | some (b, n) => if b ≤ d.fab * 65536 then d.boundaryAt b n 2 else d
    | none => d

/-- P_est, the mean of the last 2^AVG intervals between consecutive real edges, in 2^-16 ns (R42). -/
def Dev.pEst (d : Dev) : Nat :=
  let n := d.cyc.intervals.length
  if n = 0 then 0 else d.cyc.intervals.sum / n

/-- TOL in 1/256 of P_est: 0 acts as 1, above 64 as 64 (CYC_IN). -/
def Dev.cycTol (d : Dev) : Nat := min 64 (atLeast1 (d.fget F.CYC_IN.TOL []))

/-- An accepted CYCLE_IN edge is a boundary (R42). -/
def Dev.acceptEdge (d : Dev) : Dev :=
  let d := if d.cyc.lastReal then
      match d.cyc.lastEdge with
      | some e => { d with cyc := { d.cyc with intervals := ((d.fab - e) :: d.cyc.intervals).take (2 ^ min 8 (d.fget F.CYC_IN.AVG [])) } }
      | none => d
    else d
  let d := d.fset F.CYC_IN_PERIOD.P_EST [] d.pEst
  let d := d.fset F.CYC_STATUS.IN_LOST [] 0
  let num := if d.cycState = 1 then d.cyc.num else (d.cyc.num + 1) % 2 ^ 48
  let d := { d with cyc := { d.cyc with lastEdge := some d.fab, lastReal := true, synth := 0, per := d.pEst * 65536 } }
  d.boundaryAt (d.fab * 65536) num 2

/-- An edge on CYCLE_IN of the selected polarity (R42): rejected within 250 ns of the previous accepted edge, else accepted; before
t_e − T × P_est it ends the cycle early. -/
def Dev.cycleInEdge (d : Dev) : Dev :=
  if d.cycSrc ≠ 2 ∨ d.cycState = 0 then d
  else if (d.cyc.lastEdge.any fun e => decide (d.fab < e + ns 250)) then d.count (Ct.CYC_IN_REJECT 0) 1
  else
    let p := d.pEst
    let early := d.cycState == 2 && p != 0 && decide (d.fab * 256 + d.cycTol * p < (d.cyc.base / 65536 + p) * 256)
    let d := if early then (d.count (Ct.CYC_IN_EARLY 0) 1).raise Ev.CYC_IN_EDGE 0 unitDev else d
    d.acceptEdge

/-- A boundary that the device synthesises for a missing edge (R42). -/
def Dev.synthBoundary (d : Dev) (base st : Nat) : Dev :=
  let d := { d with cyc := { d.cyc with lastReal := false } }
  d.boundaryAt base ((d.cyc.num + 1) % 2 ^ 48) st

/-- No edge by t_e + T × P_est: a synthesised boundary, counted; after LOSS of them in a row the unit enters FLYWHEEL (R42). -/
def Dev.cycleInMiss (d : Dev) : Dev :=
  let p := d.pEst
  let at' := d.cyc.base / 65536 + p + d.cycTol * p / 256
  if d.cycSrc ≠ 2 ∨ d.cycState ≠ 2 ∨ p = 0 ∨ d.fab < at' then d
  else
    let n := d.cyc.synth + 1
    let lost := decide (atLeast1 (d.fget F.CYC_IN.LOSS []) ≤ n)
    let d := (d.count (Ct.CYC_IN_MISS 0) 1).raise Ev.CYC_IN_EDGE 0 unitDev
    let d := { d with cyc := { d.cyc with synth := n } }
    let d := if lost then (d.fset F.CYC_STATUS.IN_LOST [] 1).raise Ev.CYC_IN_LOST 0 unitDev else d
    d.synthBoundary (at' * 65536) (if lost then 4 else 2)

/-- In FLYWHEEL a boundary every P_est (R42). -/
def Dev.flywheel (d : Dev) : Dev :=
  if d.cycState ≠ 4 ∨ d.fab * 65536 < d.cyc.base + d.cyc.per ∨ d.cyc.per = 0 then d else d.synthBoundary (d.cyc.base + d.cyc.per) 4

/-- The check of the shadow phase table ends (R48). -/
def Dev.ptCheckDone (d : Dev) : Dev :=
  if ! d.cyc.checking then d
  else match d.ptFault with
    | some (n, k) =>
      let d := d.fsets [(F.CYC_PT_CTL.ERR, 1), (F.CYC_PT_CTL.ERRKIND, k), (F.CYC_PT_CTL.ERRIDX, n), (F.CYC_PT_CTL.COMMIT, 0)] []
      Dev.raise { d with cyc := { d.cyc with checking := false } } Ev.CYC_PT_REFUSED 0 unitDev
    | none =>
      let d := { d with cyc := { d.cyc with checking := false, checked := true } }
      if d.cycState = 0 then d.ptActivate else d

/-- A commit of the phase table starts (R48). -/
def Dev.ptCommit (d : Dev) : Dev :=
  if d.fbit F.CYC_PT_CTL.COMMIT [] then d
  else Dev.fset { d with cyc := { d.cyc with checking := true } } F.CYC_PT_CTL.COMMIT [] 1

/-- A dropped write to the phase table: counted and event 105 (R48). -/
def Dev.ptDrop (d : Dev) : Dev := (d.count (Ct.CYC_PT_DROP 0) 1).raise Ev.CYC_PT_REFUSED 0 unitDev

/-- A write of phase-table entry n goes to the shadow, or is dropped while COMMIT reads 1 (R48). -/
def Dev.ptEntryWrite (d : Dev) (n : Nat) (w : Word) : Dev :=
  if d.fbit F.CYC_PT_CTL.COMMIT [] then d.ptDrop else d.rset .CYC_PT_ENTRY [n] (wput w 63 63 0)

/-- A write that changes CYC_PT_CTL.LEN is dropped likewise (R48). -/
def Dev.ptLenWrite (d : Dev) (len : Nat) : Dev :=
  if d.fget F.CYC_PT_CTL.LEN [] = len % 2 ^ 13 then d
  else if d.fbit F.CYC_PT_CTL.COMMIT [] then d.ptDrop else d.fset F.CYC_PT_CTL.LEN [] len

/-- The DPLL changes state: event 96, and event 98 from LOCKED into HOLDOVER or FREERUN (R31). -/
def Dev.setDpll (d : Dev) (v : Nat) : Dev :=
  let old := d.fget F.TIM_STATUS.DPLL_STATE []
  if old = v then d
  else
    let tim := d.tim
    let total := if old = 2 then tim.lockedTotal + (d.now - tim.dpllSince) else tim.lockedTotal
    let d := { d with tim := { tim with lockedTotal := if old = 0 then 0 else total, dpllSince := d.now, offSince := none, fromFree := decide (old = 0 ∧ v = 1) } }
    let d := if old = 0 then d.fset F.TIM_STATUS.HISTORY [] 0 else d
    let d := (d.fset F.TIM_STATUS.DPLL_STATE [] v).raise Ev.TIM_DPLL_STATE 0 unitDev
    if old = 2 ∧ (v = 3 ∨ v = 0) then d.raise Ev.TIM_HOLDOVER 0 unitDev else d

/-- Entry i of the frequency list: kinds 1 to 5, others as NONE (R29). -/
def Dev.freqEntry (d : Dev) (i : Nat) : Nat :=
  let k := bitsN (d.fget F.TIM_SRC.FPRI []) (4 * i + 3) (4 * i)
  if 1 ≤ k ∧ k ≤ 5 then k else 0

/-- Entry i of the phase list: kinds 4 and 5, others as NONE (R29). -/
def Dev.phaseEntry (d : Dev) (i : Nat) : Nat :=
  let k := bitsN (d.fget F.TIM_SRC.PPRI []) (4 * i + 3) (4 * i)
  if k = 4 ∨ k = 5 then k else 0

/-- The highest-priority qualified entry of a list, 7 for none (R30). -/
def Dev.bestEntry (d : Dev) (entry : Nat → Nat) : Nat :=
  (findFirst (fun i => decide (entry i ∈ d.tim.qual) && decide (entry i ≠ 0)) (List.range 4)).getD 7

/-- The kinds that the two selections name now (0 for none). -/
def Dev.selectedKinds (d : Dev) : List Nat :=
  let f := d.fget F.TIM_STATUS.FSEL []
  let p := d.fget F.TIM_STATUS.PSEL []
  [if f < 4 then d.freqEntry f else 0, if p < 4 then d.phaseEntry p else 0]

/-- Some source of either list qualifies. -/
def Dev.anyQualified (d : Dev) : Bool := d.bestEntry d.freqEntry != 7 || d.bestEntry d.phaseEntry != 7

/-- A source qualifies (R30, R31): selected at once where its list has none selected; a better one starts the wait-to-restore time
when REVERT is 1; the DPLL leaves FREERUN or HOLDOVER. -/
def Dev.sourceQualifies (d : Dev) (kind : Nat) : Dev :=
  let d := { d with tim := { d.tim with qual := if kind ∈ d.tim.qual then d.tim.qual else d.tim.qual ++ [kind] } }
  let f := d.bestEntry d.freqEntry
  let p := d.bestEntry d.phaseEntry
  let fs := d.fget F.TIM_STATUS.FSEL []
  let ps := d.fget F.TIM_STATUS.PSEL []
  let rev := d.fbit F.TIM_SRC.REVERT []
  let d := if fs = 7 then d.fset F.TIM_STATUS.FSEL [] f else if f < fs ∧ rev then { d with tim := { d.tim with wtrF := some d.now } } else d
  let d := if ps = 7 then d.fset F.TIM_STATUS.PSEL [] p else if p < ps ∧ rev then { d with tim := { d.tim with wtrP := some d.now } } else d
  let st := d.fget F.TIM_STATUS.DPLL_STATE []
  if d.fbit F.TIM_CTL.SERVO_EN [] ∧ (st = 0 ∨ st = 3) ∧ d.anyQualified then d.setDpll 1 else d

/-- The wait-to-restore time has run out (R30). -/
def Dev.waitToRestore (d : Dev) : Dev :=
  let w := sec (60 * d.fget F.TIM_SRC.WTR [])
  let rev := d.fbit F.TIM_SRC.REVERT []
  let d := if rev && (d.tim.wtrF.any fun t => d.since t w) then
      Dev.fset { d with tim := { d.tim with wtrF := none } } F.TIM_STATUS.FSEL [] (d.bestEntry d.freqEntry) else d
  if rev && (d.tim.wtrP.any fun t => d.since t w) then
    Dev.fset { d with tim := { d.tim with wtrP := none } } F.TIM_STATUS.PSEL [] (d.bestEntry d.phaseEntry) else d

/-- A recovered-clock output whose lane is lost is held low when SQUELCH is 1 (R37). -/
def Dev.rclkLost (d : Dev) (lane : Nat) : Dev :=
  let held := (List.range 2).filter fun k =>
    decide (k ∈ d.tim.rclkHeld) || (d.fgetB F.TIM_RCLK.LANE [k] == lane && d.fbit F.TIM_RCLK.SQUELCH [k])
  { d with tim := { d.tim with rclkHeld := held } }

/-- The lane regains lock, and its recovered-clock output runs again (R37). -/
def Dev.rclkBack (d : Dev) (lane : Nat) : Dev :=
  { d with tim := { d.tim with rclkHeld := d.tim.rclkHeld.filter fun k => d.fgetB F.TIM_RCLK.LANE [k] != lane } }

/-- A source is lost (R30, R31): event 97 for a selected one, the next qualified source is selected, and the DPLL moves. -/
def Dev.sourceLost (d : Dev) (kind : Nat) : Dev :=
  let was := decide (kind ∈ d.selectedKinds) && kind != 0
  let d := if kind = 1 ∨ kind = 2 then d.rclkLost (d.fgetB F.TIM_RCLK.LANE [kind - 1]) else d
  let d := { d with tim := { d.tim with qual := d.tim.qual.filter (· != kind) } }
  if ! was then d
  else
    let d := d.raise Ev.TIM_SRC_LOST 0 unitDev
    let fs := d.fget F.TIM_STATUS.FSEL []
    let ps := d.fget F.TIM_STATUS.PSEL []
    let d := if fs < 4 ∧ d.freqEntry fs = kind then d.fset F.TIM_STATUS.FSEL [] (d.bestEntry d.freqEntry) else d
    let d := if ps < 4 ∧ d.phaseEntry ps = kind then d.fset F.TIM_STATUS.PSEL [] (d.bestEntry d.phaseEntry) else d
    let st := d.fget F.TIM_STATUS.DPLL_STATE []
    if st = 2 then d.setDpll (if d.anyQualified then 1 else 3)
    else if st = 1 ∧ ¬ d.anyQualified then d.setDpll (if d.fbit F.TIM_STATUS.HISTORY [] then 3 else 0)
    else d

/-- A measured phase offset, in 2^-8 ns, of the selected phase source: TIM_STATUS.OFFSET shows it, and the servo removes it, by the
automatic step of R32 in an ACQUIRE entered from FREERUN, otherwise by slewing. -/
def Dev.measured (d : Dev) (off : Int) : Dev :=
  let d := d.fset F.TIM_STATUS.OFFSET [] (unsext 32 off)
  let big := decide (256000 < off.natAbs)
  let d := { d with tim := { d.tim with offSince := if big then (if d.tim.offSince.isSome then d.tim.offSince else some d.now) else none } }
  let st := d.fget F.TIM_STATUS.DPLL_STATE []
  if ¬ d.fbit F.TIM_CTL.SERVO_EN [] ∨ ¬ (st = 1 ∨ st = 2) then d
  else if st = 1 ∧ d.tim.fromFree ∧ d.fbit F.TIM_CTL.AUTOSTEP [] ∧ 256 * 2 ^ min 40 (d.fget F.TIM_CTL.STEPTHR []) < off.natAbs then
    d.stepTime (-(off * 256))
  else { d with tim := { d.tim with slew := some (-(off * 256)) } }

/-- The distance of fabric time from the nearest integer second, in 2^-8 ns (R29). -/
def Dev.secondOffset (d : Dev) : Int :=
  let r := d.fab % sec 1
  if 2 * r < sec 1 then (r / 256 : Nat) else -(((sec 1 - r) / 256 : Nat) : Int)

/-- A TIM_ADJ write with GO = 1 (R32). -/
def Dev.timAdjGo (d : Dev) (mode off : Nat) : Dev :=
  let st := d.fget F.TIM_STATUS.DPLL_STATE []
  if d.fbit F.TIM_CTL.SERVO_EN [] ∧ (st = 1 ∨ st = 2) then
    (d.count (Ct.TIM_ADJ_REFUSED 0) 1).raise Ev.TIM_ADJ_REFUSED 0 unitDev
  else
    let d := d.fsets [(F.TIM_ADJ.MODE, mode), (F.TIM_ADJ.OFFSET, off)] []
    let o := sext 48 off * 256
    if mode % 2 = 1 then Dev.stepTime ((Dev.fset { d with tim := { d.tim with slew := none } }) F.TIM_ADJ.GO [] 0) o
    else Dev.fset { d with tim := { d.tim with slew := some o } } F.TIM_ADJ.GO [] 1

/-- TIM_SRC has been written (R29, R30): a selection whose entry names no qualified source any more falls to the best entry, a better entry
starts the wait-to-restore time when REVERT is 1, and a qualified source that is now listed takes the DPLL out of FREERUN or HOLDOVER. -/
def Dev.sourcesListed (d : Dev) : Dev :=
  let f := d.bestEntry d.freqEntry
  let p := d.bestEntry d.phaseEntry
  let fs := d.fget F.TIM_STATUS.FSEL []
  let ps := d.fget F.TIM_STATUS.PSEL []
  let rev := d.fbit F.TIM_SRC.REVERT []
  let good := fun (i k : Nat) => decide (i < 4) && decide (k ≠ 0) && decide (k ∈ d.tim.qual)
  let d := if ! good fs (d.freqEntry fs) then d.fset F.TIM_STATUS.FSEL [] f else if f < fs ∧ rev then { d with tim := { d.tim with wtrF := some d.now } } else d
  let d := if ! good ps (d.phaseEntry ps) then d.fset F.TIM_STATUS.PSEL [] p else if p < ps ∧ rev then { d with tim := { d.tim with wtrP := some d.now } } else d
  let st := d.fget F.TIM_STATUS.DPLL_STATE []
  if d.fbit F.TIM_CTL.SERVO_EN [] ∧ (st = 0 ∨ st = 3) ∧ d.anyQualified then d.setDpll 1 else d

/-- SERVO_EN is written 0 (R31). -/
def Dev.servoDisable (d : Dev) : Dev := (d.fset F.TIM_CTL.SERVO_EN [] 0).setDpll 0

/-- SERVO_EN is written 1: a source that qualifies already takes the DPLL to ACQUIRE (R31). -/
def Dev.servoEnable (d : Dev) : Dev :=
  let d := d.fset F.TIM_CTL.SERVO_EN [] 1
  if d.fget F.TIM_STATUS.DPLL_STATE [] = 0 ∧ d.anyQualified then d.setDpll 1 else d

end Sys2Proof.Machine
end

