-- ==== Sys2Proof/Machine/Ptp.lean ====
section
/-! DEFINITION. The PTP engine of Timing unit 0 (R27, R28): the IEEE 1588-2019 messages it sends and what it takes from those it
receives. The layouts of messages and the delay arithmetic are those of IEEE 1588-2019, which the spec names (log entry 12). -/

namespace Sys2Proof.Machine

set_option cleanup.letToHave false

/-- What the engine keeps for a port. -/
def Dev.ptpPort (d : Dev) (p : Nat) : PtpPort := mget {} d.tim.ptp p

/-- The engine's record of a port changed by f. -/
def Dev.ptpMod (d : Dev) (p : Nat) (f : PtpPort → PtpPort) : Dev :=
  { d with tim := { d.tim with ptp := mset {} d.tim.ptp p (f (d.ptpPort p)) } }

/-- The state of a PTP port: set per port under external port configuration (R27, TIM_PORT). -/
def Dev.ptpState (d : Dev) (p : Nat) : Nat :=
  if d.fbit F.TIM_PTP_CLOCK.EXTCFG [] then d.fget F.TIM_PORT.EXTSTATE [p] else d.fget F.TIM_PORT.STATE [p]

/-- A port's state changes: event 99 (R50). -/
def Dev.setPtpState (d : Dev) (p v : Nat) : Dev :=
  if d.fget F.TIM_PORT.STATE [p] = v then d else (d.fset F.TIM_PORT.STATE [p] v).raise Ev.TIM_PTP_PORT 0 unitDev

/-- A port's log interval field, signed and clamped (TIM_PORT). -/
def Dev.logField (d : Dev) (f : Fld) (lo hi : Int) (p : Nat) : Int := max lo (min hi (sext 4 (d.fget f [p])))

/-- The interval of a message kind on a port, in 2^-16 ns: 0 Sync and 11 Announce at their own, 1 Delay_Req and 2 Pdelay_Req at
logMinDelayReqInterval. -/
def Dev.ptpInterval (d : Dev) (p kind : Nat) : Nat :=
  let e := match kind with
    | 0 => d.logField F.TIM_PORT.LOGSYNC (-7) 4 p
    | 11 => d.logField F.TIM_PORT.LOGANN (-3) 4 p
    | _ => d.logField F.TIM_PORT.LOGDREQ (-7) 4 p
  if 0 ≤ e then sec (2 ^ e.toNat) else sec 1 / 2 ^ (-e).toNat

/-- One-step operation: ONESTEP, ignored on UDP/IPv6 (R27, TIM_PORT). -/
def Dev.oneStep (d : Dev) (p : Nat) : Bool := d.fbit F.TIM_PORT.ONESTEP [p] && d.fget F.TIM_PORT.TRANSPORT [p] != 2

/-- The transport of a port: 0 Ethernet, 1 UDP/IPv4, 2 UDP/IPv6; 3 acts as 0. -/
def Dev.transport (d : Dev) (p : Nat) : Nat := let v := d.fget F.TIM_PORT.TRANSPORT [p]; if v = 3 then 0 else v

/-- A timestamp of a PTP message: 48-bit seconds and 32-bit nanoseconds. -/
def ptpStamp (t : Nat) : List Byte := beBytes 6 (tSec t) ++ beBytes 4 (tNs t)

/-- The header of a PTP message of the engine (IEEE 1588-2019). -/
def Dev.ptpHeader (d : Dev) (p kind len flags corr seq log : Nat) : List Byte :=
  beBytes 1 kind ++ beBytes 1 0x12 ++ beBytes 2 len ++ beBytes 1 (d.fget F.TIM_PTP_CLOCK.DOMAIN []) ++ beBytes 1 0 ++ beBytes 2 flags ++
    beBytes 8 corr ++ beBytes 4 0 ++ beBytes 8 d.uid ++ beBytes 2 (p + 1) ++ beBytes 2 seq ++ beBytes 1 0 ++ beBytes 1 log

/-- The flag bits that TIM_UTC and the timescale give an Announce (R28). -/
def Dev.announceFlags (d : Dev) : Nat :=
  d.fget F.TIM_UTC.LEAP61 [] + 2 * d.fget F.TIM_UTC.LEAP59 [] + 4 * d.fget F.TIM_UTC.VALID [] +
    (if d.fbit F.TIM_PTP_CLOCK.ARB [] then 0 else 8)

/-- The body of an Announce: in a grandmaster the clock attributes of TIM_PTP_CLOCK and the offset of TIM_UTC (R28); in a boundary clock, which
has a port in SLAVE, what that port's Announce said, one step further away. -/
def Dev.announceBody (d : Dev) : List Byte :=
  match d.tim.parent with
  | some (_, b) => beBytes 10 0 ++ slice b 10 17 ++ beBytes 2 (beNat (slice b 27 2) + 1) ++ slice b 29 1
  | none =>
    ptpStamp 0 ++ beBytes 2 (d.fget F.TIM_UTC.OFFSET []) ++
      beBytes 1 0 ++ beBytes 1 (d.fget F.TIM_PTP_CLOCK.PRIORITY1 []) ++ beBytes 1 (d.fget F.TIM_PTP_CLOCK.CLASS []) ++
      beBytes 1 (d.fget F.TIM_PTP_CLOCK.ACCURACY []) ++ beBytes 2 (d.fget F.TIM_PTP_CLOCK.VARIANCE []) ++
      beBytes 1 (d.fget F.TIM_PTP_CLOCK.PRIORITY2 []) ++ beBytes 8 d.uid ++ beBytes 2 0 ++ beBytes 1 0xA0

/-- The flags of an Announce, from the same source as its body. -/
def Dev.announceBits (d : Dev) : Nat :=
  match d.tim.parent with
  | some (_, b) => beNat (slice b 30 2)
  | none => d.announceFlags

/-- A log interval as the header carries it: clamped, an 8-bit two's complement number. -/
def Dev.logByte (d : Dev) (f : Fld) (lo hi : Int) (p : Nat) : Nat := unsext 8 (d.logField f lo hi p)

/-- A message of the engine by kind (R28). -/
def Dev.ptpMessage (d : Dev) (p kind seq : Nat) : List Byte :=
  match kind with
  | 11 => d.ptpHeader p 11 64 d.announceBits 0 seq (d.logByte F.TIM_PORT.LOGANN (-3) 4 p) ++ d.announceBody
  | 0 => d.ptpHeader p 0 44 (if d.oneStep p then 0 else 0x200) 0 seq (d.logByte F.TIM_PORT.LOGSYNC (-7) 4 p) ++ ptpStamp 0
  | 2 => d.ptpHeader p 2 54 0 0 seq 0x7F ++ ptpStamp 0 ++ List.replicate 10 0
  | _ => d.ptpHeader p 1 44 0 0 seq 0x7F ++ ptpStamp 0

/-- The frame around a PTP message: Ethernet with EtherType 0x88F7, or UDP over IPv4 or IPv6 on port 319 or 320 (R27). -/
def Dev.ptpFrame (d : Dev) (p : Nat) (event p2p : Bool) (msg : List Byte) : List Byte × Nat :=
  let src := beBytes 6 (d.ctlMac 0)
  let port := if event then 319 else 320
  let udp := beBytes 2 port ++ beBytes 2 port ++ beBytes 2 (8 + msg.length) ++ beBytes 2 0
  match d.transport p with
  | 1 => (beBytes 6 0x01005E000181 ++ src ++ beBytes 2 0x0800 ++
      (beBytes 2 0x4500 ++ beBytes 2 (28 + msg.length) ++ beBytes 4 0 ++ beBytes 2 0x0111 ++ beBytes 2 0 ++ beBytes 4 0 ++
        beBytes 4 0xE0000181) ++ udp ++ msg, 42)
  | 2 => (beBytes 6 0x333300000181 ++ src ++ beBytes 2 0x86DD ++
      (beBytes 4 0x60000000 ++ beBytes 2 (8 + msg.length) ++ beBytes 2 0x1101 ++ List.replicate 16 0 ++ beBytes 16 0xFF0E0000000000000000000000000181) ++
        udp ++ msg, 62)
  | _ => (beBytes 6 (if p2p then 0x0180C200000E else 0x011B19000000) ++ src ++ beBytes 2 0x88F7 ++ msg, 14)

/-- The engine sends a message through the port's egress queue (R28); the copy of an event message remembers what it needs when it leaves. -/
def Dev.ptpSend (d : Dev) (p q : Nat) (event p2p : Bool) (x : Option PtpTx) (msg : List Byte) : Dev :=
  let f := d.ptpFrame p event p2p msg
  let i := d.buf.nextCopy
  (d.originate p q f.1).copyMod i fun c => { c with ptp := x.map fun y => { y with off := f.2 } }

/-- What the egress timestamp unit writes into a one-step message that leaves at `ets` (R28): originTimestamp of a Sync, with the fraction of a
nanosecond in correctionField, or the time that a Pdelay_Resp took, in correctionField. -/
def PtpTx.update (x : PtpTx) (ets : Nat) (body : List Byte) : List Byte :=
  if ! x.onestep then body
  else if x.kind = 0 then overlay (overlay body (x.off + 34) (ptpStamp ets)) (x.off + 8) (beBytes 8 (ets % 65536))
  else overlay body (x.off + 8) (beBytes 8 (unsext 64 (sext 64 x.corr + ((ets : Int) - x.t2))))

/-- The first bit of a message of the engine leaves (R28): the instant of a delay request is kept, and a two-step Sync or Pdelay_Resp is followed
by its Follow_Up on the same queue, with the instant. -/
def Dev.ptpLeaves (d : Dev) (c : Copy) : Dev :=
  let p := c.port
  match c.ptp with
  | none => d
  | some x =>
    match x.kind with
    | 1 | 2 => d.ptpMod p fun y => { y with t3 := (c.ets : Int) }
    | 0 =>
      if x.onestep then d
      else d.ptpSend p c.queue false false none
        (d.ptpHeader p 8 44 0 (c.ets % 65536) x.seq (d.logByte F.TIM_PORT.LOGSYNC (-7) 4 p) ++ ptpStamp c.ets)
    | _ =>
      if x.onestep then d
      else d.ptpSend p c.queue false true none (d.ptpHeader p 10 54 0 (unsext 64 (sext 64 x.corr + ((c.ets % 65536 : Nat) : Int))) x.seq 0x7F ++ ptpStamp c.ets ++ x.req)

/-- At its interval the engine sends Announce or Sync as a master, Delay_Req as a time receiver with E2E, Pdelay_Req with P2P (R27,
R28). -/
def Dev.ptpTx (d : Dev) (p q kind : Nat) : Dev :=
  let st := d.ptpState p
  let p2p := d.fbit F.TIM_PORT.MECH [p]
  let ok := d.fbit F.TIM_PORT.EN [p] &&
    ((st == 6 && (kind == 0 || kind == 11)) || (st == 9 && kind == 1 && ! p2p) || (kind == 2 && p2p))
  let k := 16 * p + kind
  let due := match mget? d.tim.ptpSent k with
    | some t => d.since t (d.ptpInterval p kind)
    | none => true
  if ok && due then
    let seq := mget 0 d.tim.ptpSeq k
    let d := { d with tim := { d.tim with ptpSent := mins d.tim.ptpSent k d.now, ptpSeq := mset 0 d.tim.ptpSeq k ((seq + 1) % 65536) } }
    let x : PtpTx := { kind := kind, onestep := kind == 0 && d.oneStep p, seq := seq }
    d.ptpSend p q (kind != 11) (kind == 2) (if kind = 11 then none else some x) (d.ptpMessage p kind seq)
  else d

/-- The 64-bit signed correctionField of a message, in 2^-16 ns. -/
def ptpCorr (m : List Byte) : Int := sext 64 (beNat (slice m 8 8))

/-- A message's timestamp at offset 34, in 2^-16 ns. -/
def ptpTime (m : List Byte) : Int := ((sec (beNat (slice m 34 6)) + ns (beNat (slice m 40 4)) : Nat) : Int)

/-- The measured offset of a completed Sync: t2 − t1 − path delay − asymmetry, in 2^-8 ns. -/
def Dev.ptpOffset (d : Dev) (p : Nat) : Int :=
  let x := d.ptpPort p
  (x.t2 - x.t1 - x.delay) / 256 - sext 32 (d.fget F.TIM_PORT.ASYM [p])

/-- A port is the source that the phase list selects: PTP, in SLAVE (R29). -/
def Dev.ptpSelected (d : Dev) (p : Nat) : Bool :=
  let i := d.fget F.TIM_STATUS.PSEL []
  decide (i < 4) && d.phaseEntry i == 5 && d.ptpState p == 9

/-- A message answers a request of this port: its requesting port identity, at offset 44. -/
def Dev.ptpMine (d : Dev) (p : Nat) (m : List Byte) : Bool := decide (54 ≤ m.length) && beNat (slice m 44 8) == d.uid && beNat (slice m 52 2) == p + 1

/-- An Announce is taken in (R27, R28): the port's state is the one that the best master clock algorithm, or the external configuration, gives it,
and in SLAVE its body and flags are kept for the Announces of the other ports. -/
def Dev.announceRx (d : Dev) (p best : Nat) (m : List Byte) : Dev :=
  let st := if d.fbit F.TIM_PTP_CLOCK.EXTCFG [] then d.fget F.TIM_PORT.EXTSTATE [p] else best
  let parent := if st = 9 then some (p, slice m 34 30 ++ slice m 6 2) else d.tim.parent.filter fun x => x.1 != p
  Dev.setPtpState { d with tim := { d.tim with parent := parent } } p st

/-- A received message, directed to the engine (R28): `best` is the port state that the best master clock algorithm decides on an
Announce. -/
def Dev.ptpRx (d : Dev) (p q best : Nat) (m : List Byte) : Dev :=
  if ! d.fbit F.TIM_PORT.EN [p] || decide (m.length < 44) || beNat (slice m 4 1) != d.fget F.TIM_PTP_CLOCK.DOMAIN [] then d
  else
    let st := d.ptpState p
    let rx : Int := ((tStamp d.fab : Nat) : Int) + sext 32 (d.fgetB F.TIM_TSCORR.ING [p]) * 256
    let seq := beNat (slice m 30 2)
    match beNat (slice m 0 1) % 16 with
    | 11 => if m.length < 64 then d else d.announceRx p best m
    | 0 =>
      if st ≠ 9 then d
      else
        let d := d.ptpMod p fun x => { x with t1 := ptpTime m + ptpCorr m, t2 := rx, syncSeq := seq }
        if bitN (beNat (slice m 6 2)) 9 then d
        else if d.ptpSelected p then d.measured (d.ptpOffset p) else d
    | 8 =>
      if st ≠ 9 ∨ seq ≠ (d.ptpPort p).syncSeq then d
      else
        let d := d.ptpMod p fun x => { x with t1 := ptpTime m + ptpCorr m }
        if d.ptpSelected p then d.measured (d.ptpOffset p) else d
    | 9 =>
      if st ≠ 9 ∨ ¬ d.ptpMine p m then d
      else d.ptpMod p fun x => { x with delay := ((x.t2 - x.t1) + (ptpTime m - ptpCorr m - x.t3)) / 2 }
    | 3 =>
      if ! d.ptpMine p m then d
      else if bitN (beNat (slice m 6 2)) 9 then d.ptpMod p fun x => { x with peerT2 := ptpTime m, peerT4 := rx, peerCorr := ptpCorr m }
      else d.ptpMod p fun x => { x with delay := (rx - x.t3 - ptpCorr m) / 2 }
    | 10 =>
      if ! d.ptpMine p m then d
      else d.ptpMod p fun x => { x with delay := (x.peerT4 - x.t3 - (ptpTime m - x.peerT2) - x.peerCorr - ptpCorr m) / 2 }
    | 1 =>
      if st ≠ 6 ∨ d.fbit F.TIM_PORT.MECH [p] then d
      else
        let msg := d.ptpHeader p 9 54 0 (beNat (slice m 8 8)) seq (d.logByte F.TIM_PORT.LOGDREQ (-7) 4 p) ++ ptpStamp rx.toNat ++ slice m 20 10
        d.ptpSend p q false false none msg
    | 2 =>
      let one := d.oneStep p
      let corr := beNat (slice m 8 8)
      let msg := d.ptpHeader p 3 54 (if one then 0 else 0x200) (if one then corr else 0) seq 0x7F ++ (if one then ptpStamp 0 else ptpStamp rx.toNat) ++ slice m 20 10
      d.ptpSend p q true true (some { kind := 3, onestep := one, seq := seq, t2 := rx, corr := corr, req := slice m 20 10 }) msg
    | _ => d

end Sys2Proof.Machine
end

