-- ==== Sys2Proof/Machine/HeaderVec.lean ====
section
/-! DEFINITION. The header vector as bits and bytes (R135, R169), its intrinsic region, the disposition's fields (R152), CRCs and the
hashes of R146. -/

namespace Sys2Proof.Machine

set_option cleanup.letToHave false

/-- Bits hi down to lo of a header vector. -/
def Hv.get (h : Hv) (hi lo : Nat) : Nat := bitsN h.toNat hi lo

/-- A header vector with bits hi down to lo replaced by the low bits of v. -/
def Hv.put (h : Hv) (hi lo v : Nat) : Hv :=
  let w := hi + 1 - lo
  BitVec.ofNat 6144 (h.toNat - (bitsN h.toNat hi lo) <<< lo + (v % 2 ^ w) <<< lo)

/-- HV byte b; bytes at or past 768 read 0 (R135, R156). -/
def Hv.byte (h : Hv) (b : Nat) : Byte := if b < 768 then BitVec.ofNat 8 (h.toNat >>> (6136 - 8 * b)) else 0

/-- n HV bytes from byte b. -/
def Hv.bytes (h : Hv) (b n : Nat) : List Byte := (rangeFrom b n).map h.byte

/-- A byte string written at HV byte b, as far as byte `lim` (exclusive). -/
def Hv.setBytes (h : Hv) (b : Nat) (l : List Byte) (lim : Nat) : Hv :=
  let n := min l.length (lim - b)
  if n = 0 then h else h.put (6143 - 8 * b) (6144 - 8 * (b + n)) (beNat (l.take n))

/-- The intrinsic fields (R135). -/
def Hv.mark (h : Hv) (k : Nat) : Nat := h.get (384 + 10 * k + 9) (384 + 10 * k)
def Hv.flag (h : Hv) (k : Nat) : Bool := h.get (448 + k) (448 + k) == 1
def Hv.flags (h : Hv) : Nat := h.get 479 448
def Hv.setFlag (h : Hv) (k : Nat) (b : Bool) : Hv := h.put (448 + k) (448 + k) (if b then 1 else 0)
def Hv.intrinsic (h : Hv) : BitVec 512 := BitVec.ofNat 512 h.toNat
def Hv.h0 (h : Hv) : Nat := h.get 223 192
def Hv.h1 (h : Hv) : Nat := h.get 255 224

/-- The disposition at binding (R152). -/
def dispReset : Disp := BitVec.ofNat 128 (2 ^ 84)

/-- The place of a disposition field by its code (R152). -/
def dispField (code : Nat) : Option (Nat × Nat) :=
  match code with
  | 0 => some (127, 127) | 1 => some (126, 125) | 2 => some (124, 109) | 3 => some (108, 104) | 4 => some (103, 102)
  | 5 => some (101, 101) | 6 => some (100, 93) | 7 => some (92, 87) | 8 => some (86, 85) | 9 => some (84, 84)
  | 10 => some (83, 83) | 11 => some (82, 69)
  | _ => none

/-- A field of a disposition by its code. -/
def Disp.fget (x : Disp) (code : Nat) : Nat :=
  match dispField code with
  | some (hi, lo) => bitsN x.toNat hi lo
  | none => 0

/-- A disposition with a field set by its code. -/
def Disp.fset (x : Disp) (code v : Nat) : Disp :=
  match dispField code with
  | some (hi, lo) => BitVec.ofNat 128 (x.toNat - (bitsN x.toNat hi lo) <<< lo + (v % 2 ^ (hi + 1 - lo)) <<< lo)
  | none => x

/-- One bit into a CRC of width w, most significant bit first. -/
def crcBit (w poly crc : Nat) (b : Bool) : Nat :=
  let top := crc.testBit (w - 1) != b
  let sh := (crc * 2) % 2 ^ w
  if top then sh ^^^ poly else sh

/-- One byte into a CRC, most significant bit first. -/
def crcByte (w poly crc : Nat) (x : Byte) : Nat :=
  [7, 6, 5, 4, 3, 2, 1, 0].foldl (fun c i => crcBit w poly c (x.getLsbD i)) crc

/-- A CRC over a byte string, most significant bit first, without a final XOR (R146, R158, R367). -/
def crc (w poly init : Nat) (l : List Byte) : Nat := l.foldl (fun c x => crcByte w poly c x) init

/-- CRC-32C, CRC-32 and CRC-16 (R146). -/
def crc32c (init : Nat) (l : List Byte) : Nat := crc 32 0x1EDC6F41 init l
def crc32 (init : Nat) (l : List Byte) : Nat := crc 32 0x04C11DB7 init l
def crc16 (init : Nat) (l : List Byte) : Nat := crc 16 0x1021 init l

/-- A byte with its bits in reverse order. -/
def revByte (x : Byte) : Byte :=
  [0, 1, 2, 3, 4, 5, 6, 7].foldl (fun (a : Byte) i => if x.getLsbD i then a ||| BitVec.ofNat 8 (2 ^ (7 - i)) else a) 0

/-- A 32-bit number with its bits in reverse order, as four bytes, least significant bit first on the wire. -/
def fcsBytes (crcv : Nat) : List Byte := (beBytes 4 crcv).map revByte

/-- The frame check sequence of an Ethernet frame without its FCS (IEEE 802.3), as it is sent. -/
def fcsOf (l : List Byte) : List Byte := fcsBytes (crc32 0xFFFFFFFF (l.map revByte) ^^^ 0xFFFFFFFF)

/-- A stomped FCS (R219): the correct one XOR 0xFFFF_FFFF. -/
def stompOf (l : List Byte) : List Byte := (fcsOf l).map fun x => ~~~x

/-- The Toeplitz hash of a byte string under an 832-bit key (R146). -/
def toeplitz (key : Nat) (l : List Byte) : Nat :=
  let step := fun (acc : Nat × Nat) (x : Byte) =>
    let h := [7, 6, 5, 4, 3, 2, 1, 0].foldl (fun h i =>
      let pos := 8 * acc.1 + (7 - i)
      if x.getLsbD i then h ^^^ ((key >>> (800 - pos)) % 2 ^ 32) else h) acc.2
    (acc.1 + 1, h)
  (l.foldl step (0, 0)).2

/-- The XOR of a byte string's 32-bit words, zero-padded (R146). -/
def xorFold : List Byte → Nat
  | [] => 0
  | a :: b :: c :: d :: l => beNat [a, b, c, d] ^^^ xorFold l
  | l => beNat (l ++ List.replicate (4 - l.length) 0)

/-- A hash function of R146; 5 to 7 act as 0. -/
def hashFn (fn seed key : Nat) (l : List Byte) : Nat :=
  match fn with
  | 1 => crc32 seed l
  | 2 => crc16 (bitsN seed 31 16) l * 65536 + crc16 (bitsN seed 15 0) l
  | 3 => toeplitz key l ^^^ seed
  | 4 => xorFold l ^^^ seed
  | _ => crc32c seed l

end Sys2Proof.Machine
end

