-- ==== Sys2Proof/Machine/Peep.lean ====
section
/-! DEFINITION. The peephole rings (R262 to R268): records, the slices' record queues, and the rings themselves. -/

namespace Sys2Proof.Machine

set_option cleanup.letToHave false

/-- The bytes of a peephole record with SEQ 0 and LOST clear (R264). `data` is what is known of the frame without its FCS, `whole` says
that it is all of it. -/
def pepBytes (slice : Nat) (c : Capture) (data : List Byte) (whole : Bool) : List Byte :=
  let body := data.take c.want
  let rlen := (112 + body.length + 15) / 16 * 16
  let trunc := decide (body.length < data.length) || ! whole
  beBytes 2 rlen ++ beBytes 1 c.kind ++ beBytes 1 (if trunc then 128 else 0) ++ beBytes 1 slice ++ beBytes 1 0 ++ beBytes 2 c.flen ++
    beBytes 4 0 ++ beBytes 12 (t96 c.time) ++ beBytes 2 body.length ++ beBytes 2 c.eport ++ beBytes 4 0 ++
    beBytes 64 c.intr.toNat ++ beBytes 16 c.disp.toNat ++ body ++ List.replicate (rlen - 112 - body.length) 0

/-- A record is lost (R265): counted for its ring, LOST set in the next record written there, event 258 once per 1 ms and ring. -/
def Dev.pepLose (d : Dev) (ring : Nat) : Dev :=
  let d := d.count (Ct.PEP_LOST_CNT ring) 1
  let d := { d with que := { d.que with ringLost := if d.que.ringLost.contains ring then d.que.ringLost else d.que.ringLost ++ [ring] } }
  d.raiseKeyed Ev.PEP_LOST ring ring unitDev (ms 1)

/-- A record joins its slice's queue of 16, or is lost (R265). -/
def Dev.pepQueue (d : Dev) (slice : Nat) (c : Capture) (data : List Byte) (whole : Bool) : Dev :=
  if 16 ≤ (d.que.pending.filter fun (r : PepPending) => r.slice == slice).length then d.pepLose c.ring
  else
    let r : PepPending := { slice := slice, ring := c.ring, kind := c.kind, bytes := pepBytes slice c data whole }
    { d with que := { d.que with pending := d.que.pending ++ [r] } }

/-- The records a ring holds, oldest first. -/
def Dev.ring (d : Dev) (r : Nat) : List PepRec := (mget? d.que.rings r).getD []

/-- The bytes that the records of a ring take. -/
def ringBytes (l : List PepRec) : Nat := (l.map fun (x : PepRec) => x.bytes.length).sum

/-- The capacity of a ring, SIZE × 4 KiB (PEP_RING). -/
def Dev.ringSize (d : Dev) (r : Nat) : Nat := 4096 * d.fget F.PEP_RING.SIZE [r]

/-- The oldest records go until n bytes are free. -/
def dropOldest (cap n : Nat) : List PepRec → List PepRec
  | [] => []
  | x :: l => if ringBytes (x :: l) + n ≤ cap then x :: l else dropOldest cap n l

/-- A record is written to its ring (R265): SEQ of the ring, LOST after a loss; without room it is lost, or with FULL = 1 the oldest
records go. A flow digest takes its TIME here (R380). -/
def Dev.pepWrite (d : Dev) (r : PepPending) : Dev :=
  let n := r.bytes.length
  let cap := d.ringSize r.ring
  let held := d.ring r.ring
  let d := d.applyB .PEP_RING [r.ring]
  let full := d.fbitB F.PEP_RING.FULL [r.ring]
  if ! d.fbit F.PEP_RING.EN [r.ring] || decide (cap < n) then d.pepLose r.ring
  else if cap < ringBytes held + n && ! full then d.pepLose r.ring
  else
    let seq := d.fget F.PEP_RING_STAT.SEQ [r.ring]
    let lost := d.que.ringLost.contains r.ring
    let b0 := overlay r.bytes 8 (beBytes 4 seq)
    let b0 := if r.kind = 7 then overlay b0 12 (beBytes 12 (t96 d.fab)) else b0
    let b := if lost then overlay b0 3 [(b0.getD 3 0) ||| 0x40] else b0
    let held := (dropOldest cap n held) ++ [{ seq := seq, bytes := b }]
    let d := { d with que := { d.que with rings := mins d.que.rings r.ring held, ringLost := d.que.ringLost.filter (· != r.ring) } }
    let d := d.fsets [(F.PEP_RING_STAT.SEQ, (seq + 1) % 2 ^ 32), (F.PEP_RING_STAT.USED, ringBytes held)] [r.ring]
    if r.kind = 7 then d.count (Ct.TEL_DIG_REC_CNT r.slice) 1 else d

/-- The captures of a frame whose data bytes are present, or whose frame has ended, join the slice's queue (R263). -/
def Dev.capsReady (d : Dev) (slice : Nat) (caps : List Capture) (data : List Byte) (ended : Bool) : Dev × List Capture :=
  let ready := fun (c : Capture) => ended || decide (c.want ≤ data.length)
  ((caps.filter ready).foldl (fun (d : Dev) c => d.pepQueue slice { c with flen := if ended then min 65535 (data.length + 4) else c.flen } data ended) d,
   caps.filter fun c => ! ready c)

end Sys2Proof.Machine
end

