-- ==== Sys2Proof/Machine/ParseEng.lean ====
section
/-! DEFINITION. The parse engines and the pattern scanner (chapter 06): frames at the MAC, binding, parse words, malformations, scanning,
hashing and release. -/

namespace Sys2Proof.Machine

set_option cleanup.letToHave false

/-- Frame f, if it is not yet admitted. -/
def Dev.frame? (d : Dev) (f : Nat) : Option Frame := findFirst (fun (x : Frame) => x.id == f) d.prs.frames

/-- Frame f changed by g. -/
def Dev.frameMod (d : Dev) (f : Nat) (g : Frame → Frame) : Dev :=
  { d with prs := { d.prs with frames := d.prs.frames.map fun (x : Frame) => if x.id = f then g x else x } }

/-- Frame f is gone from the path; while it still arrives, its record stays to take its tail. -/
def Dev.frameGone (d : Dev) (f : Nat) : Dev :=
  match d.frame? f with
  | none => d
  | some x =>
    if x.ended then { d with prs := { d.prs with frames := d.prs.frames.filter fun (y : Frame) => y.id != f } }
    else d.frameMod f fun x => { x with loc := .gone }

/-- The registers of the parse block of slice s that a frame takes at its binding (R147), as a sparse map. -/
def prsLo (s : Nat) : Nat := 0x4000000000 + s * 0x40000000
def prsSpan : Nat := 0x1000

/-- A parse register as the frame took it at its binding (R147). -/
def Parse.get (p : Parse) (f : Fld) (ix : List Nat) : Nat := wbits (mget (f.reg.resetAt ix) p.snap (f.reg.addr ix)) f.hi f.lo

/-- The slice windows of the match-action stages and of telemetry, whose boundary fields a frame takes at its packet boundary (R174,
R393), as a sparse map. -/
def Dev.snapOf (d : Dev) (s : Nat) : List (Nat × Word) :=
  let lo := prsLo s
  d.regs.filter fun r => (decide (lo + 0x10000000 ≤ r.1) && decide (r.1 < lo + 0x10001000)) ||
    (decide (lo + 0x20000000 ≤ r.1) && decide (r.1 < lo + 0x20001000)) || (decide (lo + 0x30000000 ≤ r.1) && decide (r.1 < lo + 0x30001000))

/-- A field as a vector took it at its packet boundary. -/
def Vec.get (v : Vec) (f : Fld) (ix : List Nat) : Nat := wbits (mget (f.reg.resetAt ix) v.snap (f.reg.addr ix)) f.hi f.lo

/-- The head window in bytes (PRS_PORT[m].WINDOW). -/
def windowBytes (v : Nat) : Nat := 128 * (v + 1)

/-- The bytes of a frame that come before its FCS, where its end is known; otherwise all that have arrived. -/
def Frame.data (x : Frame) : List Byte := if x.ended then x.bytes.take (x.bytes.length - 4) else x.bytes

/-- The contexts bound in slice s (PRS_STATUS.BOUND). -/
def Dev.boundCount (d : Dev) (s : Nat) : Nat :=
  (d.prs.frames.filter fun (x : Frame) => x.loc == .bound && ! x.parse.ended && d.portSlice x.port == s).length

/-- PRS_STATUS shows the contexts bound and whether the parse block is quiesced (R147). -/
def Dev.showPrs (d : Dev) (s : Nat) : Dev :=
  let idle := ! d.prs.frames.any fun (x : Frame) => x.loc == .bound && d.portSlice x.port == s
  d.fsets [(F.PRS_STATUS.BOUND, d.boundCount s), (F.PRS_STATUS.QUIESCED, if d.fbit F.PRS_CTL.HOLD [s] ∧ idle then 1 else 0)] [s]

/-- The records of a frame whose data are present join the slice's queue (R263). -/
def Dev.frameCaps (d : Dev) (f : Nat) : Dev :=
  match d.frame? f with
  | none => d
  | some x =>
    let r := d.capsReady (d.portSlice x.port) x.caps x.data x.ended
    r.1.frameMod f fun x => { x with caps := r.2 }

/-- The ingress FIFO of port p holds n bytes: the frames that wait unbound (R20, R291). -/
def Dev.fifoBytes (d : Dev) (p : Nat) : Nat :=
  ((d.prs.frames.filter fun (x : Frame) => x.port == p && x.loc == .fifo).map fun (x : Frame) => x.bytes.length).sum

/-- The capacity of a port's ingress FIFO, 16 KiB per lane (R291). -/
def Dev.fifoSize (d : Dev) (p : Nat) : Nat := 16384 * d.portLanes p

/-- The frame that is still arriving on port p. -/
def Dev.arriving (d : Dev) (p : Nat) : Option Frame := findFirst (fun (x : Frame) => x.port == p && ! x.ended) d.prs.frames

/-- Stack port p (R367). -/
def Dev.stackPort (d : Dev) (p : Nat) : Bool :=
  d.fbit F.FAB_STK.EN [] && bitN (d.fget F.FAB_STK_PORTS.PORTS [p / 64]) (p % 64)

/-- A stack header that the ingress MAC discards and counts: a wrong HCRC, or a data frame with TTL = 0 (R367, R368). -/
def stackHeaderBad (h : List Byte) : Bool :=
  h.length != 16 || crc16 0xFFFF (h.take 14) != beNat (h.drop 14) || (beNat (h.take 1) % 16 == 0 && bitsN (beNat (slice h 1 1)) 2 0 == 0)

/-- A frame on a stack port is a data frame that goes on: control frames are the election's, and in REFUSED the stack ports carry no data
(R367, R369). -/
def Dev.stackData (d : Dev) (h : List Byte) : Bool := beNat (h.take 1) == 0x20 && d.fget F.FAB_STK.STATE [] != 4

/-- The bytes of a port's frame that its MAC took off in front of the destination address. -/
def stackSplit (on : Bool) (l : List Byte) : List Byte × List Byte := if on then (l.take 16, l.drop 16) else ([], l)

/-- The timestamp of a frame at the ingress reference plane (R33, R25). -/
def Dev.ingressStamp (d : Dev) (p : Nat) : Nat :=
  tStamp (((tStamp d.fab : Nat) : Int) + sext 32 (d.fgetB F.TIM_TSCORR.ING [p]) * 256).toNat

/-- A frame begins to arrive (R291, R20, R33): its first bytes are at the MAC; the packet boundary of the port (R316). -/
def Dev.frameStart (d : Dev) (p : Nat) (bytes : List Byte) : Dev :=
  let d := (d.applyB .TIM_TSCORR [p]).applyB .LN_PORT [p]
  let stk := d.stackPort p
  let hb := stackSplit stk bytes
  if d.fifoSize p < d.fifoBytes p + bytes.length then
    -- dropped whole at the MAC, before the timestamp unit
    let d := (d.count (Ct.LN_RX_OVERRUN_CNT p) 1).raiseLimited Ev.LN_RX_OVERRUN p (d.unitPort p) (ms 1)
    let x : Frame := { id := d.prs.nextId, port := p, bytes := hb.2, loc := .gone, stk := hb.1 }
    { d with prs := { d.prs with frames := d.prs.frames ++ [x], nextId := d.prs.nextId + 1 } }
  else
    let bad := stk && stackHeaderBad hb.1
    let d := if bad then (d.count (Ct.STK_HDR_BAD_CNT p) 1).raiseKeyed Ev.STK_HDR_BAD 0 p (d.unitPort p) (ms 1) else d
    let x : Frame := { id := d.prs.nextId, port := p, bytes := hb.2, ts := d.ingressStamp p, phase := if d.phaseValid then d.phase else 0,
                       cyc := if d.phaseValid then d.cycNum else 0, pinv := ! d.phaseValid, loc := if bad || (stk && ! d.stackData hb.1) then .gone else .fifo, stk := hb.1 }
    { d with prs := { d.prs with frames := d.prs.frames ++ [x], nextId := d.prs.nextId + 1 } }

/-- More bytes of the frame that arrives on port p; a frame longer than the port's maximum is cut there and bad with cause SIZE
(R217, R291). Copies already admitted take the bytes too. -/
def Dev.frameMore (d : Dev) (p : Nat) (bytes : List Byte) : Dev :=
  match d.arriving p with
  | none => d
  | some x =>
    let all := x.bytes ++ bytes
    let cut := decide (d.maxFrame p < all.length)
    let all := all.take (d.maxFrame p)
    let bad := if cut && x.bad.isNone then some 7 else x.bad
    let d := d.frameMod x.id fun x => { x with bytes := all, bad := bad }
    let d := { d with buf := { d.buf with copies := d.buf.copies.map fun (c : Copy) =>
      if c.fid = (some x.id) then { c with bytes := all, bad := if c.bad.isNone then bad else c.bad } else c } }
    d.frameCaps x.id

/-- A deferred LENGTH relation fails at the frame's end (R141). -/
def Deferred.fails (q : Deferred) (len : Nat) : Bool :=
  let rem := len - 4 - q.cur
  if q.rel then q.value != rem else decide (rem < q.value)

/-- The cause with which a frame's end makes it bad (R217, R220): a MAC error, a lost link, a stomped or wrong FCS. -/
def endCause (err : Nat) (stk all : List Byte) : Option Nat :=
  let data := stk ++ all.take (all.length - 4)
  let fcs := all.drop (all.length - 4)
  if err = 1 then some 1
  else if err = 6 then some 6
  else if fcs == fcsOf data then none
  else if fcs == stompOf data then some 8
  else some 0

/-- A frame's tail arrives (R141, R217, R220, R291): `err` is 0, 1 for a code error within the frame, 6 for a lost link. -/
def Dev.frameTail (d : Dev) (p : Nat) (bytes : List Byte) (err : Nat) : Dev :=
  let d := d.frameMore p bytes
  match d.arriving p with
  | none => d
  | some x =>
    let n := x.bytes.length
    let total := n + x.stk.length
    let d := (d.count (Ct.LN_RX_FRAMES p) 1).count (Ct.LN_RX_BYTES p) total
    if n < 64 then
      Dev.count { d with prs := { d.prs with frames := d.prs.frames.filter fun (y : Frame) => y.id != x.id } } (Ct.LN_RX_RUNT_CNT p) 1
    else
      let cause := if x.bad.isSome then x.bad else endCause err x.stk x.bytes
      let d := match cause with
        | some 0 => d.count (Ct.LN_RX_FCS_CNT p) 1
        | some 1 => d.count (Ct.LN_RX_MAC_ERR_CNT p) 1
        | some 8 => d.count (Ct.BUF_RX_STOMP_CNT p) 1
        | _ => d
      if x.loc = .gone then { d with prs := { d.prs with frames := d.prs.frames.filter fun (y : Frame) => y.id != x.id } }
      else
        let lenBad := x.parse.deferred.any fun q => q.fails n
        let d := if lenBad then (d.count (Ct.PRS_MALF_CNT (16 * p + 1)) 1).raiseLimited (128 + 1) p (d.unitPort p) (ms 1) else d
        let cause := if cause.isSome then cause else if lenBad then some 2 else none
        let d := d.frameMod x.id fun x => { x with ended := true, bad := cause }
        let d := { d with buf := { d.buf with copies := d.buf.copies.map fun (c : Copy) =>
          if c.fid = (some x.id) then { c with ended := true, len := some n, bad := if c.bad.isNone then cause else c.bad } else c } }
        d.frameCaps x.id

/-- The intrinsic fields that binding fills (R132, R135). -/
def Frame.bindHv (x : Frame) : Hv :=
  let h : Hv := 0
  let h := h.put 443 384 (2 ^ 60 - 1)
  let h := h.put 495 495 (if x.pinv then 1 else 0)
  let h := h.put 191 96 (t96 x.ts)
  let h := h.put 95 64 x.phase
  let h := h.put 63 32 (x.cyc % 2 ^ 32)
  let h := h.put 31 22 x.port
  if x.stk.length = 16 then h.setBytes 688 x.stk 704 else h

/-- The pending packet-boundary fields of a slice take effect as a frame is bound (R147, R174, R193). -/
def Dev.applyPacket (d : Dev) (s : Nat) : Dev :=
  ((d.applyBSpan (prsLo s) prsSpan).applyBSpan (prsLo s + 0x10000000) 0x10000000).applyBSpan (prsLo s + 0x30000000) 0x1000

/-- The swaps that wait for a slice's packet boundary: one per group takes effect (R164); the groups that a slice missed while it did
not run are taken from the running slices. -/
def Dev.swapsNow (d : Dev) (s : Nat) : Dev :=
  let mine := d.mat.swaps.filter fun x => x.1 / 64 == s && decide (0 < x.2)
  let inv := mine.foldl (fun a x => a ^^^ 2 ^ (x.1 % 64)) 0
  let old := d.fget F.MAI_SASH_STATE.ACTIVE [s]
  let other := findFirst (fun r => r != s && d.sliceRunning r) (List.range 32)
  let missed := d.mat.needSash.filter fun k => k / 64 == s
  let new := missed.foldl (fun (a : Nat) k => match other with
    | some r => let b := bitN (d.fget F.MAI_SASH_STATE.ACTIVE [r]) (k % 64)
                if b == bitN a (k % 64) then a else a ^^^ 2 ^ (k % 64)
    | none => a) (old ^^^ inv)
  let chg := old ^^^ new
  if mine.isEmpty && missed.isEmpty then d
  else
    let left := mine.foldl (fun m x => mset 0 m x.1 (if missed.contains x.1 then 0 else x.2 - 1)) d.mat.swaps
    let d := { d with mat := { d.mat with swaps := left, needSash := d.mat.needSash.filter fun k => k / 64 != s } }
    let d := d.fset F.MAI_SASH_STATE.ACTIVE [s] new
    let used := fun (g : Nat) (b : Bool) =>
      (d.prs.frames.any fun (x : Frame) => d.portSlice x.port == s && (x.loc == .bound || (match x.loc with | .stage _ => true | .exit => false | _ => false)) &&
        x.vec.stamp.getLsbD g == b) ||
      d.buf.copies.any fun (c : Copy) => c.staged && d.portSlice c.port == s && c.vec.stamp.getLsbD g == b
    let settle := (List.range 64).foldl (fun a g =>
      if bitN chg g then (if used g (bitN old g) then a ||| 2 ^ g else a) else a) (d.fget F.MAI_SASH_SETTLE.SETTLE [s])
    let d := d.fset F.MAI_SASH_SETTLE.SETTLE [s] settle
    -- the active pattern half of R145 follows its group
    if d.fbit F.PRS_SCAN_CTL.GROUP_EN [s] && bitN chg (d.fget F.PRS_SCAN_CTL.GROUP [s]) then
      d.fset F.PRS_SCAN_CTL.ACTIVE [s] (1 - d.fgetB F.PRS_SCAN_CTL.ACTIVE [s])
    else d

/-- A frame meets the condition of R132 and its slice can bind it. -/
def Dev.canBind (d : Dev) (x : Frame) : Bool :=
  let s := d.portSlice x.port
  let m := d.portSlot x.port
  let w := windowBytes (d.fgetB F.PRS_PORT.WINDOW [s, m])
  let need := if d.fbitB F.PRS_PORT.BIND [s, m] then 64 else w
  x.loc == .fifo && (decide (need ≤ x.bytes.length) || x.ended) && ! d.fbit F.PRS_CTL.HOLD [s] && ! d.sliceHeld s && d.sliceOn s && ! d.patchWaits 3 s &&
    ! d.prs.frames.any fun (y : Frame) => y.port == x.port && y.loc == .fifo && decide (y.id < x.id)

/-- A frame is bound to a free context (R132): it takes the parse values in force and its sash stamp; without a free context the slice
counts the wait. -/
def Dev.frameBind (d : Dev) (f : Nat) : Dev :=
  match d.frame? f with
  | none => d
  | some x =>
    let s := d.portSlice x.port
    if ! d.canBind x then d
    else if 96 ≤ d.boundCount s then d.count (Ct.PRS_CTX_WAIT s) 1
    else
      let d := (d.applyPacket s).swapsNow s
      let m := d.portSlot x.port
      let lo := prsLo s
      let p : Parse :=
        { pc := d.fgetB F.PRS_PORT.ENTRY [s, m], window := windowBytes (d.fgetB F.PRS_PORT.WINDOW [s, m]),
          budget := max 48 (d.fgetB F.PRS_CTL.BUDGET [s]), loopMax := atLeast1 (d.fgetB F.PRS_CTL.LOOPMAX [s]),
          depthMax := atLeast1 (d.fgetB F.PRS_CTL.DEPTHMAX [s]),
          scanHalf := if d.fbit F.PRS_SCAN_CTL.SPLIT [s] then some (d.fbitB F.PRS_SCAN_CTL.ACTIVE [s]) else none,
          snap := d.regs.filter fun r => decide (lo ≤ r.1) && decide (r.1 < lo + prsSpan) }
      let v : Vec := { hv := x.bindHv, disp := dispReset, stamp := BitVec.ofNat 64 (d.fget F.MAI_SASH_STATE.ACTIVE [s]), snap := d.snapOf s }
      let d := d.frameMod f fun x => { x with loc := .bound, boundSeq := d.prs.nextBind, parse := p, vec := v }
      Dev.showPrs { d with prs := { d.prs with nextBind := d.prs.nextBind + 1 } } s

/-- What a parse word comes to: it stalls for bytes, it completes with a changed frame and the next word, it ends as a malformation, it
is illegal with a KIND of PRS_ILLEGAL, or it ends the parse. -/
inductive ParseOut where
  | stall
  | other
  | next (x : Frame) (pc : Nat)
  | malf (c : Nat)
  | illegal (kind : Nat)
  | done (x : Frame) (malf : Option Nat)
  deriving DecidableEq, Repr

/-- A parse word. -/
abbrev PWord := BitVec 128

/-- Bits hi down to lo of a parse word (R136). -/
def PWord.get (w : PWord) (hi lo : Nat) : Nat := bitsN w.toNat hi lo

/-- The parse word of a slice at an address (chapter 06). -/
def Dev.parseWordAt (d : Dev) (s a : Nat) : PWord := mget 0 d.prs.store (s * 4096 + a)

/-- Whether frame bytes up to offset h (exclusive) can be read: none yet known missing, stalled, or the class of R142. -/
def Frame.need (x : Frame) (h : Nat) : Option (Option Nat) :=
  if h = 0 then some none
  else if x.ended then
    if x.bytes.length - 4 < h then some (some 0)
    else if x.parse.window < h then some (some 7) else some none
  else if x.bytes.length < h then none
  else if x.parse.window < h then some (some 7) else some none

/-- A read of the frame up to offset h: `k` where it can be made. -/
def Frame.read (x : Frame) (h : Nat) (k : ParseOut) : ParseOut :=
  match x.need h with
  | none => .stall
  | some (some c) => .malf c
  | some none => k

/-- A bit field of the frame at bit offset b from CUR, w bits wide (R139). -/
def Frame.field (x : Frame) (b w : Nat) : Nat :=
  let lo := x.parse.cur + b / 8
  let hi := x.parse.cur + (b + w - 1) / 8
  let v := beNat (slice x.bytes lo (hi + 1 - lo))
  bitsN (v >>> (7 - (b + w - 1) % 8)) (w - 1) 0

/-- The end of the bytes that a bit field takes. -/
def Frame.fieldEnd (x : Frame) (b w : Nat) : Nat := x.parse.cur + (b + w - 1) / 8 + 1

/-- EXT (R139). -/
def parseExt (x : Frame) (w : PWord) (nx : Nat) : ParseOut :=
  let slot := fun (lo : Nat) => (w.get (lo + 24) (lo + 24) == 1, w.get (lo + 23) (lo + 15), w.get (lo + 14) (lo + 10) + 1, w.get (lo + 9) lo)
  let a := slot 83
  let b := slot 58
  let bad := fun (t : Bool × Nat × Nat × Nat) => t.1 && decide (704 < t.2.2.2 + t.2.2.1)
  if w.get 57 0 ≠ 0 ∨ bad a ∨ bad b then .illegal 2
  else
    let fin := fun (t : Bool × Nat × Nat × Nat) => if t.1 then x.parse.cur + t.2.1 + t.2.2.1 else 0
    let put := fun (h : Hv) (t : Bool × Nat × Nat × Nat) =>
      if t.1 then h.setBytes t.2.2.2 (slice x.bytes (x.parse.cur + t.2.1) t.2.2.1) 704 else h
    x.read (max (fin a) (fin b)) (.next { x with vec := { x.vec with hv := put (put x.vec.hv a) b } } nx)

/-- EXTF (R139). -/
def parseExtf (x : Frame) (w : PWord) (nx : Nat) : ParseOut :=
  let slot := fun (lo : Nat) => (w.get (lo + 30) (lo + 30) == 1, w.get (lo + 29) (lo + 18), w.get (lo + 17) (lo + 13) + 1, w.get (lo + 12) lo)
  let a := slot 77
  let b := slot 46
  let bad := fun (t : Bool × Nat × Nat × Nat) => t.1 && (decide (t.2.2.2 < 512) || decide (6144 < t.2.2.2 + t.2.2.1))
  if w.get 45 0 ≠ 0 ∨ bad a ∨ bad b then .illegal 2
  else
    let fin := fun (t : Bool × Nat × Nat × Nat) => if t.1 then x.fieldEnd t.2.1 t.2.2.1 else 0
    let put := fun (h : Hv) (t : Bool × Nat × Nat × Nat) =>
      if t.1 then h.put (t.2.2.2 + t.2.2.1 - 1) t.2.2.2 (x.field t.2.1 t.2.2.1) else h
    x.read (max (fin a) (fin b)) (.next { x with vec := { x.vec with hv := put (put x.vec.hv a) b } } nx)

/-- ADV (R139, R140, R142). -/
def parseAdv (x : Frame) (w : PWord) (nx : Nat) : ParseOut :=
  let mode := w.get 103 102
  let fbit := w.get 92 81
  let fw := w.get 80 76
  if w.get 55 0 ≠ 0 ∨ 5 < w.get 106 104 ∨ mode = 3 ∨ 15 < fw ∨ (mode = 2 ∧ 3 < fbit) then .illegal 2
  else
    let go := fun (len : Nat) =>
      if (mode ≠ 0 ∧ len < w.get 64 56) ∨ 65535 < x.parse.cur + len then ParseOut.malf 1
      else
        let k := w.get 106 104
        let hv := if w.get 107 107 = 1 then x.vec.hv.put (384 + 10 * k + 9) (384 + 10 * k) (min 1022 x.parse.cur) else x.vec.hv
        .next { x with vec := { x.vec with hv := hv }, parse := { x.parse with cur := x.parse.cur + len } } nx
    let scaled := fun (v : Nat) => v * 2 ^ w.get 75 74 + w.get 73 65
    match mode with
    | 0 => go (w.get 101 93)
    | 1 => x.read (x.fieldEnd fbit (fw + 1)) (go (scaled (x.field fbit (fw + 1))))
    | _ => go (scaled (x.parse.scratch.getD fbit 0))

/-- SEL (R139, R140). -/
def parseSel (x : Frame) (w : PWord) (nx : Nat) : ParseOut :=
  let off := w.get 107 102
  let src := w.get 101 100
  if w.get 88 84 ≠ 0 ∨ src = 3 ∨ (src = 2 ∧ 3 < off) then .illegal 2
  else
    let n := if src = 0 then 2 else 1
    let raw := if src = 2 then x.parse.scratch.getD off 0 else beNat (slice x.bytes (x.parse.cur + off) n)
    let kw := if w.get 95 92 = 0 then 16 else w.get 95 92
    let key := (raw >>> w.get 99 96) % 2 ^ kw
    let case := fun (k : Nat) => (w.get (83 - 28 * k) (68 - 28 * k), w.get (67 - 28 * k) (56 - 28 * k))
    let tgt := match findFirst (fun k => w.get (89 + k) (89 + k) == 1 && (case k).1 % 2 ^ kw == key) [0, 1, 2] with
      | some k => (case k).2
      | none => nx
    x.read (if src = 2 then 0 else x.parse.cur + off + n) (.next x tgt)

/-- CHK LENGTH (R141). -/
def parseChkLength (x : Frame) (w : PWord) (nx : Nat) : ParseOut :=
  let fbit := w.get 105 94
  let fw := w.get 93 89 + 1
  x.read (x.fieldEnd fbit fw) <|
    let f := x.field fbit fw
    let v := f * 2 ^ w.get 88 87 + w.get 86 78
    let rel := w.get 68 68 == 1
    if f < w.get 77 69 then .malf 1
    else if x.ended then
      let rem := x.bytes.length - 4 - x.parse.cur
      if (if rel then v != rem else decide (rem < v)) then .malf 1 else .next x nx
    else .next { x with parse := { x.parse with deferred := x.parse.deferred ++ [{ value := v, rel := rel, cur := x.parse.cur }] } } nx

/-- The ones' complement sum of a byte string (R141). -/
def onesSumBytes (l : List Byte) : Nat :=
  let rec go : List Byte → Nat
    | [] => 0
    | [a] => a.toNat * 256
    | a :: b :: l => a.toNat * 256 + b.toNat + go l
  let n := go l
  if n = 0 then 0 else (n - 1) % 65535 + 1

/-- CHK CSUM (R141). -/
def parseChkCsum (x : Frame) (w : PWord) (nx : Nat) : ParseOut :=
  let fbit := w.get 105 94
  let fw := w.get 93 89 + 1
  x.read (x.fieldEnd fbit fw) <|
    let n := x.field fbit fw * 2 ^ w.get 88 87 + w.get 86 78
    x.read (if n = 0 then 0 else x.parse.cur + n) <|
      if onesSumBytes (slice x.bytes x.parse.cur n) = 0xFFFF then .next x nx else .malf 3

/-- CHK OPTION (R141). -/
def parseChkOption (s : Nat) (x : Frame) (w : PWord) (nx : Nat) : ParseOut :=
  let fbit := w.get 105 94
  let fw := w.get 93 89 + 1
  x.read (x.fieldEnd fbit fw) <|
    if bitN (x.parse.get F.PRS_OPTSET.ALLOW [s, w.get 67 65]) (x.field fbit fw) then .next x nx else .malf 6

/-- A CHK word of kind k: its operand ranges, then its check. -/
def parseChk (k : Nat) (w : PWord) (go : ParseOut) : ParseOut :=
  if w.get 107 106 = 3 then .illegal 2
  else if w.get 107 106 ≠ k then .other
  else if w.get 64 0 ≠ 0 ∨ (if k = 2 then 5 else 15) < w.get 93 89 then .illegal 2
  else go

/-- SCAN (R139, R142): the window is checked once its place in the frame is known. -/
def parseScan (x : Frame) (w : PWord) (nx : Nat) : ParseOut :=
  let len := w.get 97 88
  if w.get 87 0 ≠ 0 ∨ len = 0 ∨ 512 < len then .illegal 2
  else if x.parse.scan.isSome then .illegal 3
  else
    let st := (if w.get 107 107 = 1 then x.parse.cur else 0) + w.get 106 98
    let past := decide (x.parse.window < st + len)
    let go : ParseOut := .next { x with vec := { x.vec with hv := x.vec.hv.put 493 493 1 }, parse := { x.parse with scan := some (st, len) } } nx
    if x.ended then
      if x.bytes.length - 4 ≤ st then .malf 0
      else if past ∧ x.parse.window < x.bytes.length then .malf 7 else go
    else if x.bytes.length ≤ st then .stall
    else if past then (if x.parse.window < x.bytes.length then .malf 7 else .stall)
    else go

/-- WAIT on BYTES (R140). -/
def parseWaitBytes (x : Frame) (w : PWord) (nx : Nat) : ParseOut :=
  let n := w.get 105 96
  if 1 < w.get 107 106 then .illegal 2
  else if w.get 107 106 ≠ 0 then .other
  else if w.get 19 0 ≠ 0 ∨ n = 0 ∨ 512 < n then .illegal 2
  else if x.ended then .next x (if x.parse.cur + n ≤ x.bytes.length - 4 then nx else w.get 95 84)
  else if x.parse.cur + n ≤ x.bytes.length then .next x nx
  else .stall

/-- WAIT on SCAN (R137, R140). -/
def parseWaitScan (x : Frame) (w : PWord) (nx : Nat) : ParseOut :=
  if 1 < w.get 107 106 then .illegal 2
  else if w.get 107 106 ≠ 1 then .other
  else if w.get 19 0 ≠ 0 then .illegal 2
  else if x.parse.scan.isNone then .illegal 3
  else if ! x.parse.scanDone then .stall
  else .next x (if bitsN x.vec.scanV 319 256 &&& w.get 83 20 = 0 then nx else w.get 95 84)

/-- SET (R139). -/
def parseSet (x : Frame) (w : PWord) (nx : Nat) : ParseOut :=
  if w.get 23 0 ≠ 0 then .illegal 2
  else
    let fl := (x.vec.hv.flags &&& (2 ^ 32 - 1 - w.get 75 44)) ||| w.get 107 76
    let k := w.get 41 40
    let imm := w.get 39 28
    let fw := w.get 27 24 + 1
    let put := fun (v : Nat) =>
      ParseOut.next { x with vec := { x.vec with hv := x.vec.hv.put 479 448 fl }, parse := { x.parse with scratch := x.parse.scratch.set k (v % 65536) } } nx
    let old := x.parse.scratch.getD k 0
    match w.get 43 42 with
    | 0 => put old
    | 1 => put imm
    | 2 => x.read (x.fieldEnd imm fw) (put (x.field imm fw))
    | _ => put (old - 1)

/-- HASH (R139). -/
def parseHash (x : Frame) (w : PWord) (nx : Nat) : ParseOut :=
  if w.get 102 0 ≠ 0 then .illegal 2
  else
    let p := w.get 106 103
    .next { x with parse := if w.get 107 107 = 1 then { x.parse with h1 := some p } else { x.parse with h0 := some p } } nx

/-- END (R139, R142). -/
def parseEnd (x : Frame) (w : PWord) : ParseOut :=
  if w.get 103 0 ≠ 0 then .illegal 2
  else .done x (if w.get 107 107 = 1 then some (w.get 106 104) else none)

/-- The hash of a profile (R146). -/
def Parse.hash (p : Parse) (s : Nat) (h : Hv) (prof : Nat) : Nat :=
  let g := fun (f : Fld) => p.get f [s, prof]
  let l16 := fun (n : Nat) => min 16 n
  let a0 := h.bytes (g F.PRS_HPROF_A.A0) (l16 (g F.PRS_HPROF_A.LEN0))
  let b0 := h.bytes (g F.PRS_HPROF_A.B0) (l16 (g F.PRS_HPROF_A.LEN0))
  let a1 := h.bytes (g F.PRS_HPROF_A.A1) (l16 (g F.PRS_HPROF_A.LEN1))
  let b1 := h.bytes (g F.PRS_HPROF_A.B1) (l16 (g F.PRS_HPROF_A.LEN1))
  let x0 := h.bytes (g F.PRS_HPROF_B.X0) (l16 (g F.PRS_HPROF_B.XLEN0))
  let x1 := h.bytes (g F.PRS_HPROF_B.X1) (l16 (g F.PRS_HPROF_B.XLEN1))
  let sym := g F.PRS_HPROF_A.SYM = 1
  let sw0 := decide (sym ∧ beNat b0 < beNat a0)
  let sw1 := sw0 || decide (sym ∧ beNat a0 = beNat b0 ∧ beNat b1 < beNat a1)
  let pair := fun (sw : Bool) (a b : List Byte) => if sw then b ++ a else a ++ b
  let key := (List.range 13).foldl (fun acc w => acc * 2 ^ 64 + p.get F.PRS_HKEY.KEY [s, w]) 0
  hashFn (g F.PRS_HPROF_A.FUNC) (g F.PRS_HPROF_B.SEED) key (pair sw0 a0 b0 ++ pair sw1 a1 b1 ++ x0 ++ x1)

/-- The parse of a frame has ended: SLOTS and DEPTH, the malformation, and the selected hashes (R134, R135, R142, R146). -/
def Frame.finish (x : Frame) (s : Nat) (m : Option Nat) : Frame :=
  let h := x.vec.hv.put 507 500 (min 255 x.parse.slots)
  let h := h.put 499 496 (min 15 x.parse.depth)
  let h := match m with
    | some c => (h.put 511 511 1).put 510 508 c
    | none => h
  let h0 := (x.parse.h0.map fun p => x.parse.hash s h p).getD 0
  let h1 := (x.parse.h1.map fun p => x.parse.hash s h p).getD 0
  { x with parse := { x.parse with ended := true }, vec := { x.vec with hv := (h.put 223 192 h0).put 255 224 h1 } }

/-- A parse ends as a malformation (R142, R143): counted, event 128 + c, and the action of its class. -/
def Dev.parseMalf (d : Dev) (s : Nat) (x : Frame) (c : Nat) : Dev :=
  let x := x.finish s (some c)
  let d := d.frameMod x.id fun _ => x
  let d := (d.count (Ct.PRS_MALF_CNT (16 * x.port + c)) 1).raiseLimited (128 + c) x.port (unitSlice s) (ms 1)
  let act := x.parse.get F.PRS_MALF.ACTION [s, c]
  let ring := x.parse.get F.PRS_MALF.RING [s, c]
  let cap := fun (d : Dev) (kind want : Nat) =>
    let k : Capture := { ring := ring, kind := kind, want := want, eport := 0xFFFF, time := d.fab, intr := x.vec.hv.intrinsic, disp := dispReset,
                         flen := if x.ended then min 65535 x.bytes.length else 0 }
    (d.frameMod x.id fun x => { x with caps := x.caps ++ [k] }).frameCaps x.id
  match act with
  | 0 => (d.frameGone x.id).showPrs s
  | 1 => ((cap d 1 (max 64 (min 512 (x.parse.get F.PRS_MALF.TRAPLEN [s, c])))).frameGone x.id).showPrs s
  | 2 => ((cap d 2 64).frameGone x.id).showPrs s
  | _ => d.showPrs s

/-- A parse meets an illegal word (R137): the frame is dropped and counted, the first case recorded, event 136. -/
def Dev.parseIllegal (d : Dev) (s : Nat) (x : Frame) (kind : Nat) : Dev :=
  let d := d.count (Ct.PRS_ILLEGAL_CNT s) 1
  let d :=
    if d.fbit F.PRS_ILLEGAL.VALID [s] then d.fset F.PRS_ILLEGAL.OVERRUN [s] 1
    else d.fsets [(F.PRS_ILLEGAL.VALID, 1), (F.PRS_ILLEGAL.KIND, kind), (F.PRS_ILLEGAL.SLOT, d.portSlot x.port), (F.PRS_ILLEGAL.WORD, x.parse.pc)] [s]
  let d := d.raise Ev.PRS_ILLEGAL (s * 4096 + x.parse.pc) (unitSlice s)
  let d := if kind = 4 then d.sliceStoreError s (2 + s) else d
  (d.frameGone x.id).showPrs s

/-- The parse of a frame executes the word at its place, of opcode `op` (R136 to R142); `ue` says that the read of the word found an
uncorrectable error. A word of another opcode is left to its own command; one of no opcode is illegal. -/
def Dev.parseStep (d : Dev) (f op : Nat) (ue : Bool) (body : Frame → PWord → Nat → ParseOut) : Dev :=
  match d.frame? f with
  | none => d
  | some x =>
    let s := d.portSlice x.port
    let w := d.parseWordAt s x.parse.pc
    let o := w.get 127 122
    if x.loc ≠ .bound ∨ x.parse.ended then d
    else if x.parse.budget ≤ x.parse.slots then d.parseMalf s x 4
    else if ue then d.parseIllegal s x 4
    else if o = 0 ∨ 10 < o then d.parseIllegal s x 1
    else if o ≠ op then d
    else
      let mp : Parse := { x.parse with slots := x.parse.slots + 1, loops := x.parse.loops + PWord.get w 109 109,
                                       depth := x.parse.depth + PWord.get w 108 108 }
      let marked : Frame := { x with parse := mp }
      let deep := decide (x.parse.depthMax < marked.parse.depth) && w.get 108 108 == 1
      let long := decide (x.parse.loopMax < marked.parse.loops) && w.get 109 109 == 1
      let own := fun (c : Nat) => if deep then min 2 c else if long then min 5 c else c
      match body marked w (w.get 121 110) with
      | .illegal k => d.parseIllegal s x k
      | .other => d
      | .stall =>
        if deep then d.parseMalf s marked 2
        else if long then d.parseMalf s marked 5
        else d.frameMod f fun (x : Frame) => { x with parse := { x.parse with slots := x.parse.slots + 1 } }
      | .malf c => d.parseMalf s marked (own c)
      | .next y pc =>
        if deep then d.parseMalf s marked 2
        else if long then d.parseMalf s marked 5
        else d.frameMod f fun _ => { y with parse := { y.parse with pc := pc } }
      | .done y m =>
        if deep ∨ long then d.parseMalf s marked (match m with | some c => own c | none => own 7)
        else match m with
          | some c => d.parseMalf s y c
          | none => (d.frameMod f fun _ => y.finish s none).showPrs s

/-- The patterns that a scan uses: all, or the active half (R145). -/
def Dev.patterns (d : Dev) (s : Nat) (half : Option Bool) : List (Nat × Pattern) :=
  (d.prs.pats.filter fun x => x.1 / 4096 == s).map (fun x => (x.1 % 4096, x.2)) |>.filter fun x =>
    x.2.valid && match half with
      | none => true
      | some b => (decide (2048 ≤ x.1)) == b

/-- Value and mask byte j of a pattern (PRS_PAT_DATA). -/
def Pattern.value (p : Pattern) (j : Nat) : Nat := wbits (p.data.getD (j / 8) 0) (63 - 8 * (j % 8)) (56 - 8 * (j % 8))
def Pattern.mask (p : Pattern) (j : Nat) : Nat := wbits (p.data.getD (4 + j / 8) 0) (63 - 8 * (j % 8)) (56 - 8 * (j % 8))

/-- The lowest offset at which a pattern hits in a window that begins at `st` (R144). -/
def Pattern.hit (p : Pattern) (win : List Byte) (st : Nat) : Option Nat :=
  let at' := fun (o : Nat) => decide (o + p.len ≤ win.length) &&
    (List.range p.len).all fun j => ((win.getD (o + j) 0).toNat &&& p.mask j) == (p.value j &&& p.mask j)
  if p.anchor then (if at' p.aoff then some (st + p.aoff) else none)
  else (findFirst at' (List.range (win.length + 1 - p.len))).map (st + ·)

/-- The scan fields of the intrinsic region that a scan yields (R135, R144). -/
def scanFields (ps : List (Nat × Pattern)) (win : List Byte) (st : Nat) (trunc : Bool) : Nat :=
  let hits := ps.filterMap fun x => (x.2.hit win st).map fun o => (o, x.1, x.2.cls)
  let first := hits.foldl (fun (b : Option (Nat × Nat)) h =>
    match b with
    | some (o, i) => if h.1 < o ∨ (h.1 = o ∧ h.2.1 < i) then some (h.1, h.2.1) else b
    | none => some (h.1, h.2.1)) none
  let map := hits.foldl (fun a h => a ||| 2 ^ h.2.2) 0
  (match first with
   | some (o, i) => 2 ^ 383 + (min 255 hits.length) * 2 ^ 374 + i * 2 ^ 362 + (o % 1024) * 2 ^ 352 + map * 2 ^ 256
   | none => 0) + (if trunc then 2 ^ 382 else 0)

/-- The scan window of a frame is present, or the frame has ended (R134). -/
def Frame.scanReady (x : Frame) : Bool :=
  match x.parse.scan with
  | none => true
  | some (st, len) => x.ended || decide (st + len ≤ x.bytes.length)

/-- The pattern scan of a frame's window ends (R144). -/
def Dev.scanNow (d : Dev) (f : Nat) : Dev :=
  match d.frame? f with
  | none => d
  | some x =>
    match x.parse.scan with
    | none => d
    | some (st, len) =>
      if x.parse.scanDone || ! x.scanReady then d
      else
        let win := slice x.data st len
        let v := scanFields (d.patterns (d.portSlice x.port) x.parse.scanHalf) win st (decide (win.length < len))
        d.frameMod f fun x => { x with parse := { x.parse with scanDone := true }, vec := { x.vec with scanV := v } }

/-- A header vector enters ingress stage 0 (R134): its parse has ended, its scan window is present, and every frame of its port bound
before it has been released. -/
def Dev.hvRelease (d : Dev) (f : Nat) : Dev :=
  match d.frame? f with
  | none => d
  | some x =>
    let s := d.portSlice x.port
    if x.loc ≠ .bound ∨ ¬ x.parse.ended ∨ ¬ x.scanReady ∨ d.fbit F.MAI_CTL.HOLD [s] ∨ d.patchWaits 4 s ∨
        (d.prs.frames.any fun (y : Frame) => y.port == x.port && y.loc == .bound && decide (y.boundSeq < x.boundSeq)) then d
    else
      let hv := if x.ended then (x.vec.hv.put 494 494 1).put 21 8 (min 16383 x.bytes.length) else x.vec.hv
      (d.frameMod f fun x => { x with loc := .stage 0, vec := { x.vec with hv := hv } }).showPrs s

/-- Pattern i of slice s. -/
def Dev.pattern (d : Dev) (s i : Nat) : Pattern := (mget? d.prs.pats (s * 4096 + i)).getD {}

/-- PRS_PAT_CMD is written with GO = 1 (R145): write, read or invalidate a pattern. -/
def Dev.patCmd (d : Dev) (s op i : Nat) : Dev :=
  let d := d.fsets [(F.PRS_PAT_CMD.OP, op), (F.PRS_PAT_CMD.INDEX, i), (F.PRS_PAT_CMD.GO, 0)] [s]
  let active := d.fbit F.PRS_SCAN_CTL.SPLIT [s] && (decide (2048 ≤ i) == d.fbitB F.PRS_SCAN_CTL.ACTIVE [s])
  if op = 3 then d.fset F.PRS_PAT_CMD.RESULT [s] 2
  else if op ≠ 1 ∧ active then (d.fset F.PRS_PAT_CMD.RESULT [s] 2).raise Ev.PRS_PAT_REFUSED (s * 4096 + i) (unitSlice s)
  else
    let d := d.fset F.PRS_PAT_CMD.RESULT [s] 1
    let k := s * 4096 + i
    match op with
    | 0 =>
      let g := fun (f : Fld) => d.fget f [s]
      let p : Pattern := { valid := g F.PRS_PAT_ATTR.VALID == 1, anchor := g F.PRS_PAT_ATTR.ANCHOR == 1, aoff := g F.PRS_PAT_ATTR.AOFF,
                           len := g F.PRS_PAT_ATTR.LEN + 1, cls := g F.PRS_PAT_ATTR.CLASS,
                           data := (List.range 8).map fun w => d.rget .PRS_PAT_DATA [s, w] }
      { d with prs := { d.prs with pats := mset {} d.prs.pats k p } }
    | 1 =>
      let p := d.pattern s i
      let d := d.fsets [(F.PRS_PAT_ATTR.VALID, if p.valid then 1 else 0), (F.PRS_PAT_ATTR.ANCHOR, if p.anchor then 1 else 0),
        (F.PRS_PAT_ATTR.AOFF, p.aoff), (F.PRS_PAT_ATTR.LEN, p.len - 1), (F.PRS_PAT_ATTR.CLASS, p.cls)] [s]
      (List.range 8).foldl (fun (d : Dev) w => d.rset .PRS_PAT_DATA [s, w] (p.data.getD w 0)) d
    | _ => { d with prs := { d.prs with pats := mset {} d.prs.pats k { d.pattern s i with valid := false } } }

end Sys2Proof.Machine
end

