-- ==== Sys2Proof/Machine/Tables.lean ====
section
/-! DEFINITION. A slice's tables (R155 to R161, R177, R178, R190, R191, R441): descriptors, keys, images, parity, the three kinds of
placement, finding and placing entries, and the bad-entry log. -/

namespace Sys2Proof.Machine

set_option cleanup.letToHave false

/-- The kinds of table (R155). -/
inductive TKind where
  | unused | exact | tcam | direct
  deriving DecidableEq, Repr

/-- A table descriptor as its registers give it (R155, TBL_DESC_A, TBL_DESC_B, TBL_KEY); `dlen` in bytes, `base` a byte address. -/
structure TDesc where
  sl : Nat
  t : Nat
  kind : TKind
  dual : Bool
  group : Nat
  width : Nat
  block : Nat
  depth : Nat
  slog : Nat
  dlen : Nat
  base : Nat
  seed : Nat
  key : Word
  deriving DecidableEq, Repr

/-- Descriptor t of slice s. -/
def Dev.tdesc (d : Dev) (s t : Nat) : TDesc :=
  let g := fun (f : Fld) => d.fget f [s, t]
  let kind := match g F.TBL_DESC_A.TYPE with
    | 1 => TKind.exact | 2 => TKind.tcam | 3 => TKind.direct | _ => TKind.unused
  let top := match kind with | .exact => 15 | _ => 19
  let dl := g F.TBL_DESC_A.DLEN
  { sl := s, t := t, kind := kind, dual := g F.TBL_DESC_A.DUAL == 1, group := g F.TBL_DESC_A.GROUP, width := min 2 (g F.TBL_DESC_A.WIDTH),
    block := g F.TBL_DESC_A.BLOCK, depth := g F.TBL_DESC_A.DEPTH, slog := max 4 (min top (g F.TBL_DESC_A.SIZELOG)),
    dlen := if dl = 0 then 0 else 8 * 2 ^ dl, base := 64 * g F.TBL_DESC_A.BASE, seed := g F.TBL_DESC_B.SEED, key := d.rget .TBL_KEY [s, t] }

/-- Width of an exact entry in bytes (R157). -/
def TDesc.ebytes (td : TDesc) : Nat := 16 * 2 ^ td.width

/-- The usable key length in bytes (R156). -/
def TDesc.klen (td : TDesc) : Nat :=
  match td.kind with
  | .exact => if td.width = 0 then 11 else if td.width = 1 then 27 else 59
  | .tcam => 20
  | _ => 4

/-- The sash that a stamp selects; a single-sash table has only sash A (R162, R164). -/
def TDesc.sash (td : TDesc) (stamp : Word) : Nat := if td.dual && stamp.getLsbD td.group then 1 else 0

/-- Bytes of a slice's exact-match memory (R155). -/
def tblBytes : Nat := 4194304

/-- n bytes of a slice's exact-match memory from address a; bytes past the end read 0 (R157). -/
def Dev.tread (d : Dev) (s a n : Nat) : List Byte :=
  (rangeFrom a n).map fun x => if x < tblBytes then mget 0 d.tmem (s * tblBytes + x) else 0

/-- Bytes written to a slice's exact-match memory at address a, as far as its end. -/
def Dev.twrite (d : Dev) (s a : Nat) (l : List Byte) : Dev :=
  let mem := ((rangeFrom a l.length).zip l).foldl (fun (m : List (Nat × Byte)) x =>
    if x.1 < tblBytes then mset 0 m (s * tblBytes + x.1) x.2 else m) d.tmem
  let lo := s * (tblBytes / 16) + a / 16
  let hi := s * (tblBytes / 16) + (a + l.length - 1) / 16
  { d with tmem := mem, mat := { d.mat with badWords := d.mat.badWords.filter fun k => decide (k < lo) || decide (hi < k) } }

/-- A 16 B unit within n bytes from address a holds an uncorrectable error (R190, R191). -/
def Dev.tbad (d : Dev) (s a n : Nat) : Bool :=
  d.mat.badWords.any fun k => decide (s * (tblBytes / 16) + a / 16 ≤ k) && decide (k ≤ s * (tblBytes / 16) + (a + n - 1) / 16) && decide (0 < n)

/-- A table image (R177). -/
abbrev Img := BitVec 512

/-- Bits hi down to lo of an image. -/
def Img.bits (i : Img) (hi lo : Nat) : Nat := bitsN i.toNat hi lo

/-- An image with bits hi down to lo replaced. -/
def Img.put (i : Img) (hi lo v : Nat) : Img :=
  BitVec.ofNat 512 (i.toNat - (bitsN i.toNat hi lo) <<< lo + (v % 2 ^ (hi + 1 - lo)) <<< lo)

/-- The XOR of a number's 4-bit groups: bit k is the XOR of its bits i with i mod 4 = k (R190). -/
def nibbleXor (n : Nat) : Nat :=
  ([256, 128, 64, 32, 16, 8, 4].foldl (fun (x : Nat) (k : Nat) => x ^^^ (x >>> k)) n) % 16

/-- The VALID, RESULT and STATIC of an image, the same places for every width (R157, R177). -/
def Img.valid (i : Img) : Bool := i.getLsbD 511
def Img.hit (i : Img) : Bool := i.getLsbD 510
def Img.static (i : Img) : Bool := i.getLsbD 509
def Img.result (i : Img) : Nat := bitsN i.toNat 504 473

/-- The parity of an exact entry: of every bit but HIT and PAR (R190). -/
def Img.exactPar (i : Img) : Nat := nibbleXor (Img.put (Img.put i 510 510 0) 508 505 0).toNat
/-- An exact entry's parity holds. -/
def Img.exactOk (i : Img) : Bool := Img.bits i 508 505 == Img.exactPar i

/-- The key bytes of an exact image (R441). -/
def TDesc.keyOf (td : TDesc) (i : Img) : List Byte := beBytes td.klen (Img.bits i 472 (473 - 8 * td.klen))

/-- An exact image as it is written: of the entry's width, key bits beyond the usable length 0, HIT given, PAR computed (R177, R441). -/
def TDesc.normal (td : TDesc) (i : Img) (hit : Bool) : Img :=
  let lo := 473 - 8 * td.klen
  let i := BitVec.ofNat 512 ((i.toNat >>> lo) <<< lo)
  let i := Img.put i 510 510 (if hit then 1 else 0)
  Img.put i 508 505 (Img.exactPar i)

/-- An exact image with VALID = 1 of a key, a RESULT and STATIC = 0 (R183). -/
def TDesc.entry (td : TDesc) (key : List Byte) (result : Nat) : Img :=
  let lo := 473 - 8 * td.klen
  td.normal (BitVec.ofNat 512 (2 ^ 511 + (result % 2 ^ 32) <<< 473 + (beNat key) <<< lo)) false

/-- The bucket of a key in a way (R158). -/
def TDesc.bucket (td : TDesc) (way : Nat) (key : List Byte) : Nat :=
  (if way = 0 then crc32c td.seed key else crc32 td.seed key) % 2 ^ td.slog

/-- The number of an exact table's overflow store: its place among the slice's exact descriptors, the first 32 of which have one
(R155). -/
def Dev.ovflOrd (d : Dev) (td : TDesc) : Option Nat :=
  let n := ((List.range td.t).filter fun t => d.fget F.TBL_DESC_A.TYPE [td.sl, t] == 1).length
  if n < 32 then some n else none

/-- Entries of an overflow store per sash (R158). -/
def TDesc.ovflLen (td : TDesc) : Nat := if td.dual then 1024 else 2048

/-- The key of overflow entry i of a sash. -/
def ovflKey (td : TDesc) (ord sash i : Nat) : Nat := (td.sl * 32 + ord) * 2048 + sash * 1024 + i

/-- The address of a bucket entry, by its INDEX (R157, R178). -/
def TDesc.eaddr (td : TDesc) (sash idx : Nat) : Nat :=
  let bb := 4 * td.ebytes
  let way := bitsN idx 18 18
  td.base + ((sash * 2 + way) * 2 ^ td.slog + bitsN idx 17 2) * bb + bitsN idx 1 0 * td.ebytes

/-- INDEX of a bucket entry and of an overflow entry (R178). -/
def bIdx (way b e : Nat) : Nat := way * 2 ^ 18 + b * 4 + e
def oIdx (i : Nat) : Nat := 2 ^ 19 + i

/-- The exact entry at an INDEX. -/
def Dev.exGet (d : Dev) (td : TDesc) (sash idx : Nat) : Img :=
  if idx < 2 ^ 19 then BitVec.ofNat 512 ((beNat (d.tread td.sl (td.eaddr sash idx) td.ebytes)) <<< (512 - 8 * td.ebytes))
  else match d.ovflOrd td with
    | some o => mget 0 d.mat.ovfl (ovflKey td o sash (idx % 2048))
    | none => 0

/-- The exact entry at an INDEX is stored as it is given. -/
def Dev.exStore (d : Dev) (td : TDesc) (sash idx : Nat) (i : Img) : Dev :=
  if idx < 2 ^ 19 then d.twrite td.sl (td.eaddr sash idx) (beBytes td.ebytes (i.toNat >>> (512 - 8 * td.ebytes)))
  else match d.ovflOrd td with
    | some o => { d with mat := { d.mat with ovfl := mset 0 d.mat.ovfl (ovflKey td o sash (idx % 2048)) i } }
    | none => d

/-- The learn data of a port in a table (R182). -/
def Dev.learnData (d : Dev) (td : TDesc) (p : Nat) : Nat :=
  let step := if td.dlen = 0 then 1 else td.dlen / 16
  (d.fgetB F.TBL_LEARN.DBASE [td.sl, td.t] + p * step) % 2 ^ 18

/-- The table learns: EN = 1, exact, single-sash (R182). -/
def Dev.learns (d : Dev) (td : TDesc) : Bool := d.fbitB F.TBL_LEARN.EN [td.sl, td.t] && td.kind == .exact && ! td.dual

/-- COUNT of MAC slot m changes by +1 or −1 (R185). -/
def Dev.plimAdd (d : Dev) (s m : Nat) (up : Bool) : Dev :=
  let c := d.fget F.TBL_PLIM.COUNT [s, m]
  d.fset F.TBL_PLIM.COUNT [s, m] (if up then c + 1 else c - 1)

/-- The entry counts for a port of the slice (R185): valid, STATIC = 0, DATA is that port's learn data. -/
def Dev.countsFor (d : Dev) (td : TDesc) (i : Img) : Option Nat :=
  if d.learns td && Img.valid i && ! Img.static i then
    findFirst (fun p => d.portSlice p == td.sl && d.learnData td p == Img.result i % 2 ^ 18) d.portList
  else none

/-- COUNT follows an entry that is put or taken away (R185). -/
def Dev.countEntry (d : Dev) (td : TDesc) (i : Img) (up : Bool) : Dev :=
  match d.countsFor td i with
  | some p => d.plimAdd td.sl (d.portSlot p) up
  | none => d

/-- The exact entry at an INDEX is replaced; COUNT follows (R185). -/
def Dev.exPut (d : Dev) (td : TDesc) (sash idx : Nat) (i : Img) : Dev :=
  let old := d.exGet td sash idx
  let d := if Img.exactOk old then d.countEntry td old false else d
  (d.exStore td sash idx i).countEntry td i true

/-- The indices of a key's two buckets, way 0 first (R158). -/
def TDesc.bucketIdx (td : TDesc) (key : List Byte) : List Nat :=
  (rangeFrom (bIdx 0 (td.bucket 0 key) 0) 4) ++ rangeFrom (bIdx 1 (td.bucket 1 key) 0) 4

/-- The listed overflow entries of a sash with their INDEX; every other overflow entry is 0: free, with good parity. -/
def Dev.ovflListed (d : Dev) (td : TDesc) (sash : Nat) : List (Nat × Img) :=
  match d.ovflOrd td with
  | none => []
  | some o =>
    let lo := ovflKey td o sash 0
    (d.mat.ovfl.filter fun x => decide (lo ≤ x.1) && decide (x.1 < lo + td.ovflLen)).map fun x => (oIdx (x.1 - lo), x.2)

/-- What the finding of a key comes to: the INDEX and the entry, if present, and the entries read whose parity failed (R158, R191). -/
def Dev.exFind (d : Dev) (td : TDesc) (sash : Nat) (key : List Byte) : Option (Nat × Img) × List Nat :=
  let read := ((td.bucketIdx key).map fun i => (i, d.exGet td sash i)) ++ d.ovflListed td sash
  (findFirst (fun (x : Nat × Img) => Img.valid x.2 && Img.exactOk x.2 && td.keyOf x.2 == key) read,
   (read.filter fun (x : Nat × Img) => ! Img.exactOk x.2).map (·.1))

/-- An entry is free: not valid, and its parity holds (R191). -/
def Img.free (i : Img) : Bool := ! Img.valid i && Img.exactOk i

/-- The first free entry of a bucket (R158). -/
def Dev.freeIn (d : Dev) (td : TDesc) (sash way b : Nat) : Option Nat :=
  findFirst (fun i => Img.free (d.exGet td sash i)) (rangeFrom (bIdx way b 0) 4)

/-- The first free entry of the overflow store. -/
def Dev.freeOvfl (d : Dev) (td : TDesc) (sash : Nat) : Option Nat :=
  match d.ovflOrd td with
  | none => none
  | some o => findFirst (fun i => Img.free (mget 0 d.mat.ovfl (ovflKey td o sash (i % 2048)))) (rangeFrom (oIdx 0) td.ovflLen)

/-- A bucket reached by the relocation search: its way, its number, and the moves that lead to it, from the far end (R158). -/
structure RelocNode where
  way : Nat
  b : Nat
  path : List (Nat × Nat)

/-- The entries of a bucket that can move to their bucket of the other way. -/
def Dev.relocNext (d : Dev) (td : TDesc) (sash : Nat) (n : RelocNode) : List RelocNode :=
  (rangeFrom (bIdx n.way n.b 0) 4).filterMap fun i =>
    let e := d.exGet td sash i
    let w := 1 - n.way
    if Img.valid e && Img.exactOk e then some { way := w, b := td.bucket w (td.keyOf e), path := (i, w) :: n.path } else none

/-- One level of the relocation search within a budget of buckets to examine: a free entry and the moves to it, or the next level's
buckets and the budget left. -/
def Dev.relocLevel (d : Dev) (td : TDesc) (sash : Nat) : List RelocNode → Nat → Option (Nat × List (Nat × Nat))
  | [], _ => none
  | _, 0 => none
  | n :: l, k + 1 =>
    match d.freeIn td sash n.way n.b with
    | some i => some (i, n.path)
    | none => d.relocLevel td sash l k

/-- A path of at most three relocations that frees an entry of one of the key's buckets, at most 64 buckets examined, nearest first
(R158, log entry 20). -/
def Dev.relocSearch (d : Dev) (td : TDesc) (sash : Nat) (key : List Byte) : Option (Nat × List (Nat × Nat)) :=
  let l0 : List RelocNode := [{ way := 0, b := td.bucket 0 key, path := [] }, { way := 1, b := td.bucket 1 key, path := [] }]
  let l1 := l0.flatMap (d.relocNext td sash)
  let l2 := l1.flatMap (d.relocNext td sash)
  let l3 := l2.flatMap (d.relocNext td sash)
  d.relocLevel td sash (l1 ++ l2 ++ l3) 62

/-- The relocations of a path, made from its end backwards: each copies an entry and then invalidates the original (R159). The answer's
INDEX is the entry that the path has freed. -/
def Dev.relocate (d : Dev) (td : TDesc) (sash : Nat) : Nat → List (Nat × Nat) → Dev × Nat
  | free, [] => (d, free)
  | free, (i, _) :: l =>
    let e := d.exGet td sash i
    Dev.relocate ((d.exStore td sash free e).exStore td sash i 0) td sash i l

/-- An exact entry is placed by its key (R158): a free entry of way 0, of way 1, a relocation, the overflow store; none when all are
full. -/
def Dev.exPlace (d : Dev) (td : TDesc) (sash : Nat) (i : Img) : Dev × Option Nat :=
  let key := td.keyOf i
  match d.freeIn td sash 0 (td.bucket 0 key) with
  | some x => (d.exPut td sash x i, some x)
  | none =>
    match d.freeIn td sash 1 (td.bucket 1 key) with
    | some x => (d.exPut td sash x i, some x)
    | none =>
      match d.relocSearch td sash key with
      | some (f, path) => let (d, x) := d.relocate td sash f path; (d.exPut td sash x i, some x)
      | none =>
        match d.freeOvfl td sash with
        | some x => (d.exPut td sash x i, some x)
        | none => (d, none)

/-- Both buckets and the overflow store hold no free entry (R183). -/
def Dev.exFull (d : Dev) (td : TDesc) (sash : Nat) (key : List Byte) : Bool :=
  (d.freeIn td sash 0 (td.bucket 0 key)).isNone && (d.freeIn td sash 1 (td.bucket 1 key)).isNone && (d.freeOvfl td sash).isNone

/-- Blocks of a TCAM table per sash (R160). -/
def TDesc.blocks (td : TDesc) : Nat := if td.dual then (td.depth + 1) / 2 else td.depth + 1

/-- The entry number across the table of INDEX idx of a sash (R160, R178). -/
def TDesc.tnum (td : TDesc) (sash idx : Nat) : Nat := sash * td.blocks * 1024 + idx

/-- The key of a TCAM entry; none in a block beyond 63 (R155). -/
def TDesc.tkey (td : TDesc) (n : Nat) : Option Nat :=
  if td.block + n / 1024 < 64 then some ((td.sl * 64 + td.block) * 1024 + n) else none

/-- The address of the RESULT of TCAM entry n (R160). -/
def TDesc.raddr (td : TDesc) (n : Nat) : Nat := td.base + 4 * n

/-- A TCAM entry. -/
def Dev.tcGet (d : Dev) (td : TDesc) (n : Nat) : TcamEntry :=
  match td.tkey n with
  | some k => (mget? d.mat.tcam k).getD {}
  | none => {}

/-- The image of a TCAM entry without PAR and RESULT (R177). -/
def TcamEntry.core (e : TcamEntry) : Nat := (if e.valid then 2 ^ 511 else 0) + e.value.toNat <<< 288 + e.mask.toNat <<< 96

/-- A TCAM entry's parity holds (R190). -/
def TcamEntry.ok (e : TcamEntry) : Bool := e.par.toNat == nibbleXor e.core

/-- The image of TCAM entry n (R177). -/
def Dev.tcImg (d : Dev) (td : TDesc) (n : Nat) : Img :=
  let e := d.tcGet td n
  BitVec.ofNat 512 (e.core + e.par.toNat <<< 507 + (beNat (d.tread td.sl (td.raddr n) 4)) <<< 448)

/-- A TCAM entry is written from an image (R177, R179). -/
def Dev.tcPut (d : Dev) (td : TDesc) (n : Nat) (i : Img) : Dev :=
  let e : TcamEntry := { valid := Img.valid i, value := BitVec.ofNat 160 (Img.bits i 447 288), mask := BitVec.ofNat 160 (Img.bits i 255 96) }
  let e := { e with par := BitVec.ofNat 4 (nibbleXor e.core) }
  let d := match td.tkey n with
    | some k => { d with mat := { d.mat with tcam := mset {} d.mat.tcam k e } }
    | none => d
  d.twrite td.sl (td.raddr n) (beBytes 4 (Img.bits i 479 448))

/-- VALID of TCAM entry n is cleared (R179). -/
def Dev.tcClear (d : Dev) (td : TDesc) (n : Nat) : Dev :=
  match td.tkey n with
  | some k =>
    let e := { d.tcGet td n with valid := false }
    { d with mat := { d.mat with tcam := mset {} d.mat.tcam k { e with par := BitVec.ofNat 4 (nibbleXor e.core) } } }
  | none => d

/-- A TCAM entry fails its check: its parity, or an uncorrectable error in its result word (R191, R192). -/
def Dev.tcBad (d : Dev) (td : TDesc) (n : Nat) : Bool := ! (d.tcGet td n).ok || d.tbad td.sl (td.raddr n) 4

/-- The listed TCAM entries of a sash in order of entry number; every other entry is not valid. -/
def Dev.tcListed (d : Dev) (td : TDesc) (sash : Nat) : List (Nat × TcamEntry) :=
  let lo := (td.sl * 64 + td.block) * 1024 + td.tnum sash 0
  let hi := min (lo + td.blocks * 1024) ((td.sl * 64 + 64) * 1024)
  (d.mat.tcam.filter fun x => decide (lo ≤ x.1) && decide (x.1 < hi)).map fun x => (x.1 - lo, x.2)

/-- The lowest valid entry of good parity that matches a key (R160), and the entries that fail their parity. -/
def Dev.tcFind (d : Dev) (td : TDesc) (sash : Nat) (key : Nat) : Option Nat × List Nat :=
  let l := d.tcListed td sash
  let m := fun (x : Nat × TcamEntry) => x.2.valid && x.2.ok && (key &&& x.2.mask.toNat) == (x.2.value.toNat &&& x.2.mask.toNat)
  ((findFirst m l).map (·.1), (l.filter fun (x : Nat × TcamEntry) => ! x.2.ok).map (·.1))

/-- The address of direct entry x of a sash (R161). -/
def TDesc.daddr (td : TDesc) (sash x : Nat) : Nat := td.base + 8 * (sash * 2 ^ td.slog + x)

/-- The image of a direct entry: bits 511:448 are its 8 B (R177). -/
def Dev.drImg (d : Dev) (td : TDesc) (sash x : Nat) : Img := BitVec.ofNat 512 ((beNat (d.tread td.sl (td.daddr sash x) 8)) <<< 448)

/-- A direct entry's parity (R190). -/
def Img.directPar (i : Img) : Nat := nibbleXor (Img.put (BitVec.ofNat 512 ((i.toNat >>> 448) <<< 448)) 510 507 0).toNat

/-- A direct entry fails its check (R191, R192). -/
def Dev.drBad (d : Dev) (td : TDesc) (sash x : Nat) : Bool :=
  let i := d.drImg td sash x
  Img.bits i 510 507 != Img.directPar i || d.tbad td.sl (td.daddr sash x) 8

/-- A direct entry is written from an image: VALID, PAR and RESULT, zeros elsewhere (R161). -/
def Dev.drPut (d : Dev) (td : TDesc) (sash x : Nat) (i : Img) : Dev :=
  let e : Img := BitVec.ofNat 512 ((if Img.valid i then 2 ^ 511 else 0) + (Img.bits i 479 448) <<< 448)
  let e := Img.put e 510 507 (Img.directPar e)
  d.twrite td.sl (td.daddr sash x) (beBytes 8 (Img.bits e 511 448))

/-- A detection of a bad entry (R191): counted; a new address is logged with event 176, or lost with event 179 while 16 are held. -/
def Dev.badDetect (d : Dev) (s t kind sash idx : Nat) : Dev :=
  let d := d.count (Ct.TBL_BAD_CNT (64 * s + t)) 1
  let n := d.fget F.TBL_BADLOG_CTL.COUNT [s]
  let same := fun i => d.fget F.TBL_BADLOG.KIND [s, i] == kind && d.fget F.TBL_BADLOG.TABLE [s, i] == t &&
    d.fget F.TBL_BADLOG.SASH [s, i] == sash && d.fget F.TBL_BADLOG.INDEX [s, i] == idx
  if (List.range n).any same then d
  else if n < 16 then
    let d := d.fsets [(F.TBL_BADLOG.VALID, 1), (F.TBL_BADLOG.KIND, kind), (F.TBL_BADLOG.TABLE, t), (F.TBL_BADLOG.SASH, sash),
      (F.TBL_BADLOG.INDEX, idx)] [s, n]
    (d.fset F.TBL_BADLOG_CTL.COUNT [s] (n + 1)).raise Ev.TBL_BAD_ENTRY (64 * s + t) (unitSlice s)
  else ((d.count (Ct.TBL_BADLOG_LOST_CNT s) 1).fset F.TBL_BADLOG_CTL.OVERRUN [s] 1).raise Ev.TBL_BADLOG_OVERRUN s (unitSlice s)

/-- Several detections of one table and sash. -/
def Dev.badAll (d : Dev) (td : TDesc) (kind sash : Nat) (l : List Nat) : Dev :=
  l.foldl (fun (d : Dev) i => d.badDetect td.sl td.t kind sash i) d

/-- The bad-entry log is emptied (R191). -/
def Dev.badlogClear (d : Dev) (s : Nat) : Dev :=
  let d := (List.range 16).foldl (fun (d : Dev) i => d.rset .TBL_BADLOG [s, i] 0) d
  d.fsets [(F.TBL_BADLOG_CTL.COUNT, 0), (F.TBL_BADLOG_CTL.CLEAR, 0)] [s]

/-- The key bytes that the ranges of a table supply from a header vector, as far as its usable key length (R156). -/
def TDesc.hvBytes (td : TDesc) (h : Hv) : List Byte :=
  let rng := fun k => Hv.bytes h (wbits td.key (16 * k + 15) (16 * k + 6)) (wbits td.key (16 * k + 5) (16 * k))
  (rng 0 ++ rng 1 ++ rng 2 ++ rng 3).take td.klen

/-- The key that a lookup of an exact or a TCAM table forms from a header vector: left-aligned, the bytes after it 0 (R156, R441). -/
def TDesc.hvKey (td : TDesc) (h : Hv) : List Byte :=
  let l := td.hvBytes h
  l ++ List.replicate (td.klen - l.length) 0

/-- The index that a lookup of a direct table forms from a header vector: the key bytes that its ranges supply, as an unsigned big-endian
number (R161). -/
def TDesc.hvIndex (td : TDesc) (h : Hv) : Nat := beNat (td.hvBytes h)

/-- What a lookup comes to before any effect (R157, R191): the hit's INDEX, RESULT and data, and the addresses found bad, as KIND and
INDEX. -/
structure LookOut where
  sash : Nat
  hit : Option (Nat × Nat × List Byte)
  img : Img
  bads : List (Nat × Nat)

/-- The data of a hit (R157), and whether it reads with an uncorrectable error. -/
def Dev.dataOf (d : Dev) (td : TDesc) (result : Nat) : List Byte × Bool :=
  let a := 16 * (result % 2 ^ 18)
  (d.tread td.sl a td.dlen, d.tbad td.sl a td.dlen)

/-- A found RESULT with its data: a hit, or a miss where the data word is uncorrectable (R191). -/
def Dev.withData (d : Dev) (td : TDesc) (sash idx result : Nat) (img : Img) (bads : List Nat) : LookOut :=
  let (data, bad) := d.dataOf td result
  if bad then { sash := sash, hit := none, img := img, bads := bads.map ((0, ·)) ++ [(1, result % 2 ^ 18)] }
  else { sash := sash, hit := some (idx, result, data), img := img, bads := bads.map ((0, ·)) }

/-- A lookup of a table with the sash of a stamp (R156 to R161). -/
def Dev.look (d : Dev) (td : TDesc) (h : Hv) (stamp : Word) : LookOut :=
  let sash := td.sash stamp
  let key := td.hvKey h
  match td.kind with
  | .unused => { sash := sash, hit := none, img := 0, bads := [] }
  | .exact =>
    match d.exFind td sash key with
    | (some (i, e), bads) => d.withData td sash i (Img.result e) e bads
    | (none, bads) => { sash := sash, hit := none, img := 0, bads := bads.map ((0, ·)) }
  | .tcam =>
    match d.tcFind td sash (beNat key) with
    | (some i, bads) =>
      let n := td.tnum sash i
      if d.tbad td.sl (td.raddr n) 4 then { sash := sash, hit := none, img := 0, bads := (bads ++ [i]).map ((0, ·)) }
      else d.withData td sash i (beNat (d.tread td.sl (td.raddr n) 4)) 0 bads
    | (none, bads) => { sash := sash, hit := none, img := 0, bads := bads.map ((0, ·)) }
  | .direct =>
    let x := td.hvIndex h
    if 2 ^ td.slog ≤ x then { sash := sash, hit := none, img := 0, bads := [] }
    else if d.drBad td sash x then { sash := sash, hit := none, img := 0, bads := [(0, x)] }
    else
      let i := d.drImg td sash x
      if Img.valid i then d.withData td sash x (Img.bits i 479 448) i [] else { sash := sash, hit := none, img := 0, bads := [] }

/-- A message of the learn ring goes to every other slice that shares the table (R186); when 64 wait, a touch is discarded. -/
def Dev.ringSend (d : Dev) (s t : Nat) (op : RingOp) : Dev :=
  if ! d.fbit F.TBL_LEARN.SHARE [s, t] then d
  else (List.range 32).foldl (fun (d : Dev) r =>
    if r == s || ! d.fbit F.TBL_LEARN.SHARE [r, t] then d
    else
      let full := decide (64 ≤ (d.mat.ring.filter fun (m : RingMsg) => m.slice == r).length)
      match op with
      | .touch _ => if full then d else { d with mat := { d.mat with ring := d.mat.ring ++ [{ slice := r, table := t, op := op }] } }
      | _ => { d with mat := { d.mat with ring := d.mat.ring ++ [{ slice := r, table := t, op := op }] } }) d

/-- The effects of a lookup: bad entries are detected, an exact hit sets HIT, and in a sharing table sends a touch (R157, R186, R191). -/
def Dev.lookFx (d : Dev) (td : TDesc) (o : LookOut) : Dev :=
  let d := o.bads.foldl (fun (d : Dev) x => d.badDetect td.sl td.t x.1 o.sash x.2) d
  match o.hit, td.kind with
  | some (i, _, _), .exact =>
    let e := d.exGet td o.sash i
    if Img.hit e then d
    else (d.exStore td o.sash i (Img.put e 510 510 1)).ringSend td.sl td.t (.touch (td.keyOf e))
  | _, _ => d

end Sys2Proof.Machine
end

