-- ==== Sys2Proof/Machine/Meters.lean ====
section
/-! DEFINITION. Random draws, and the meters of a slice (R258 to R261). -/

namespace Sys2Proof.Machine

set_option cleanup.letToHave false

/-- A choice made with probability 2^-k by a generator whose values the spec does not give (R235, R266, R267): a free value decides
(log entry 2). -/
def Dev.chance (d : Dev) (k : Nat) : Dev × Bool :=
  if k = 0 then (d, true) else (d.drawn, d.freeNow.toNat % 2 ^ k == 0)

/-- Units of a bucket per byte (MeterTok). -/
def meterUnit : Nat := 8192000000

/-- The buckets of meter i of slice s, as last brought up to date. -/
def Dev.meter (d : Dev) (s i : Nat) : MeterTok := mget {} d.mat.meters (s * 65536 + i)

/-- The two-rate mode (MTR_A.MODE). -/
def Dev.twoRate (d : Dev) (s i : Nat) : Bool := d.fgetB F.MTR_A.MODE [s, i] == 1

/-- A meter's bursts in bucket units. -/
def Dev.meterCbs (d : Dev) (s i : Nat) : Int := ((d.fgetB F.MTR_A.CBS [s, i] * meterUnit : Nat) : Int)
def Dev.meterXbs (d : Dev) (s i : Nat) : Int := ((d.fgetB F.MTR_B.XBS [s, i] * meterUnit : Nat) : Int)

/-- The buckets of a meter brought up to fabric time (R258, R259): neither rises above its burst; in single-rate mode what TC cannot
hold flows into TX. -/
def Dev.meterNow (d : Dev) (s i : Nat) : MeterTok :=
  let m := d.meter s i
  let dt := d.fab - m.time
  let tc := m.tc + ((d.fgetB F.MTR_A.CIR [s, i] * dt : Nat) : Int)
  let cbs := d.meterCbs s i
  let more : Int := if d.twoRate s i then ((d.fgetB F.MTR_B.PIR [s, i] * dt : Nat) : Int) else max 0 (tc - max cbs m.tc)
  { tc := min tc cbs, tx := min (m.tx + more) (d.meterXbs s i), time := d.fab }

/-- A meter's buckets are stored. -/
def Dev.meterSet (d : Dev) (s i : Nat) (m : MeterTok) : Dev :=
  { d with mat := { d.mat with meters := mset {} d.mat.meters (s * 65536 + i) m } }

/-- The meter's decision on b bytes with an input colour (R259): the output colour, and whether TC and TX are charged. -/
def meterDecide (two : Bool) (m : MeterTok) (b : Int) (input : Nat) : Nat × Bool × Bool :=
  if two then
    if input = 2 ∨ m.tx < b then (2, false, false)
    else if input = 1 ∨ m.tc < b then (1, false, true)
    else (0, true, true)
  else if input = 0 ∧ b ≤ m.tc then (0, true, false)
  else if input ≠ 2 ∧ b ≤ m.tx then (1, false, true)
  else (2, false, false)

/-- Meter i of slice s runs on b bytes with an input colour (R259, R260): its output colour, and the buckets charged. -/
def Dev.meterRun (d : Dev) (s i b colour : Nat) : Dev × Nat × Bool × Bool :=
  let d := (d.applyB .MTR_A [s, i]).applyB .MTR_B [s, i]
  let k := s * 65536 + i
  let tally := fun (d : Dev) (c : Nat) =>
    d.count (if c = 0 then Ct.MTR_GREEN_CNT k else if c = 1 then Ct.MTR_YELLOW_CNT k else Ct.MTR_RED_CNT k) 1
  if ! d.fbitB F.MTR_A.EN [s, i] then
    let c := min 2 colour
    (tally d c, c, false, false)
  else
    let m := d.meterNow s i
    let input := if d.fbitB F.MTR_A.AWARE [s, i] then min 2 colour else 0
    let u : Int := ((b * meterUnit : Nat) : Int)
    let (c, ctc, ctx) := meterDecide (d.twoRate s i) m u input
    let m := { m with tc := if ctc then m.tc - u else m.tc, tx := if ctx then m.tx - u else m.tx }
    (tally (d.meterSet s i m) c, c, ctc, ctx)

/-- The remaining bytes of a frame metered before its length was known are subtracted from the buckets it charged (R260). -/
def Dev.meterSettle (d : Dev) (s : Nat) (more : Nat) (l : List (Nat × Bool × Bool)) : Dev :=
  l.foldl (fun (d : Dev) x =>
    let m := d.meterNow s x.1
    let u : Int := ((more * meterUnit : Nat) : Int)
    d.meterSet s x.1 { m with tc := if x.2.1 then m.tc - u else m.tc, tx := if x.2.2 then m.tx - u else m.tx }) d

/-- A write of MTR_A or MTR_B (R261): the buckets are brought up to date with the old rates, `w` makes the write, and buckets above
their new bursts are held to them; with RESET = 1 both are filled. -/
def Dev.meterWrite (d : Dev) (s i : Nat) (w : Dev → Dev) : Dev :=
  let m := d.meterNow s i
  let d := (((w (d.meterSet s i m)).applyB .MTR_A [s, i])).applyB .MTR_B [s, i]
  let cbs := d.meterCbs s i
  let xbs := d.meterXbs s i
  let full := d.fbit F.MTR_A.RESET [s, i]
  let m := { m with tc := if full then cbs else min m.tc cbs, tx := if full then xbs else min m.tx xbs }
  (d.meterSet s i m).fset F.MTR_A.RESET [s, i] 0

/-- METER_RESET (R261). -/
def Dev.meterReset (d : Dev) (s i : Nat) : Dev := d.meterWrite s i fun d => d.fset F.MTR_A.RESET [s, i] 1

end Sys2Proof.Machine
end

