-- ==== Sys2Proof/Machine/Shapers.lean ====
section
/-! DEFINITION. Shapers (R254 to R257): credit, the calendar wheels, and charging. -/

namespace Sys2Proof.Machine

set_option cleanup.letToHave false

/-- Units of credit per byte (ShaperSt). -/
def shpUnit : Nat := 524288000

/-- The key of the shaper of member k of MAC slot m of slice s. -/
def shpKey (s m k : Nat) : Nat := (s * 32 + m) * 64 + k

/-- What lies behind a shaper. -/
def Dev.shaper (d : Dev) (s m k : Nat) : ShaperSt := mget {} d.que.shapers (shpKey s m k)

/-- A shaper's state is stored. -/
def Dev.shaperSet (d : Dev) (s m k : Nat) (x : ShaperSt) : Dev :=
  { d with que := { d.que with shapers := mset {} d.que.shapers (shpKey s m k) x } }

/-- A shaper's rate in force, and the most credit it may hold (SHP_CFG). -/
def Dev.shpRate (d : Dev) (s m k : Nat) : Nat := max 1 (min 1600000 (d.fgetB F.SHP_CFG.RATE [s, m, k]))
def Dev.shpCap (d : Dev) (s m k : Nat) : Int := ((256 * atLeast1 (d.fgetB F.SHP_CFG.BURST [s, m, k]) * shpUnit : Nat) : Int)

/-- The credit at the present fabric time (R254). -/
def Dev.shpCredit (d : Dev) (s m k : Nat) : Int :=
  let x := d.shaper s m k
  min (d.shpCap s m k) (x.credit + ((d.shpRate s m k * (d.fab - x.time) : Nat) : Int))

/-- A shaper is enabled. -/
def Dev.shpEn (d : Dev) (s m k : Nat) : Bool := d.fbitB F.SHP_CFG.EN [s, m, k]

/-- A shaper lets its member be selected (R254, R257). -/
def Dev.shpEligible (d : Dev) (s m k : Nat) : Bool := ! d.shpEn s m k || d.fbit F.SHP_STAT.ELIG [s, m, k]

/-- The fine slot of an eligible time: the first whose start is at or after it (R255). -/
def fineSlot (e : Nat) : Nat := ceilDiv e (ns 2) * ns 2
/-- The span of the fine wheel, which is also a coarse slot (R255). -/
def fineSpan : Nat := ns 8192

/-- A shaper whose credit is negative is entered in its wheel (R255). -/
def Dev.shpEnter (d : Dev) (s m k : Nat) (credit : Int) : Dev :=
  let e := d.fab + ceilDiv (-credit).toNat (d.shpRate s m k)
  let fine := decide (e < d.fab + fineSpan)
  let d := d.shaperSet s m k { credit := credit, time := d.fab, entry := some (if fine then fineSlot e else e) }
  d.fsets [(F.SHP_STAT.ELIG, 0), (F.SHP_STAT.WHEEL, if fine then 0 else 1)] [s, m, k]

/-- A shaper is charged n bytes (R253, R254); new RATE and BURST take effect, and the credit is held to the new BURST (R257). -/
def Dev.shpCharge (d : Dev) (s m k : Nat) (n : Int) : Dev :=
  if ! d.shpEn s m k then d
  else
    let c := d.shpCredit s m k
    let d := d.applyB .SHP_CFG [s, m, k]
    let c := min c (d.shpCap s m k) - n * shpUnit
    let x := d.shaper s m k
    if 0 ≤ c then d.shaperSet s m k { x with credit := c, time := d.fab }
    else if x.entry.isSome then d.shaperSet s m k { x with credit := c, time := d.fab }
    else d.shpEnter s m k c

/-- A shaper is enabled: its credit starts at BURST × 256 B (R254); disabled, it keeps no credit and no wheel entry (R257). -/
def Dev.shpSwitch (d : Dev) (s m k : Nat) (on : Bool) : Dev :=
  let cap := ((256 * atLeast1 (d.fget F.SHP_CFG.BURST [s, m, k]) * shpUnit : Nat) : Int)
  let d := d.shaperSet s m k (if on then { credit := cap, time := d.fab } else {})
  d.fsets [(F.SHP_STAT.ELIG, 1), (F.SHP_STAT.WHEEL, 0)] [s, m, k]

/-- The entries that the fine wheel of a slice has released in a slot. -/
def Dev.shpReleased (d : Dev) (s slot : Nat) : Nat :=
  match findFirst (fun (x : Nat × Nat × Nat) => x.1 == s && x.2.1 == slot) d.que.released with
  | some x => x.2.2
  | none => 0

/-- A shaper's fine slot begins (R255, R256): it becomes eligible; a 33rd release of a slot waits for the next slot and is late. -/
def Dev.shpRelease (d : Dev) (s m k : Nat) : Dev :=
  let x := d.shaper s m k
  match x.entry with
  | none => d
  | some e =>
    if d.fab < e ∨ d.fbit F.SHP_STAT.WHEEL [s, m, k] then d
    else
      let n := d.shpReleased s e
      if 32 ≤ n then
        let d := d.shaperSet s m k { x with entry := some (e + ns 2) }
        (d.count (Ct.SHP_LATE_CNT s) 1).raiseLimited Ev.SHP_LATE s (unitSlice s) (ms 1)
      else
        let d : Dev := { d with que := { d.que with released := (d.que.released.filter fun (y : Nat × Nat × Nat) => y.1 != s) ++ [(s, e, n + 1)] } }
        let c : Int := Dev.shpCredit d s m k
        if c < 0 then d.shpEnter s m k c
        else (d.shaperSet s m k { credit := c, time := d.fab }).fset F.SHP_STAT.ELIG [s, m, k] 1

/-- A coarse slot of a slice begins: its entries move to their fine slots; an entry beyond it stays coarse (R255). -/
def Dev.coarseSlot (d : Dev) (s : Nat) : Dev :=
  let mine := d.que.shapers.filter fun (x : Nat × ShaperSt) => x.1 / 2048 == s && x.2.entry.isSome
  mine.foldl (fun (d : Dev) x =>
    let m := x.1 / 64 % 32
    let k := x.1 % 64
    match x.2.entry with
    | some e =>
      if d.fbit F.SHP_STAT.WHEEL [s, m, k] && decide (e < d.fab + fineSpan) then
        (d.shaperSet s m k { x.2 with entry := some (fineSlot (max e d.fab)) }).fset F.SHP_STAT.WHEEL [s, m, k] 0
      else d
    | none => d) d

end Sys2Proof.Machine
end

