-- ==== Sys2Proof/Machine/Cells.lean ====
section
/-! DEFINITION. The shared buffer (R195 to R212): owners, charging and uncharging of cells, flight, priority flow control frames, and
the end of a copy. -/

namespace Sys2Proof.Machine

set_option cleanup.letToHave false

/-- Cells of the shared buffer, of a partition, and of a cluster (R195, R16). -/
def cellTotal : Nat := 1310720
def clusterCells : Nat := 327680

/-- A cell pointer names a cell (R195). -/
def cellPtrOk (c : Nat) : Bool := decide (c < 2 ^ 21) && decide (bitsN c 13 0 < 10240)
/-- The cluster of a cell (R16). -/
def cellCluster (c : Nat) : Nat := bitsN c 20 17 / 4
/-- The cells of a frame of n bytes (R195). -/
def cellsOf (n : Nat) : Nat := ceilDiv n 256

/-- The keys of a PG and of a queue, and of what they hold in a service pool. -/
def pgKey (p g : Nat) : Nat := p * 8 + g
def qKey (p q : Nat) : Nat := 32 * p + q
def pgPoolKey (pg pool : Nat) : Nat := pg * 4 + pool
def qPoolKey (q pool : Nat) : Nat := 2 ^ 20 + q * 4 + pool

/-- Cells charged to a PG in every category. -/
def Dev.pgCells (d : Dev) (pg : Nat) : Nat := mget 0 d.buf.pgCount pg
/-- Shared cells of an owner in a pool. -/
def Dev.ownCells (d : Dev) (k : Nat) : Nat := mget 0 d.buf.ownPool k

/-- Free cells of a cluster, front caches included (R198, R204). -/
def Dev.clusterFree (d : Dev) (c : Nat) : Nat :=
  clusterCells - (d.buf.cells.filter fun (x : Nat × CellSt) => cellCluster x.1 == c).length

/-- A field that counts goes up or down by one. -/
def Dev.fadd (d : Dev) (f : Fld) (ix : List Nat) (up : Bool) : Dev :=
  let v := d.fget f ix
  d.fset f ix (if up then v + 1 else v - 1)

/-- BUF_STATUS.QUIESCED: HOLD = 1, no cell held or in flight, staging stores empty (BUF_STATUS). -/
def Dev.showBuf (d : Dev) : Dev :=
  d.fset F.BUF_STATUS.QUIESCED [] (if d.fbit F.BUF_CTL.HOLD [] && d.buf.cells.isEmpty && d.buf.voq.isEmpty && d.buf.crossed.isEmpty then 1 else 0)

/-- BUF_PORT[p].QUIESCED: HOLD = 1, and no cell charged to the port's PGs or queues. -/
def Dev.showBufPort (d : Dev) (p : Nat) : Dev :=
  let idle := (List.range 8).all (fun g => d.pgCells (pgKey p g) == 0) && (List.range 20).all fun q => d.fget F.BUF_EQ_STAT.ONDIE [p, q] == 0
  d.fset F.BUF_PORT.QUIESCED [p] (if d.fbit F.BUF_PORT.HOLD [p] && idle then 1 else 0)

/-- The exponent of a threshold: signed k, −7 to +3 (R203). -/
def alphaOf (v : Nat) : Int := max (-7) (min 3 (sext 4 v))

/-- A dynamic threshold 2^k × F in 1/128 cell, F the pool's free size (R203). -/
def Dev.threshold (d : Dev) (alpha pool extra : Nat) : Nat :=
  (d.fget F.BUF_SP.SIZE [pool] - (d.fget F.BUF_SP.USE [pool] + extra)) * 2 ^ (alphaOf alpha + 7).toNat

/-- A frame of the device leaves port p (LN_TX_FRAMES, LN_TX_BYTES); `ok` says that it ends with a terminate character. -/
def Dev.portEmit (d : Dev) (p : Nat) (bytes : List Byte) (ok : Bool) : Dev :=
  let d := (d.count (Ct.LN_TX_FRAMES p) 1).count (Ct.LN_TX_BYTES p) bytes.length
  { d with lane := { d.lane with sent := (p, bytes, ok) :: d.lane.sent } }

/-- A PFC frame (IEEE 802.1Qbb): opcode 0x0101 to 01-80-C2-00-00-01, the priority vector and eight timers. -/
def Dev.pfcFrame (d : Dev) (mask quanta : Nat) : List Byte :=
  let body := beBytes 6 0x0180C2000001 ++ beBytes 6 (d.ctlMac 0) ++ beBytes 2 0x8808 ++ beBytes 2 0x0101 ++ beBytes 2 mask ++
    (List.range 8).flatMap fun i => beBytes 2 (if bitN mask i then quanta else 0)
  let body := body ++ List.replicate (60 - body.length) 0
  body ++ fcsOf body

/-- A port sends a PFC frame (R207), for which its transmitter leaves quiet (R303). -/
def Dev.pfcSend (d : Dev) (p mask quanta : Nat) : Dev :=
  if ! d.fbitB F.BUF_PORT.PFC_TX [p] || ! d.portUp p || mask = 0 then d
  else ((d.fset F.LN_PSTAT.TXQ [p] 0).portEmit p (d.pfcFrame mask quanta) true).count (Ct.BUF_PFC_TX_CNT p) 1

/-- QUANTA in force of a PG; 0 acts as 1. -/
def Dev.pgQuanta (d : Dev) (p g : Nat) : Nat := atLeast1 (d.fgetB F.BUF_IPG_A.QUANTA [p, g])

/-- n pause quanta of 512 bit times at a port's rate, in 2^-16 ns (R207, R208). -/
def Dev.quantaTime (d : Dev) (p n : Nat) : Nat := if d.portGbps p = 0 then 0 else n * 512 * 65536 / d.portGbps p

/-- The priorities named by the other PGs of a port that are in XOFF (R207). -/
def Dev.otherXoff (d : Dev) (p g : Nat) : Nat :=
  (List.range 8).foldl (fun a h => if h != g && d.fbit F.BUF_IPG_STAT.XOFF [p, h] then a ||| d.fgetB F.BUF_IPG_A.PRIMASK [p, h] else a) 0

/-- A lossless PG enters or leaves XOFF as its cells change in a pool (R207). -/
def Dev.pgCheck (d : Dev) (pg pool : Nat) : Dev :=
  let p := pg / 8
  let g := pg % 8
  if ! d.fbit F.BUF_IPG_A.LOSSLESS [p, g] then d
  else
    let sh := 128 * d.fget F.BUF_IPG_STAT.SHARED [p, g]
    let low := min (128 * d.fgetB F.BUF_IPG_B.XOFF [p, g]) (d.threshold (d.fgetB F.BUF_IPG_A.ALPHA [p, g]) pool 0)
    let mask := d.fgetB F.BUF_IPG_A.PRIMASK [p, g]
    let k := pgKey p g
    if ! d.fbit F.BUF_IPG_STAT.XOFF [p, g] then
      if low ≤ sh then
        let d := (d.fset F.BUF_IPG_STAT.XOFF [p, g] 1).pfcSend p mask (d.pgQuanta p g)
        { d with buf := { d.buf with pfcNext := mins d.buf.pfcNext k (d.now + d.quantaTime p (d.pgQuanta p g) / 2) } }
      else d
    else if d.fget F.BUF_IPG_STAT.HUSE [p, g] = 0 ∧ sh + 128 * 16 * d.fgetB F.BUF_IPG_B.XON_DELTA [p, g] ≤ low then
      let d : Dev := { d with buf := { d.buf with pfcNext := mdel d.buf.pfcNext k } }
      let d := d.fset F.BUF_IPG_STAT.XOFF [p, g] 0
      d.pfcSend p (mask &&& (255 - d.otherXoff p g)) 0
    else d

/-- The repeat of a PG in XOFF falls due (R207). -/
def Dev.pfcRepeat (d : Dev) (p g : Nat) : Dev :=
  match mget? d.buf.pfcNext (pgKey p g) with
  | some t =>
    if t ≤ d.now ∧ d.fbit F.BUF_IPG_STAT.XOFF [p, g] then
      let d := d.pfcSend p (d.fgetB F.BUF_IPG_A.PRIMASK [p, g]) (d.pgQuanta p g)
      { d with buf := { d.buf with pfcNext := mins d.buf.pfcNext (pgKey p g) (d.now + d.quantaTime p (d.pgQuanta p g) / 2) } }
    else d
  | none => d

/-- A count of a sparse map goes up or down by one. -/
def mbump (m : List (Nat × Nat)) (k : Nat) (up : Bool) : List (Nat × Nat) := mset 0 m k (if up then mget 0 m k + 1 else mget 0 m k - 1)

/-- A cell's charge to its PG and its pool goes up or down (R201, R206). -/
def Dev.chargePg (d : Dev) (c : CellSt) (up : Bool) : Dev :=
  let d := match c.pg with
    | some pg =>
      let d : Dev := { d with buf := { d.buf with pgCount := mbump d.buf.pgCount pg up,
                                                  ownPool := if c.cat = .shared then mbump d.buf.ownPool (pgPoolKey pg c.pool) up else d.buf.ownPool } }
      match c.cat with
      | .shared => d.fadd F.BUF_IPG_STAT.SHARED [pg / 8, pg % 8] up
      | .headroom => d.fadd F.BUF_IPG_STAT.HUSE [pg / 8, pg % 8] up
      | .reserved => d
    | none => d
  let d := match c.cat with
    | .shared => d.fadd F.BUF_SP.USE [c.pool] up
    | .headroom => d.fadd F.BUF_HDRM.USE [] up
    | .reserved => d
  match c.pg with
  | some pg => (d.pgCheck pg c.pool).showBufPort (pg / 8)
  | none => d

/-- A cell's charge to one destination queue goes up or down (R201, R206). -/
def Dev.chargeQ (d : Dev) (c : CellSt) (p q : Nat) (up : Bool) : Dev :=
  let d := d.fadd F.BUF_EQ_STAT.ONDIE [p, q] up
  let d := if c.cat = .shared then
      Dev.fadd { d with buf := { d.buf with ownPool := mbump d.buf.ownPool (qPoolKey (qKey p q) c.pool) up } } F.BUF_EQ_STAT.SHARED [p, q] up
    else d
  d.showBufPort p

/-- A cell is allocated and charged to its owners (R198, R201): reserved while its PG's or a queue's count is below its MIN, otherwise
shared or headroom by the frame's admission. `cs` are the copies that use it. -/
def Dev.cellAlloc (d : Dev) (ptr : Nat) (cs : List Copy) : Dev :=
  match cs with
  | [] => d
  | c :: _ =>
    let pgLow := match c.pg with
      | some pg => decide (d.pgCells pg < d.fget F.BUF_IPG_A.MIN [pg / 8, pg % 8])
      | none => false
    let qLow := cs.any fun (c : Copy) => decide (d.fget F.BUF_EQ_STAT.ONDIE [c.port, c.queue] < d.fget F.BUF_EQ.MIN [c.port, c.queue])
    let cat : CellCat := if pgLow || qLow then .reserved else if c.toHeadroom then .headroom else .shared
    let st : CellSt := { cat := cat, pg := c.pg, pool := c.pool, copies := cs.map fun (c : Copy) => c.id, since := d.now }
    let d : Dev := { d with buf := { d.buf with cells := mins d.buf.cells ptr st } }
    let d := d.fset F.BUF_FREE.FREE [] (d.fget F.BUF_FREE.FREE [] - 1)
    let d := cs.foldl (fun (d : Dev) c => (d.chargeQ st c.port c.queue true).copyMod c.id fun (x : Copy) => { x with cells := x.cells ++ [ptr] }) d
    (d.chargePg st true).showBuf

/-- A free of a cell whose state bit is clear is refused (R199). -/
def Dev.doubleFree (d : Dev) (ptr unit : Nat) : Dev :=
  let d := d.count (Ct.BUF_DFREE_CNT 0) 1
  let d :=
    if d.fbit F.BUF_DFREE_LOG.VALID [] then d.fset F.BUF_DFREE_LOG.OVERRUN [] 1
    else d.fsets [(F.BUF_DFREE_LOG.VALID, 1), (F.BUF_DFREE_LOG.UNIT, unit), (F.BUF_DFREE_LOG.CELL, ptr)] []
  d.raise Ev.BUF_DFREE 0 unitDev

/-- One copy has done with a cell (R198, R206): its queue is uncharged, and with the last copy the PG and the pool; the cell then goes
into flight. -/
def Dev.cellLeave (d : Dev) (ptr : Nat) (c : Copy) : Dev :=
  match mget? d.buf.cells ptr with
  | none => d.doubleFree ptr (d.portSlice c.port)
  | some st =>
    if st.inflight || ! st.copies.contains c.id then d.doubleFree ptr (d.portSlice c.port)
    else
      let left := st.copies.filter (· != c.id)
      let st' : CellSt := { st with copies := left, inflight := left.isEmpty }
      let d : Dev := { d with buf := { d.buf with cells := mins d.buf.cells ptr st' } }
      let d := d.chargeQ st c.port c.queue false
      if left.isEmpty then
        let d := d.fset F.BUF_FREE.INFLIGHT [] (d.fget F.BUF_FREE.INFLIGHT [] + 1)
        (d.chargePg st false).showBuf
      else d

/-- A cell in flight returns to the free store (R198); a free of a cell that is already free is refused (R199). -/
def Dev.cellReturn (d : Dev) (ptr unit : Nat) : Dev :=
  match mget? d.buf.cells ptr with
  | none => d.doubleFree ptr unit
  | some st =>
    if ! st.inflight then d
    else
      let d : Dev := { d with buf := { d.buf with cells := mdel d.buf.cells ptr } }
      (d.fsets [(F.BUF_FREE.INFLIGHT, d.fget F.BUF_FREE.INFLIGHT [] - 1), (F.BUF_FREE.FREE, d.fget F.BUF_FREE.FREE [] + 1)] []).showBuf

/-- Every cell of a copy is uncharged and goes into flight. -/
def Dev.copyUncharge (d : Dev) (c : Copy) : Dev :=
  (c.cells.foldl (fun (d : Dev) x => d.cellLeave x c) d).copyMod c.id fun (x : Copy) => { x with cells := [] }

/-- The stack of a page pointer and its pseudo-channel (R224). -/
def pageStack (p : Nat) : Nat := bitsN p 24 23
def pagePc (p : Nat) : Nat := bitsN p 22 18

/-- A stack's state changed by f. -/
def Dev.stackMod (d : Dev) (k : Nat) (f : StackSt → StackSt) : Dev := { d with spl := { d.spl with stk := lmod d.spl.stk k f } }
/-- A stack's state. -/
def Dev.stack (d : Dev) (k : Nat) : StackSt := d.spl.stk.getD k {}

/-- The pages that a queue holds (SPL_Q_STAT.PAGES). -/
def Dev.queuePages (d : Dev) (p q : Nat) : Nat := d.fget F.SPL_Q_STAT.PAGES [p, q]

/-- The pages of the pool: those of pseudo-channels not retired (R224, R242). -/
def Dev.stackPool (d : Dev) (k : Nat) : Nat :=
  195424 * ((List.range 32).filter fun c => ! bitN (d.fget F.SPL_STATUS.RETIRED [k]) c).length

/-- SHARED_FREE: the free pages less the unused part of every reserve (R229). -/
def Dev.showGpool (d : Dev) : Dev :=
  let free := ((List.range 4).map fun k => d.fget F.SPL_POOL.FREE [k]).sum
  let unused := (d.regs.filterMap fun (r : Nat × Word) =>
    let o := r.1 - RegName.addr .SPL_Q [0, 0]
    if RegName.addr .SPL_Q [0, 0] ≤ r.1 ∧ o < 128 * 1024 ∧ wbits r.2 63 63 = 1 then
      some (wbits r.2 16 0 - d.queuePages (o / 128) (o % 128 / 8)) else none).sum
  d.fset F.SPL_GPOOL.SHARED_FREE [] (free - unused)

/-- SPL_STATUS.QUIESCED: HOLD = 1 and no page held or in flight. -/
def Dev.showStack (d : Dev) (k : Nat) : Dev :=
  d.fset F.SPL_STATUS.QUIESCED [k] (if d.fbit F.SPL_CTL.HOLD [k] && ! (d.spl.pages.any fun (x : Nat × PageSt) => pageStack x.1 == k) then 1 else 0)

/-- A page is freed: it goes into flight (R227, R240); a free of a page that is not held is refused (R241). -/
def Dev.pageFree (d : Dev) (ptr : Nat) : Dev :=
  let k := pageStack ptr
  match mget? d.spl.pages ptr with
  | some st =>
    if st.inflight then d
    else
      let d : Dev := { d with spl := { d.spl with pages := mins d.spl.pages ptr { st with inflight := true } } }
      let d := d.fset F.SPL_POOL.INFLIGHT [k] (d.fget F.SPL_POOL.INFLIGHT [k] + 1)
      (d.fset F.SPL_Q_STAT.PAGES [st.queue / 32, st.queue % 32] (d.queuePages (st.queue / 32) (st.queue % 32) - 1)).showGpool
  | none =>
    let d := d.count (Ct.SPL_DFREE_CNT k) 1
    let d :=
      if d.fbit F.SPL_DFREE_LOG.VALID [k] then d.fset F.SPL_DFREE_LOG.OVERRUN [k] 1
      else d.fsets [(F.SPL_DFREE_LOG.VALID, 1), (F.SPL_DFREE_LOG.PAGE, ptr)] [k]
    d.raise Ev.SPL_DFREE k (unitStack k)

/-- A copy has left the pages of its queue's middle: those that no other copy uses are freed (R227); pages
lost with their pseudo-channel are gone already (R244). -/
def Dev.copyPages (d : Dev) (c : Copy) : Dev :=
  let used := fun (p : Nat) => (mget? d.spl.pages p).isNone || d.buf.copies.any fun (x : Copy) => x.id != c.id && x.pages.contains p
  let d := (c.pages.filter fun p => ! used p).foldl (fun (d : Dev) p => d.pageFree p) d
  let gone := c.pages.filter fun p => ! used p
  let d : Dev := { d with spl := { d.spl with fill := d.spl.fill.filter fun (x : Nat × Nat × Nat) => ! gone.contains x.2.1 } }
  d.copyMod c.id fun (x : Copy) => { x with pages := [], pcells := [] }

/-- The head segment's copies of a queue in order. -/
def Dev.headSeg (d : Dev) (p q : Nat) : List Copy :=
  d.buf.copies.filter fun (c : Copy) => c.port == p && c.queue == q && c.enqueued && c.seg == .head && ! c.selected

/-- The copies of a queue's middle in order: those whose data are, or are on their way to or from, pages (R225). -/
def Dev.middle (d : Dev) (p q : Nat) : List Copy :=
  d.buf.copies.filter fun (c : Copy) => c.port == p && c.queue == q && c.enqueued && (c.seg == .middle || c.seg == .spilling || c.seg == .returning)

/-- The present head of a queue is remembered, with the instant at which it became head; STUCK clears when a head departs (R210). -/
def Dev.headFix (d : Dev) (p q : Nat) : Dev :=
  let k := qKey p q
  let cells := ((d.headSeg p q).map fun (c : Copy) => c.cells.length).sum
  let d := if q < 16 then d.fset F.SPL_Q_STAT.HEADCELLS [p, q] cells else d
  match (d.headSeg p q).head? with
  | none => Dev.fset { d with buf := { d.buf with heads := mdel d.buf.heads k } } F.BUF_EQ_STAT.STUCK [p, q] 0
  | some c =>
    match mget? d.buf.heads k with
    | some h =>
      if h.copy = c.id then d
      else Dev.fset { d with buf := { d.buf with heads := mins d.buf.heads k { copy := c.id, last := d.now } } } F.BUF_EQ_STAT.STUCK [p, q] 0
    | none => { d with buf := { d.buf with heads := mins d.buf.heads k { copy := c.id, last := d.now } } }

/-- A copy ends: its cells go into flight, its pages are freed, and it is gone (R198, R227). -/
def Dev.copyGone (d : Dev) (i : Nat) : Dev :=
  match d.copy? i with
  | none => d
  | some c =>
    let d := (d.copyUncharge c).copyPages c
    let d : Dev := { d with buf := { d.buf with copies := d.buf.copies.filter fun (x : Copy) => x.id != i } }
    d.headFix c.port c.queue

/-- A copy whose bad status is known before its head leaves is dropped whole (R218). -/
def Dev.badTail (d : Dev) (i : Nat) : Dev :=
  match d.copy? i with
  | none => d
  | some c =>
    match c.bad with
    | some k => (d.count (Ct.BUF_BADTAIL_DROP_CNT (16 * c.port + k)) 1).copyGone i
    | none => d

/-- The copies that are bad, whose end is present on-die and whose head has not left, are dropped (R218); a truncated one at once. -/
def Dev.badTails (d : Dev) : Dev :=
  let l := d.buf.copies.filter fun (c : Copy) => c.bad.isSome && ! c.started && (c.cellsDone || c.bad == some 3)
  l.foldl (fun (d : Dev) c => d.badTail c.id) d

/-- The depth D of a queue in cells (R209): on-die cells and the data cells of spilled frames, without those of copy i. -/
def Dev.queueDepth (d : Dev) (p q i : Nat) : Nat :=
  let own := match d.copy? i with | some c => c.cells.length | none => 0
  let mid := (((d.middle p q).filter fun (c : Copy) => c.cells.isEmpty).map fun (c : Copy) => cellsOf (c.len.getD c.bytes.length)).sum
  d.fget F.BUF_EQ_STAT.ONDIE [p, q] - own + mid

/-- The pause timer of a priority still runs (R208). -/
def Dev.paused (d : Dev) (p q : Nat) : Bool :=
  let pri := wbits (d.rget .BUF_PORT_PFCQ [p]) (4 * q + 3) (4 * q)
  decide (q < 16) && decide (pri < 8) &&
    (match mget? d.buf.pause (p * 8 + pri) with
     | some t => decide (d.now < t)
     | none => false)

end Sys2Proof.Machine
end

