-- ==== Sys2Proof/Machine/Flags.lean ====
section
/-! DEFINITION. Conditions, comparisons and check values: the sequencer's CMP and ALU (R90, R91), ones' complement sums, and the CRCs
that the spec names. -/

namespace Sys2Proof.Machine

/-- The conditions of CMP (R91): 0 EQ, 1 NE, 2 LTU, 3 GEU, 4 LT, 5 GE, 6 ANY, 7 NONE. -/
def cmpCond (k : Nat) (a b : Word) : Bool :=
  match k with
  | 0 => a == b
  | 1 => a != b
  | 2 => a.ult b
  | 3 => ! a.ult b
  | 4 => a.slt b
  | 5 => ! a.slt b
  | 6 => (a &&& b) != 0
  | _ => (a &&& b) == 0

/-- The ALU operations (R90); 0xF has none. -/
def aluOp (k : Nat) (a b : Word) : Option Word :=
  let sh := b.toNat % 64
  match k with
  | 0 => some (a + b)
  | 1 => some (a - b)
  | 2 => some (a &&& b)
  | 3 => some (a ||| b)
  | 4 => some (a ^^^ b)
  | 5 => some (a <<< sh)
  | 6 => some (a >>> sh)
  | 7 => some (a.sshiftRight sh)
  | 8 => some (a * b)
  | 9 => some (BitVec.ofNat 64 ((a.toNat * b.toNat) / 2 ^ 64))
  | 10 => some (if b = 0 then allOnes64 else BitVec.ofNat 64 (a.toNat / b.toNat))
  | 11 => some (if b = 0 then a else BitVec.ofNat 64 (a.toNat % b.toNat))
  | 12 => some (if a.ult b then a else b)
  | 13 => some (if a.ult b then b else a)
  | 14 => some b
  | _ => none
where
  allOnes64 : Word := BitVec.ofNat 64 (2 ^ 64 - 1)

/-- The 16-bit words of a byte string, a last odd byte padded with zero. -/
def words16 : List Byte → List Nat
  | [] => []
  | [a] => [a.toNat * 256]
  | a :: b :: l => (a.toNat * 256 + b.toNat) :: words16 l

/-- A sum folded to 16 bits in ones' complement arithmetic. -/
def fold16 (n : Nat) : Nat := if n = 0 then 0 else (n - 1) % 65535 + 1

/-- The ones' complement sum of a byte string in 16-bit words. -/
def onesSum (l : List Byte) : Nat := fold16 (words16 l).sum

/-- The ones' complement of a 16-bit sum. -/
def onesNot (n : Nat) : Nat := 65535 - n % 65536

end Sys2Proof.Machine
end

