-- ==== Sys2Proof/Machine/Edits.lean ====
section
/-! DEFINITION. What is done to a frame's bytes after egress stage 11: the edit list and its checksum operations (R172), an IOAM fill
(R375 to R377), an ECN mark (R209). -/

namespace Sys2Proof.Machine

set_option cleanup.letToHave false

/-- The original position that a mark and an offset name: mark 6 is the frame start; a mark that reads 0x3FF names none (R170, R172). -/
def Hv.markPos (h : Hv) (mark off : Nat) : Option Nat :=
  if mark = 6 then some off else if h.mark mark = 0x3FF then none else some (h.mark mark + off)

/-- An edit with its position: what it does there (R172). -/
structure PlacedEdit where
  kind : Nat
  pos : Nat
  len : Nat
  data : List Byte

/-- The edits of a list placed by their marks; none where one uses a mark that reads 0x3FF. -/
def placeEdits (h : Hv) : List EditOp → Option (List PlacedEdit)
  | [] => some []
  | e :: l =>
    match h.markPos e.mark e.off, placeEdits h l with
    | some p, some r => some ({ kind := e.kind, pos := p, len := e.len, data := e.data } :: r)
    | _, _ => none

/-- The original positions that a placed edit touches end here: of its insertion point, or of its range. -/
def PlacedEdit.last (e : PlacedEdit) : Nat := if e.kind = 1 then e.pos else e.pos + e.len - 1

/-- The ranges of two replace or delete edits overlap (R172). -/
def editsOverlap : List PlacedEdit → Bool
  | [] => false
  | e :: l => (e.kind != 1 && l.any fun (x : PlacedEdit) => x.kind != 1 && decide (e.pos < x.pos + x.len) && decide (x.pos < e.pos + e.len)) ||
      editsOverlap l

/-- The strings inserted before original position i, in list order (R172). -/
def insertsAt (l : List PlacedEdit) (i : Nat) : List Byte := (l.filter fun (e : PlacedEdit) => e.kind == 1 && e.pos == i).flatMap (·.data)

/-- What becomes of the original byte at position i. -/
def editByte (l : List PlacedEdit) (i : Nat) (b : Byte) : List Byte :=
  match findFirst (fun (e : PlacedEdit) => e.kind != 1 && decide (e.pos ≤ i) && decide (i < e.pos + e.len)) l with
  | some e => if e.kind = 2 then [] else [e.data.getD (i - e.pos) 0]
  | none => [b]

/-- The rewritten bytes, from original position i on (R172). -/
def editRun (l : List PlacedEdit) : Nat → List Byte → List Byte
  | _, [] => []
  | i, b :: data => insertsAt l i ++ editByte l i b ++ editRun l (i + 1) data

/-- The rewritten position of the original byte at position p (R172). -/
def editMap (l : List PlacedEdit) (data : List Byte) (p : Nat) : Nat :=
  (editRun l 0 (data.take p)).length + (insertsAt l p).length

/-- One checksum operation on the rewritten bytes (R172): none where it fails the list. -/
def csumRun (h : Hv) (l : List PlacedEdit) (data : List Byte) (out : List Byte) (c : CsumOp) : Option (List Byte) :=
  match h.markPos c.fmark c.foff, h.markPos c.rmark c.roff with
  | some fp, some rp =>
    let f := editMap l data fp
    let r := editMap l data rp
    let lim := min 512 out.length
    if data.length ≤ fp ∨ data.length ≤ rp ∨ lim < f + 2 ∨ lim < r + c.rlen then none
    else if c.kind = 1 then some (overlay out f [0, 0])
    else
      let zero := overlay out f [0, 0]
      some (overlay out f (beBytes 2 (onesNot (onesSum (slice zero r c.rlen)))))
  | _, _ => none

/-- The checksum operations of a list in order. -/
def csumsRun (h : Hv) (l : List PlacedEdit) (data : List Byte) : List CsumOp → List Byte → Option (List Byte)
  | [], out => some out
  | c :: cs, out =>
    match csumRun h l data out c with
    | some o => csumsRun h l data cs o
    | none => none

/-- The end of the rewritten bytes that an IOAM fill reads or writes, as far as its trace header has arrived (R376). -/
def ioamEnd (h : Hv) (l : List PlacedEdit) (data out : List Byte) (op : IoamOp) : Nat :=
  match h.markPos op.mark op.off with
  | none => 0
  | some p =>
    let a := editMap l data p
    if out.length < a + 8 then a + 8 else a + 8 + 4 * (beNat (slice out (a + 2) 2) % 128)

/-- A frame that is still arriving, of which `data` is here, lacks bytes that the edit list touches within its first 512 (R172, R377), or
the IP header whose ECN field is marked (R209, `ecn` its place). -/
def listWaits (h : Hv) (data : List Byte) (edits : List EditOp) (csums : List CsumOp) (ioam : Option IoamOp) (ecn : Option Nat) : Bool :=
  match placeEdits h edits with
  | none => false
  | some l =>
    let out := editRun l 0 data
    let here := fun (need have' : Nat) => decide (need ≤ have') || decide (512 < need)
    let sumHere := fun (c : CsumOp) =>
      match h.markPos c.fmark c.foff, h.markPos c.rmark c.roff with
      | some fp, some rp => here (fp + 1) data.length && here (rp + 1) data.length && here (editMap l data fp + 2) out.length &&
          here (editMap l data rp + c.rlen) out.length
      | _, _ => true
    ! (l.all (fun (e : PlacedEdit) => here (e.last + 1) data.length) && csums.all sumHere &&
      (match ioam with | some op => here (min 512 (ioamEnd h l data out op)) out.length | none => true) &&
      (match ecn with | some p => here (p + 12) data.length | none => true))

/-- The two sizes of each IOAM data field (R376): bit, and bytes. -/
def ioamFields : List (Nat × Nat) :=
  [(0, 4), (1, 4), (2, 4), (3, 4), (4, 4), (5, 4), (6, 4), (7, 4), (8, 8), (9, 8), (10, 8), (11, 4), (22, 4)]

/-- What an IOAM fill comes to (R376): skipped, or the bytes rewritten. -/
inductive IoamRes where
  | skip
  | fill (out : List Byte)

/-- What an IOAM fill writes in each field (R376): the profile's registers and the copy's telemetry. -/
structure IoamVals where
  en : Bool
  nsany : Bool
  ns : Nat
  nodeId : Nat
  nsData : Nat
  hopLim : Nat
  inPort : Nat
  ePort : Nat
  dqTime : Nat
  residence : Nat
  qdepth : Nat
  poolUse : Nat

/-- The value of one IOAM data field (R376). -/
def IoamVals.field (v : IoamVals) (bit : Nat) : List Byte :=
  match bit with
  | 0 => beBytes 1 v.hopLim ++ beBytes 3 v.nodeId
  | 1 => beBytes 2 v.inPort ++ beBytes 2 v.ePort
  | 2 => beBytes 4 (tSec v.dqTime)
  | 3 => beBytes 4 (tNs v.dqTime)
  | 4 => beBytes 4 (if 2 ^ 31 ≤ v.residence then 0xFFFFFFFF else v.residence)
  | 5 => beBytes 4 v.nsData
  | 6 => beBytes 4 v.qdepth
  | 8 => beBytes 1 v.hopLim ++ beBytes 7 v.nodeId
  | 9 => beBytes 4 v.inPort ++ beBytes 4 v.ePort
  | 10 => beBytes 8 v.nsData
  | 11 => beBytes 4 v.poolUse
  | 22 => beBytes 1 0 ++ beBytes 3 0xFFFFFF
  | _ => beBytes 4 0xFFFFFFFF

/-- The IOAM fill of R376 on the rewritten bytes (R377): `h` places the trace header; `orig` is the frame before its edits. -/
def ioamRun (h : Hv) (l : List PlacedEdit) (orig out : List Byte) (op : IoamOp) (v : IoamVals) : IoamRes :=
  match h.markPos op.mark op.off with
  | none => .skip
  | some p =>
    let a := editMap l orig p
    let lim := min 512 out.length
    if ! v.en || decide (min 512 orig.length < p + 8) || decide (lim < a + 8) then .skip
    else
      let ns := beNat (slice out a 2)
      let w := beNat (slice out (a + 2) 2)
      let nodeLen := w / 2048
      let rem := w % 128
      let typ := beNat (slice out (a + 4) 3)
      let bit := fun (i : Nat) => bitN typ (23 - i)
      let used := ioamFields.filter fun x => bit x.1
      let size := (used.map (·.2)).sum
      if ns ≠ v.ns ∧ ¬ v.nsany then .skip
      else if (rangeFrom 12 10).any bit || bit 23 || nodeLen * 4 != size then .skip
      else if rem < nodeLen then .fill (overlay out (a + 2) (beBytes 2 (w ||| 0x0400)))
      else
        let b := a + 8 + 4 * (rem - nodeLen)
        if lim < b + size then .skip
        else .fill (overlay (overlay out b (used.flatMap fun x => v.field x.1)) (a + 2) (beBytes 2 (w - nodeLen)))

/-- The ECN field of the IP header at a position (R209): version and field; none for another version. -/
def ecnAt (b : List Byte) (a : Nat) : Option (Nat × Nat) :=
  let ver := (b.getD a 0).toNat / 16
  let x := (b.getD (a + 1) 0).toNat
  if ver = 4 then some (4, x % 4) else if ver = 6 then some (6, x / 16 % 4) else none

/-- An IP header's ECN field becomes CE; an IPv4 checksum is updated incrementally (R209, RFC 1624). -/
def ecnMark (b : List Byte) (a : Nat) : List Byte :=
  match ecnAt b a with
  | some (4, e) =>
    if e = 1 ∨ e = 2 then
      let old := beNat (slice b a 2)
      let new := old ||| 3
      let hc := beNat (slice b (a + 10) 2)
      let hc' := onesNot (fold16 (onesNot hc + onesNot old + new))
      overlay (overlay b a (beBytes 2 new)) (a + 10) (beBytes 2 hc')
    else b
  | some (6, e) => if e = 1 ∨ e = 2 then overlay b (a + 1) [(b.getD (a + 1) 0) ||| 0x30] else b
  | _ => b

end Sys2Proof.Machine
end

