-- ==== Sys2Proof/Machine/Telemetry.lean ====
section
/-! DEFINITION. Telemetry in the stages (R373 to R380, R386): the telemetry vector, histograms, flow digests, counter selections. -/

namespace Sys2Proof.Machine

set_option cleanup.letToHave false

/-- RESIDENCE of a copy in ns (R374). -/
def residence (dq ts : Nat) : Nat := min 0xFFFFFFFF ((dq - ts) / 65536)

/-- The telemetry vector of a copy at its dequeue (R374). -/
def Dev.telVec (d : Dev) (c : Copy) (v : Vec) : List Byte :=
  let flags := (if c.spilled then 128 else 0) + (if c.cut then 64 else 0) + (if c.mcopy then 32 else 0)
  beBytes 12 (t96 d.fab) ++ beBytes 4 (residence d.fab c.ts) ++ beBytes 4 c.qdepth ++ beBytes 4 (d.fget F.BUF_SP.USE [c.pool]) ++
    beBytes 2 c.port ++ beBytes 1 c.queue ++ beBytes 1 flags ++ beBytes 4 (v.get F.TEL_CTL.NODEID [d.portSlice c.port])

/-- The bin of a value (R378). -/
def histBin (e v : Nat) : Nat :=
  if v < 2 ^ e then 0 else if 2 ^ (e + 30) ≤ v then 31 else Nat.log2 v - e + 1

/-- A copy counts in a histogram (R378). -/
def Dev.histCount (d : Dev) (s h : Nat) (v : Vec) (ns : Nat) : Dev :=
  let b := histBin (v.get F.TEL_HIST.MINEXP [s, h]) ns
  (d.count (Ct.TEL_HIST_BIN (256 * s + 32 * h + b)) 1).count (Ct.TEL_HIST_SUM (8 * s + h)) ns

/-- The histograms of a copy with quantity QTY count it (R378). -/
def Dev.hists (d : Dev) (s qty : Nat) (v : Vec) (ns : Nat) : Dev :=
  v.hists.foldl (fun (d : Dev) h =>
    if v.get F.TEL_HIST.EN [s, h] = 1 ∧ v.get F.TEL_HIST.QTY [s, h] = qty then d.histCount s h v ns else d) d

/-- The record of a flow digest (R380): reason 0 IDLE, 1 ACTIVE, 2 FULL, 3 FLUSH. -/
def Dev.digestRecord (d : Dev) (f : Flow) (reason : Nat) : Dev :=
  let data := beBytes 4 f.hash ++ beBytes 2 f.port ++ beBytes 1 f.profile ++ beBytes 1 reason ++ beBytes 8 f.packets ++ beBytes 8 f.bytes ++
    beBytes 12 (t96 f.first) ++ beBytes 12 (t96 f.last)
  let c : Capture := { ring := d.fgetB F.TEL_DIG.RING [f.slice, f.profile], kind := 7, want := 48, eport := 0xFFFF, time := d.fab, intr := 0,
                       disp := 0, flen := 0 }
  d.pepQueue f.slice c data true

/-- The flow is the one a key names (R379). -/
def Flow.is (f : Flow) (s j hash port : Nat) : Bool := f.slice == s && f.profile == j && f.hash == hash && f.port == port

/-- A frame is accounted in a flow digest (R379): `len` is LEN where LENV = 1. The least recently hit flow of a set stands first. -/
def Dev.digest (d : Dev) (s j hash port time : Nat) (len : Option Nat) : Dev :=
  let hit := findFirst (fun (f : Flow) => f.is s j hash port) d.mat.flows
  let rest := d.mat.flows.filter fun (f : Flow) => ! f.is s j hash port
  match hit with
  | some f =>
    let f' : Flow := { f with packets := f.packets + 1, bytes := f.bytes + len.getD 0, last := time }
    { d with mat := { d.mat with flows := rest ++ [f'] } }
  | none =>
    let f : Flow := { slice := s, profile := j, hash := hash, port := port, packets := 1, bytes := len.getD 0, first := time, last := time }
    let set := d.mat.flows.filter fun (f : Flow) => f.slice == s && f.hash % 1024 == hash % 1024
    let d := if 4 ≤ set.length then
        match set.head? with
        | some old =>
          let d : Dev := { d with mat := { d.mat with flows := d.mat.flows.filter fun (x : Flow) => ! x.is old.slice old.profile old.hash old.port } }
          d.digestRecord old 2
        | none => d
      else d
    { d with mat := { d.mat with flows := d.mat.flows ++ [f] } }

/-- The bytes of a frame that was accounted before its end are added when it ends (R379). -/
def Dev.digestSettle (d : Dev) (s port len : Nat) (l : List (Nat × Nat)) : Dev :=
  l.foldl (fun (d : Dev) x =>
    { d with mat := { d.mat with flows := d.mat.flows.map fun (f : Flow) => if f.is s x.1 x.2 port then { f with bytes := f.bytes + len } else f } }) d

/-- Every entry of a slice's flow cache that meets a condition is reported and leaves. -/
def Dev.digestOut (d : Dev) (reason : Nat) (p : Flow → Bool) : Dev :=
  let out := d.mat.flows.filter p
  let d : Dev := { d with mat := { d.mat with flows := d.mat.flows.filter fun f => ! p f } }
  out.foldl (fun (d : Dev) f => d.digestRecord f reason) d

/-- The check of every entry once per 1 ms (R379): idle entries leave, active ones are reported and restarted. -/
def Dev.digestScan (d : Dev) (s : Nat) : Dev :=
  let idle := fun (f : Flow) => f.slice == s && decide (ms (atLeast1 (d.fget F.TEL_DIG.IDLE [s, f.profile])) < d.fab - f.last)
  let d := d.digestOut 0 idle
  let old := fun (f : Flow) => f.slice == s && decide (sec (atLeast1 (d.fget F.TEL_DIG.ACTIVE [s, f.profile])) ≤ d.fab - f.first)
  let act := d.mat.flows.filter old
  let now := d.fab
  let d : Dev := { d with mat := { d.mat with flows := d.mat.flows.map fun (f : Flow) => if old f then { f with packets := 0, bytes := 0, first := now } else f } }
  act.foldl (fun (d : Dev) f => d.digestRecord f 1) d

/-- TEL_DIG_FLUSH.GO (R379). -/
def Dev.digestFlush (d : Dev) (s : Nat) : Dev := (d.digestOut 3 fun f => f.slice == s).fset F.TEL_DIG_FLUSH.GO [s] 0

/-- EN of a profile is written 0 (R379). -/
def Dev.digestDisable (d : Dev) (s j : Nat) : Dev := (d.digestOut 3 fun f => f.slice == s && f.profile == j).fset F.TEL_DIG.EN [s, j] 0

/-- A counter selection's poll (R386). -/
def Dev.cselOne (d : Dev) (s j : Nat) : Dev :=
  let idx := d.fget F.TEL_CSEL.INDEX [s, j]
  let keep := fun (d : Dev) (v : Word) => { d with mat := { d.mat with kept := mset 0 d.mat.kept (s * 16 + j) v } }
  if ! d.fbit F.TEL_CSEL.EN [s, j] then keep d 0
  else if ! ctExists idx then (keep d 0).fset F.TEL_CSEL.DENIED [s, j] 0
  else if ! bitN (d.fget F.CNT_ALLOW.ALLOW [bitsN idx 31 26]) (bitsN idx 25 21) then
    let d := ((keep d 0).fset F.TEL_CSEL.DENIED [s, j] 1).count (Ct.TEL_CNT_DENY_CNT s) 1
    d.raiseLimited Ev.TEL_CNT_DENY (16 * s + j) (unitSlice s) (ms 1)
  else (keep d (d.counter idx)).fset F.TEL_CSEL.DENIED [s, j] 0

/-- A slice reads its enabled selections, once every 1 µs (R386). -/
def Dev.cselPoll (d : Dev) (s : Nat) : Dev := (List.range 16).foldl (fun (d : Dev) j => d.cselOne s j) d

end Sys2Proof.Machine
end

