-- ==== Sys2Proof/Machine/ActionWord.lean ====
section
/-! DEFINITION. Action words (R168 to R173, R373): slots, conditions, legality, and what the slots do to the vector, the disposition and
the edit list. -/

namespace Sys2Proof.Machine

set_option cleanup.letToHave false

/-- A 512-bit action word (R168). -/
abbrev AWord := BitVec 512

/-- Slot k of an action word (R168). -/
def AWord.slot (w : AWord) (k : Nat) : Nat := bitsN w.toNat (60 * k + 59) (60 * k)

/-- The fields of a slot (R168). -/
def slotOp (x : Nat) : Nat := bitsN x 59 55
def slotNeg (x : Nat) : Bool := bitN x 54
def slotCond (x : Nat) : Nat := bitsN x 53 48

/-- The width of a field operand (R170). -/
def slotWidth (x : Nat) : Nat :=
  match slotOp x with
  | 1 | 3 | 6 | 8 => bitsN x 21 16 + 1
  | 2 | 5 => bitsN x 34 31 + 1
  | 4 | 7 => bitsN x 34 29 + 1
  | 9 => bitsN x 20 17 + 1
  | _ => 1

/-- The width of a disposition field (R152). -/
def dispWidth (code : Nat) : Nat :=
  match dispField code with
  | some (hi, lo) => hi + 1 - lo
  | none => 0

/-- A field lies in the vector (R169). -/
def fieldIn (b w : Nat) : Bool := decide (b + w ≤ 6144)
/-- A slot may write the field: bits 6143:512, or the FLAGS bits 479:448 (R169). -/
def fieldWritable (b w : Nat) : Bool := (decide (512 ≤ b) && fieldIn b w) || (decide (448 ≤ b) && decide (b + w ≤ 480))

/-- A slot holds an illegal OP, COND, FN, CC, FIELD, KIND or mark value: the KIND that MAI_ILLEGAL gives it (R168, R170, R173, R373). -/
def slotBadValue (x : Nat) : Option Nat :=
  let c := slotCond x
  let op := slotOp x
  if 14 < op then some 1
  else if 13 ≤ c ∧ c ≤ 31 then some 3
  else
    let bad := match op with
      | 7 => decide (5 < bitsN x 12 10)
      | 8 => decide (5 < bitsN x 15 13)
      | 10 => decide (11 < bitsN x 47 44)
      | 12 => bitsN x 47 46 == 3 || bitsN x 45 43 == 7
      | 13 => decide (2 ≤ bitsN x 47 46) || bitsN x 45 43 == 7 || bitsN x 33 31 == 7
      | 14 => ! (decide (1 ≤ bitsN x 47 44) && decide (bitsN x 47 44 ≤ 5)) || (bitsN x 47 44 == 2 && bitsN x 41 39 == 7)
      | _ => false
    if bad then some 2 else none

/-- A reserved bit of a slot is 1 (R170, R373, R376). -/
def slotReserved (x : Nat) : Bool :=
  let hi : Nat := match slotOp x with
    | 0 => 48 | 1 => 16 | 2 => 15 | 3 => 14 | 4 => 12 | 5 => 13 | 6 => 14 | 7 => 5 | 8 => 8 | 9 => 17 | 10 => 14 | 11 => 18 | 12 => 18
    | 13 => 15 | 14 => 28 | _ => 0
  x % 2 ^ hi != 0 ||
    (slotOp x == 14 && (match bitsN x 47 44 with
      | 1 => bitsN x 43 38 != 0
      | 2 => bitsN x 29 28 != 0
      | 3 => bitsN x 43 31 != 0
      | 4 => bitsN x 43 30 != 0
      | _ => bitsN x 43 32 != 0))

/-- A field of a slot reaches past the vector, or a write touches intrinsic bits other than FLAGS (R169, R170, R173). -/
def slotReach (x : Nat) : Bool :=
  let dst := bitsN x 47 35
  let src := bitsN x 34 22
  let w := slotWidth x
  match slotOp x with
  | 1 | 3 | 6 => ! (fieldWritable dst w && fieldIn src w)
  | 2 | 4 | 5 => ! fieldWritable dst w
  | 7 => ! fieldIn dst w
  | 8 => ! (fieldIn dst w && fieldIn src w)
  | 9 => ! (fieldWritable dst w && fieldIn src 32)
  | 10 => bitN x 43 && ! fieldIn (bitsN x 42 30) (dispWidth (bitsN x 47 44))
  | 11 => bitN x 47 && ! fieldIn (bitsN x 46 34) 16
  | 12 => bitsN x 47 46 != 2 && decide (768 < bitsN x 27 18 + bitsN x 33 28 + 1)
  | 14 => bitsN x 47 44 == 1 && decide (704 < bitsN x 37 28 + 32)
  | _ => false

/-- A slot is used in the wrong direction (R171, R173, R373). -/
def slotWrongWay (eg : Bool) (x : Nat) : Bool :=
  match slotOp x with
  | 10 => eg && ! [0, 4, 7].contains (bitsN x 47 44)
  | 11 => eg
  | 12 | 13 => ! eg
  | 14 => if bitsN x 47 44 ≤ 3 then ! eg else bitsN x 47 44 == 4 && eg
  | _ => false

/-- The slots of a word. -/
def AWord.slots (w : AWord) : List Nat := (List.range 8).map w.slot

/-- Why an action word is illegal, as MAI_ILLEGAL.KIND, in the order of R173's cases; none for a legal word. -/
def AWord.illegal (w : AWord) (eg : Bool) : Option Nat :=
  if bitsN w.toNat 511 508 ≠ 1 then some 1
  else match w.slots.findSome? slotBadValue with
    | some k => some k
    | none =>
      if bitsN w.toNat 507 480 ≠ 0 ∨ w.slots.any slotReserved ∨ w.slots.any slotReach then some 2
      else if 1 < (w.slots.filter fun x => slotOp x == 11).length ∨
          1 < (w.slots.filter fun x => slotOp x == 14 && bitsN x 47 44 == 2).length then some 5
      else if w.slots.any (slotWrongWay eg) then some 4
      else none

/-- A slot's condition before NEG (R168). -/
def slotHolds (h : Hv) (hits : List Bool) (c : Nat) : Bool :=
  if c = 0 then true
  else if c ≤ 4 then hits.getD (c - 1) false
  else if c ≤ 8 then ! hits.getD (c - 5) false
  else if c = 9 then hits.any id
  else if c = 10 then ! hits.any id
  else if c = 11 then h.get 511 511 == 1
  else if c = 12 then h.get 495 495 == 1
  else h.flag (c - 32)

/-- A comparison of R170. -/
def slotCmp (cc a b : Nat) : Bool :=
  match cc with
  | 0 => a == b
  | 1 => a != b
  | 2 => decide (a < b)
  | 3 => decide (b ≤ a)
  | 4 => (a &&& b) != 0
  | _ => (a &&& b) == 0

/-- A logic function of R170 on w bits. -/
def slotLogic (fn w a b : Nat) : Nat :=
  match fn with
  | 0 => a &&& b
  | 1 => a ||| b
  | 2 => a ^^^ b
  | _ => a &&& (2 ^ w - 1 - b % 2 ^ w)

/-- A sum at width w: modulo 2^W, or held to 0 to 2^W − 1 (R170). -/
def slotSum (w : Nat) (sat : Bool) (v : Int) : Nat :=
  if sat then (max 0 (min v ((2 ^ w - 1 : Nat) : Int))).toNat else unsext w v

/-- What an action word works on: the slice, the frame's port, id, ingress time and head window, the hits, and the vector as it stands
at clock 4 (R169). -/
structure ActIn where
  s : Nat
  eg : Bool
  port : Nat
  fid : Nat
  ts : Nat
  window : Nat
  hits : List Bool
  v0 : Vec

/-- What METER charges: LEN, or the head window while LENV is 0 (R259, R260). -/
def ActIn.meterBytes (a : ActIn) : Nat := if Hv.get a.v0.hv 494 494 = 1 then Hv.get a.v0.hv 21 8 else a.window

/-- METER (R171, R259). -/
def Dev.actMeter (d : Dev) (a : ActIn) (v : Vec) (x : Nat) : Dev × Vec :=
  let i := if bitN x 47 then Hv.get a.v0.hv (bitsN x 46 34 + 15) (bitsN x 46 34) else bitsN x 33 18
  let (d, c, tc, tx) := d.meterRun a.s i a.meterBytes (Disp.fget a.v0.disp 4)
  let d := if Hv.get a.v0.hv 494 494 = 0 ∧ (tc ∨ tx) then d.frameMod a.fid fun f => { f with metered := f.metered ++ [(i, tc, tx)] } else d
  (d, { v with disp := Disp.fset v.disp 4 c })

/-- DIGEST (R379). -/
def Dev.actDigest (d : Dev) (a : ActIn) (j : Nat) : Dev :=
  if ! d.fbit F.TEL_DIG.EN [a.s, j] then d
  else
    let h := if a.v0.get F.TEL_DIG.H [a.s, j] = 0 then Hv.h0 a.v0.hv else Hv.h1 a.v0.hv
    let lenv := Hv.get a.v0.hv 494 494 == 1
    let d := d.digest a.s j h a.port a.ts (if lenv then some (Hv.get a.v0.hv 21 8) else none)
    if lenv then d else d.frameMod a.fid fun f => { f with digested := f.digested ++ [(j, h)] }

/-- TELEM (R373 to R379, R386). -/
def Dev.actTelem (d : Dev) (a : ActIn) (v : Vec) (x : Nat) : Dev × Vec :=
  let arg := bitsN x 43 28
  match bitsN x 47 44 with
  | 1 => (d, { v with hv := Hv.setBytes v.hv (bitsN arg 9 0) v.tv 704 })
  | 2 => (d, { v with ioam := some { profile := bitsN arg 15 14, mark := bitsN arg 13 11, off := bitsN arg 10 2 } })
  | 3 => (d, if v.hists.contains arg then v else { v with hists := v.hists ++ [arg] })
  | 4 => (d.actDigest a arg, v)
  | _ =>
    let dst := min 696 (d.fget F.TEL_CSEL.DST [a.s, arg])
    let w := if d.fbit F.TEL_CSEL.EN [a.s, arg] then mget 0 d.mat.kept (a.s * 16 + arg) else 0
    (d, { v with hv := Hv.setBytes v.hv dst (beBytes 8 w.toNat) 704 })

/-- One slot whose condition holds: sources from the vector and disposition at clock 4, writes to those of the slots before it
(R169, R170). -/
def Dev.actSlot (d : Dev) (a : ActIn) (v : Vec) (x : Nat) : Dev × Vec :=
  let h0 := a.v0.hv
  let dst := bitsN x 47 35
  let src := bitsN x 34 22
  let w := slotWidth x
  let rd := fun (b n : Nat) => Hv.get h0 (b + n - 1) b
  let wr := fun (r : Nat) => { v with hv := Hv.put v.hv (dst + w - 1) dst r }
  match slotOp x with
  | 1 => (d, wr (rd src w))
  | 2 => (d, wr (bitsN x 30 15))
  | 3 => (d, wr (slotSum w (bitN x 15) (if bitN x 14 then (rd dst w : Int) - rd src w else (rd dst w : Int) + rd src w)))
  | 4 => (d, wr (slotSum w (bitN x 28) ((rd dst w : Int) + sext 16 (bitsN x 27 12))))
  | 5 => (d, wr (slotLogic (bitsN x 30 29) w (rd dst w) (bitsN x 28 13)))
  | 6 => (d, wr (slotLogic (bitsN x 15 14) w (rd dst w) (rd src w)))
  | 7 => (d, { v with hv := Hv.setFlag v.hv (bitsN x 9 5) (slotCmp (bitsN x 12 10) (rd dst w) (bitsN x 28 13 % 2 ^ w)) })
  | 8 => (d, { v with hv := Hv.setFlag v.hv (bitsN x 12 8) (slotCmp (bitsN x 15 13) (rd dst w) (rd src w)) })
  | 9 =>
    let f := rd src 32
    let hash := if bitN x 21 then Hv.h1 h0 else Hv.h0 h0
    (d, wr (if f % 65536 = 0 then f / 65536 else f / 65536 + hash % (f % 65536)))
  | 10 =>
    let code := bitsN x 47 44
    let val := if bitN x 43 then rd (bitsN x 42 30) (dispWidth code) else bitsN x 29 14
    (d, { v with disp := Disp.fset v.disp code val })
  | 11 => d.actMeter a v x
  | 12 =>
    let len := bitsN x 33 28 + 1
    let kind := bitsN x 47 46
    let e : EditOp := { kind := kind, mark := bitsN x 45 43, off := bitsN x 42 34, len := len,
                        data := if kind = 2 then [] else Hv.bytes h0 (bitsN x 27 18) len }
    (d, { v with edits := v.edits ++ [e] })
  | 13 =>
    let c : CsumOp := { kind := bitsN x 47 46, fmark := bitsN x 45 43, foff := bitsN x 42 34, rmark := bitsN x 33 31, roff := bitsN x 30 22,
                        rlen := bitsN x 21 15 + 1 }
    (d, { v with csums := v.csums ++ [c] })
  | 14 => d.actTelem a v x
  | _ => (d, v)

/-- A legal action word runs its eight slots in order (R168, R169). -/
def Dev.actWord (d : Dev) (a : ActIn) (w : AWord) : Dev × Vec :=
  w.slots.foldl (fun (y : Dev × Vec) x =>
    if slotHolds a.v0.hv a.hits (slotCond x) != slotNeg x then y.1.actSlot a y.2 x else y) (d, a.v0)

end Sys2Proof.Machine
end

