-- ==== Sys2Proof/Machine/TableCmd.lean ====
section
/-! DEFINITION. The table engine (R176 to R188): the command path, learns, the learn ring, ageing, and the end of settling (R165). -/

namespace Sys2Proof.Machine

set_option cleanup.letToHave false

/-- The image that TBL_DATA holds (R177). -/
def Dev.tblImg (d : Dev) (s : Nat) : Img :=
  BitVec.ofNat 512 ((List.range 8).foldl (fun (a : Nat) w => a * 2 ^ 64 + (d.rget .TBL_DATA [s, w]).toNat) 0)

/-- TBL_DATA takes an image (R177). -/
def Dev.setImg (d : Dev) (s : Nat) (i : Img) : Dev :=
  (List.range 8).foldl (fun (d : Dev) w => d.rset .TBL_DATA [s, w] (BitVec.ofNat 64 (i.toNat >>> (448 - 64 * w)))) d

/-- What a table command answers: its result code and the INDEX it found, if it found one (R178, R180). -/
structure TblRes where
  code : Nat
  idx : Option Nat := none

/-- A command as TBL_CMD holds it. -/
def cmdOp (w : Word) : Nat := wbits w 31 28
def cmdTable (w : Word) : Nat := wbits w 27 22
def cmdSash (w : Word) : Nat := wbits w 21 21
def cmdIdx (w : Word) : Nat := wbits w 19 0

/-- The operation is defined and allowed for the table's TYPE (R179, R180). -/
def TDesc.allows (td : TDesc) (op : Nat) : Bool :=
  td.kind != .unused && decide (1 ≤ op) && decide (op ≤ 9) && (op != 4 || td.kind != .direct) &&
    (op != 7 || (td.kind == .exact && ! td.dual))

/-- INDEX names an entry of the table (R178). -/
def Dev.idxOk (d : Dev) (td : TDesc) (idx : Nat) : Bool :=
  match td.kind with
  | .exact =>
    if idx < 2 ^ 19 then decide (bitsN idx 17 2 < 2 ^ td.slog)
    else (d.ovflOrd td).isSome && bitsN idx 18 11 == 0 && decide (bitsN idx 10 0 < td.ovflLen)
  | .tcam => decide (idx < td.blocks * 1024)
  | .direct => decide (idx < 2 ^ td.slog)
  | .unused => false

/-- A command's operands are out of range (R180 BADARG). -/
def Dev.badArg (d : Dev) (td : TDesc) (op sash idx : Nat) (i : Img) : Bool :=
  let exact := td.kind == .exact
  let usesIdx := op == 5 || op == 6 || (! exact && (op == 1 || op == 2 || op == 3))
  (sash == 1 && ! td.dual) ||
  ((op == 8 || op == 9) && (td.dlen == 0 || decide (tblBytes < 16 * idx + td.dlen))) ||
  (usesIdx && ! d.idxOk td idx) ||
  (exact && op == 1 && ! Img.valid i) ||
  (exact && op == 6 && Img.valid i && decide (idx < 2 ^ 19) && td.bucket (bitsN idx 18 18) (td.keyOf (td.normal i false)) != bitsN idx 17 2)

/-- The stored entry, or data word, fails its check (R191, R192). -/
def Dev.storedBad (d : Dev) (td : TDesc) (op sash idx : Nat) : Bool :=
  if op = 8 ∨ op = 9 then d.tbad td.sl (16 * idx) td.dlen
  else match td.kind with
    | .exact => ! Img.exactOk (d.exGet td sash idx)
    | .tcam => d.tcBad td (td.tnum sash idx)
    | .direct => d.drBad td sash idx
    | .unused => false

/-- A software change of a sharing table joins the learn ring (R186). -/
def Dev.shareSw (d : Dev) (td : TDesc) (op : RingOp) : Dev := d.ringSend td.sl td.t op

/-- The operations of an exact table (R179). -/
def Dev.exCmd (d : Dev) (td : TDesc) (op sash idx : Nat) (i : Img) : Dev × TblRes :=
  let new := td.normal i false
  let key := td.keyOf new
  let (found, bads) := d.exFind td sash key
  let seen := fun (d : Dev) => d.badAll td 0 sash bads
  match op with
  | 1 =>
    let d := seen d
    match found with
    | some (x, _) => (d, { code := 2, idx := some x })
    | none =>
      match d.exPlace td sash new with
      | (d, some x) => (d.shareSw td (.insert new), { code := 0, idx := some x })
      | (d, none) => (d.count (Ct.TBL_LEARN_FULL_CNT (64 * td.sl + td.t)) 1, { code := 3 })
  | 2 =>
    let d := seen d
    match found with
    | some (x, _) => ((d.exPut td sash x 0).shareSw td (.delete key), { code := 0, idx := some x })
    | none => (d, { code := 1 })
  | 3 =>
    let d := seen d
    match found with
    | some (x, e) =>
      let e' := td.normal (Img.put (Img.put e 504 473 (Img.result new)) 509 509 (if Img.static new then 1 else 0)) (Img.hit e)
      ((d.exPut td sash x e').shareSw td (.insert e'), { code := 0, idx := some x })
    | none => (d, { code := 1 })
  | 4 =>
    let d := seen d
    match found with
    | some (x, e) => (d.setImg td.sl e, { code := 0, idx := some x })
    | none => (d, { code := 1 })
  | 5 =>
    let e := d.exGet td sash idx
    let d := d.setImg td.sl e
    if Img.exactOk e then (d, { code := 0, idx := some idx }) else (d.badDetect td.sl td.t 0 sash idx, { code := 7, idx := some idx })
  | 6 =>
    let old := d.exGet td sash idx
    let gone := fun (d : Dev) => if Img.valid old && Img.exactOk old && td.keyOf old != key then d.shareSw td (.delete (td.keyOf old)) else d
    if Img.valid new then
      let d := seen d
      match found with
      | some (x, _) => if x = idx then ((d.exPut td sash idx new).shareSw td (.insert new), { code := 0, idx := some idx })
                       else (d, { code := 2, idx := some x })
      | none => (((gone d).exPut td sash idx new).shareSw td (.insert new), { code := 0, idx := some idx })
    else
      let gone := fun (d : Dev) => if Img.valid old && Img.exactOk old then d.shareSw td (.delete (td.keyOf old)) else d
      ((gone d).exPut td sash idx new, { code := 0, idx := some idx })
  | _ => (d, { code := 0 })

/-- The operations of a TCAM table (R179). -/
def Dev.tcCmd (d : Dev) (td : TDesc) (op sash idx : Nat) (i : Img) : Dev × TblRes :=
  let n := td.tnum sash idx
  let bad := d.tcBad td n
  let seen := fun (d : Dev) => if bad then d.badDetect td.sl td.t 0 sash idx else d
  let there := (d.tcGet td n).valid && (d.tcGet td n).ok
  match op with
  | 1 => (d.tcPut td n i, { code := 0 })
  | 2 => if there then ((seen d).tcClear td n, { code := 0 }) else (seen d, { code := 1 })
  | 3 => if there then ((seen d).tcPut td n i, { code := 0 }) else (seen d, { code := 1 })
  | 4 =>
    let (hit, bads) := d.tcFind td sash (Img.bits i 447 288)
    let d := d.badAll td 0 sash bads
    match hit with
    | some x =>
      let m := td.tnum sash x
      if d.tbad td.sl (td.raddr m) 4 then (d.badDetect td.sl td.t 0 sash x, { code := 1 })
      else (d.setImg td.sl (d.tcImg td m), { code := 0, idx := some x })
    | none => (d, { code := 1 })
  | 5 => ((seen d).setImg td.sl (d.tcImg td n), { code := if bad then 7 else 0 })
  | 6 => (d.tcPut td n i, { code := 0 })
  | _ => (d, { code := 0 })

/-- The operations of a direct table (R179). -/
def Dev.drCmd (d : Dev) (td : TDesc) (op sash idx : Nat) (i : Img) : Dev × TblRes :=
  let bad := d.drBad td sash idx
  let seen := fun (d : Dev) => if bad then d.badDetect td.sl td.t 0 sash idx else d
  let e := d.drImg td sash idx
  let there := Img.valid e && ! bad
  match op with
  | 1 => (d.drPut td sash idx i, { code := 0 })
  | 2 => if there then ((seen d).drPut td sash idx (Img.put e 511 511 0), { code := 0 }) else (seen d, { code := 1 })
  | 3 => if there then ((seen d).drPut td sash idx i, { code := 0 }) else (seen d, { code := 1 })
  | 5 => ((seen d).setImg td.sl e, { code := if bad then 7 else 0 })
  | 6 => (d.drPut td sash idx i, { code := 0 })
  | _ => (d, { code := 0 })

/-- WDATA and RDATA (R179): the table's DLEN bytes at a data address, first byte in image bits 511:504. -/
def Dev.dataCmd (d : Dev) (td : TDesc) (op sash idx : Nat) (i : Img) : Dev × TblRes :=
  let sh := 512 - 8 * td.dlen
  if op = 8 then (d.twrite td.sl (16 * idx) (beBytes td.dlen (i.toNat >>> sh)), { code := 0 })
  else
    let bad := d.tbad td.sl (16 * idx) td.dlen
    let img := BitVec.ofNat 512 (beNat (d.tread td.sl (16 * idx) td.dlen) <<< sh)
    let d := if bad then d.badDetect td.sl td.t 1 sash idx else d
    (d.setImg td.sl img, { code := if bad then 7 else 0 })

/-- One ageing step over entries of an exact single-sash table (R187): HIT cleared or the entry deleted; the deletions are counted. -/
def Dev.ageEntries (d : Dev) (td : TDesc) (l : List Nat) : Dev × Nat :=
  l.foldl (fun (x : Dev × Nat) i =>
    let d := x.1
    let e := d.exGet td 0 i
    if ! Img.exactOk e then (d.badDetect td.sl td.t 0 0 i, x.2)
    else if ! Img.valid e || Img.static e then x
    else if Img.hit e then (d.exStore td 0 i (Img.put e 510 510 0), x.2)
    else (((d.exPut td 0 i 0).ringSend td.sl td.t (.delete (td.keyOf e))).count (Ct.TBL_AGED_CNT (64 * td.sl + td.t)) 1, x.2 + 1)) (d, 0)

/-- Steps of an ageing pass: one bucket each, then four overflow entries each (R181). -/
def Dev.ageSteps (d : Dev) (td : TDesc) : Nat := 2 * 2 ^ td.slog + (if (d.ovflOrd td).isSome then 512 else 0)

/-- The entries of step j of an ageing pass. -/
def TDesc.ageStep (td : TDesc) (j : Nat) : List Nat :=
  if j < 2 * 2 ^ td.slog then rangeFrom (bIdx (j / 2 ^ td.slog) (j % 2 ^ td.slog) 0) 4 else rangeFrom (oIdx (4 * (j - 2 * 2 ^ td.slog))) 4

/-- One whole ageing pass (R188). -/
def Dev.agePass (d : Dev) (td : TDesc) : Dev × Nat :=
  (List.range (d.ageSteps td)).foldl (fun (x : Dev × Nat) j => let r := x.1.ageEntries td (td.ageStep j); (r.1, x.2 + r.2)) (d, 0)

/-- A command's checks and its operation (R180); none while its sash is settling (R165). -/
def Dev.tblRun (d : Dev) (s : Nat) (w : Word) : Option (Dev × TblRes) :=
  let op := cmdOp w
  let td := d.tdesc s (cmdTable w)
  let sash := cmdSash w
  let idx := cmdIdx w
  let i := d.tblImg s
  let writes := op == 1 || op == 2 || op == 3 || op == 6 || op == 8
  let active := (d.fget F.MAI_SASH_STATE.ACTIVE [s]).testBit td.group == (sash == 1)
  if ! d.sliceOn s then some (d.raise 5 0 (unitSlice s), { code := 8 })
  else if d.sliceHeld s then some (d, { code := 8 })
  else if ! td.allows op then some (d, { code := 5 })
  else if d.badArg td op sash idx i then some (d, { code := 6 })
  else if td.dual && writes && active && ! ((op == 6 || op == 8) && d.storedBad td op sash idx) then some (d, { code := 4 })
  else if td.dual && writes && ! active && (d.fget F.MAI_SASH_SETTLE.SETTLE [s]).testBit td.group then none
  else if op = 8 ∨ op = 9 then some (d.dataCmd td op sash idx i)
  else if op = 7 then
    let (d, n) := d.agePass td
    some (d.rset .TBL_DATA [s, 0] (wput (d.rget .TBL_DATA [s, 0]) 31 0 n), { code := 0 })
  else match td.kind with
    | .exact => some (d.exCmd td op sash idx i)
    | .tcam => some (d.tcCmd td op sash idx i)
    | .direct => some (d.drCmd td op sash idx i)
    | .unused => some (d, { code := 5 })

/-- The operations that return an entry (R99 step 5): LOOKUP, READ, RDATA, and AGE its count. -/
def opReturns (op : Nat) : Bool := op == 4 || op == 5 || op == 7 || op == 9

/-- The TBL instruction that holds the path takes its results (R99 step 5): the result code is the whole of TBL_CMD (R176). -/
def Dev.tblFinish (d : Dev) (s : Nat) : Dev :=
  match mget? d.mat.tblHold s with
  | none => d
  | some k =>
    let w := d.rget .TBL_CMD [s]
    let rd := k / 16 / 64
    let rb := k / 16 % 64
    let data := (List.range 8).map fun j => d.rget .TBL_DATA [s, j]
    let d := { d with mat := { d.mat with tblHold := mdel d.mat.tblHold s } }
    let sq := k % 16 / 8
    (d.retired sq).ctxMod sq (k % 16 % 8) fun (x : Ctx) =>
      if x.st ≠ .inAccess then x else
      let g0 := if opReturns (cmdOp w) then (List.range 8).foldl (fun (g : List Word) j => lmod g (rb + j) fun _ => data.getD j 0) x.g else x.g
      { x.complete with g := lmod g0 rd fun _ => w }

/-- A command completes: RESULT and, where it found one, INDEX; BUSY clears (R176, R178). -/
def Dev.tblDone (d : Dev) (s : Nat) (r : TblRes) : Dev :=
  let d := d.fsets [(F.TBL_CMD.BUSY, 0), (F.TBL_CMD.RESULT, r.code)] [s]
  let d := match r.idx with
    | some i => d.fset F.TBL_CMD.INDEX [s] i
    | none => d
  d.tblFinish s

/-- A command starts (R176): it completes, or stays BUSY while its sash settles (R165). -/
def Dev.tblStart (d : Dev) (s : Nat) (w : Word) : Dev :=
  let d := d.fsets [(F.TBL_CMD.OP, cmdOp w), (F.TBL_CMD.TABLE, cmdTable w), (F.TBL_CMD.SASH, cmdSash w), (F.TBL_CMD.INDEX, cmdIdx w)] [s]
  if cmdOp w = 0 then d
  else
    let d := d.fset F.TBL_CMD.BUSY [s] 1
    match d.tblRun s w with
    | some (d, r) => d.tblDone s r
    | none => { d with mat := { d.mat with waiting := mins d.mat.waiting s w } }

/-- The command path is taken: BUSY, or a TBL instruction holds it (R176). -/
def Dev.tblTaken (d : Dev) (s : Nat) : Bool := d.fbit F.TBL_CMD.BUSY [s] || (mget? d.mat.tblHold s).isSome

/-- A store to a taken command path (R176). -/
def Dev.tblCollide (d : Dev) (s : Nat) : Dev := (d.count (Ct.TBL_CMD_COLLIDE_CNT s) 1).raise Ev.TBL_CMD_COLLIDE s (unitSlice s)

/-- A store to TBL_CMD (R176). -/
def Dev.tblStore (d : Dev) (s : Nat) (w : Word) : Dev := if d.tblTaken s then d.tblCollide s else d.tblStart s w

/-- Some vector stamped with sash b of group g is in the slice's parse contexts or stages (R165). -/
def Dev.stamped (d : Dev) (s g : Nat) (b : Bool) : Bool :=
  (d.prs.frames.any fun (x : Frame) => d.portSlice x.port == s &&
    (match x.loc with | .bound | .formed | .stage _ | .exit => true | _ => false) && x.vec.stamp.getLsbD g == b) ||
  d.buf.copies.any fun (c : Copy) => c.staged && ! c.started && d.portSlice c.port == s && c.vec.stamp.getLsbD g == b

/-- The groups whose settling has ended clear, and a waiting write of a sash that has settled is made (R165). -/
def Dev.settleEnd (d : Dev) (s : Nat) : Dev :=
  let old := d.fget F.MAI_SASH_SETTLE.SETTLE [s]
  let act := d.fget F.MAI_SASH_STATE.ACTIVE [s]
  let new := (List.range 64).foldl (fun (a : Nat) g => if bitN a g && ! d.stamped s g (! bitN act g) then a ^^^ 2 ^ g else a) old
  let d := d.fset F.MAI_SASH_SETTLE.SETTLE [s] new
  match mget? d.mat.waiting s with
  | none => d
  | some w =>
    match d.tblRun s w with
    | some (d, r) => Dev.tblDone { d with mat := { d.mat with waiting := mdel d.mat.waiting s } } s r
    | none => d

/-- A port's learn tokens, in units of one token's refill per ms × 1 ms, brought up to date (R185). -/
def Dev.learnTokens (d : Dev) (s m : Nat) : Nat :=
  let rate := d.fget F.TBL_PLIM.RATE [s, m]
  match findFirst (fun (x : Nat × Nat × Nat) => x.1 == s * 32 + m) d.mat.tokens with
  | some (_, l, t) => min (rate * ms 1) (l + (d.now - t) * rate)
  | none => rate * ms 1

/-- A port's learn tokens become l now. -/
def Dev.setTokens (d : Dev) (s m l : Nat) : Dev :=
  { d with mat := { d.mat with tokens := (d.mat.tokens.filter fun (x : Nat × Nat × Nat) => x.1 != s * 32 + m) ++ [(s * 32 + m, l, d.now)] } }

/-- R185 refuses a learn of a port. -/
def Dev.learnRefused (d : Dev) (s m : Nat) : Bool :=
  decide (d.fget F.TBL_PLIM.MAXENT [s, m] ≤ d.fget F.TBL_PLIM.COUNT [s, m]) ||
    (d.fget F.TBL_PLIM.RATE [s, m] != 0 && decide (d.learnTokens s m < ms 1))

/-- A learn is queued, or discarded from a full queue (R184); it takes a reservation and a token (R185). -/
def Dev.learnQueue (d : Dev) (l : Learn) : Dev :=
  let s := l.slice
  let m := d.portSlot l.port
  if 256 ≤ (d.mat.learns.filter fun (x : Learn) => x.slice == s).length then d.count (Ct.TBL_LEARN_QDROP_CNT s) 1
  else
    let d := if d.fget F.TBL_PLIM.RATE [s, m] = 0 then d else d.setTokens s m (d.learnTokens s m - ms 1)
    Dev.plimAdd { d with mat := { d.mat with learns := d.mat.learns ++ [l] } } s m true

/-- What a source lookup does to its frame besides (R183). -/
inductive LearnVerdict where
  | pass | full | over | drop
  deriving DecidableEq, Repr

/-- A frame from port p requests a learn at its source lookup (R182, R183): `o` is what the lookup found, `key` its key. -/
def Dev.learnAsk (d : Dev) (td : TDesc) (p : Nat) (key : List Byte) (o : LookOut) : Dev × LearnVerdict :=
  let s := td.sl
  let m := d.portSlot p
  let data := d.learnData td p
  let act := d.fgetB F.TBL_LEARN.ACT [s, td.t]
  let l : Learn := { slice := s, table := td.t, key := key, act := act, data := data, port := p }
  let limited := fun (d : Dev) =>
    let d := (d.count (Ct.TBL_LEARN_LIMIT_CNT p) 1).raiseLimited Ev.TBL_LEARN_LIMIT p (unitSlice s) (ms 1)
    (d, if d.fbit F.TBL_PLIM.OVER [s, m] then LearnVerdict.over else LearnVerdict.drop)
  match o.hit with
  | some (_, r, _) =>
    if r % 2 ^ 18 = data then (d, .pass)
    else if Img.static o.img then
      ((d.count (Ct.TBL_MOVE_CNT (64 * s + td.t)) 1).raise Ev.TBL_MOVE_STATIC p (unitSlice s), .pass)
    else if d.learnRefused s m then limited d
    else (d.learnQueue l, .pass)
  | none =>
    if d.exFull td 0 key then
      ((d.count (Ct.TBL_LEARN_FULL_CNT (64 * s + td.t)) 1).raiseLimited Ev.TBL_LEARN_FULL p (unitSlice s) (ms 1), .full)
    else if d.learnRefused s m then limited d
    else (d.learnQueue l, .pass)

/-- The RESULT of a learned entry (R183). -/
def Learn.result (l : Learn) : Nat := l.act * 2 ^ 18 + l.data

/-- The engine makes the first learn of a slice's queue (R184). -/
def Dev.learnApply (d : Dev) (s : Nat) : Dev :=
  match findFirst (fun (x : Learn) => x.slice == s) d.mat.learns with
  | none => d
  | some l =>
    let td := d.tdesc s l.table
    let k := 64 * s + l.table
    let d := { d with mat := { d.mat with learns := d.mat.learns.eraseP fun (x : Learn) => x.slice == s } }
    let d := d.plimAdd s (d.portSlot l.port) false
    if td.kind ≠ .exact then d
    else
      let (found, bads) := d.exFind td 0 l.key
      let d := d.badAll td 0 0 bads
      match found with
      | some (x, e) =>
        if Img.result e % 2 ^ 18 = l.data then d
        else if Img.static e then (d.count (Ct.TBL_MOVE_CNT k) 1).raise Ev.TBL_MOVE_STATIC l.port (unitSlice s)
        else
          let e' := td.normal (Img.put e 504 473 l.result) (Img.hit e)
          ((d.exPut td 0 x e').ringSend s l.table (.insert e')).count (Ct.TBL_MOVE_CNT k) 1
      | none =>
        let e := td.entry l.key l.result
        match d.exPlace td 0 e with
        | (d, some _) => (d.ringSend s l.table (.insert e)).count (Ct.TBL_LEARN_CNT k) 1
        | (d, none) => (d.count (Ct.TBL_LEARN_FULL_CNT k) 1).raiseLimited Ev.TBL_LEARN_FULL l.port (unitSlice s) (ms 1)

/-- The engine applies the first message of the learn ring that waits at a slice (R186). -/
def Dev.ringApply (d : Dev) (s : Nat) : Dev :=
  match findFirst (fun (m : RingMsg) => m.slice == s) d.mat.ring with
  | none => d
  | some m =>
    let d := { d with mat := { d.mat with ring := d.mat.ring.eraseP fun (x : RingMsg) => x.slice == s } }
    let td := d.tdesc s m.table
    if td.kind ≠ .exact then d
    else
      let key := match m.op with
        | .insert i => td.keyOf i
        | .delete k => k
        | .touch k => k
      let (found, bads) := d.exFind td 0 key
      let d := d.badAll td 0 0 bads
      match m.op, found with
      | .insert i, some (x, e) =>
        d.exPut td 0 x (td.normal (Img.put (Img.put e 504 473 (Img.result i)) 509 509 (if Img.static i then 1 else 0)) (Img.hit e))
      | .insert i, none =>
        match d.exPlace td 0 (td.normal i false) with
        | (d, some _) => d
        | (d, none) => d.count (Ct.TBL_LEARN_FULL_CNT (64 * s + m.table)) 1
      | .delete _, some (x, _) => d.exPut td 0 x 0
      | .touch _, some (x, e) => d.exStore td 0 x (Img.put e 510 510 1)
      | _, none => d

/-- The period of ageing unit a, in device time (R187). -/
def Dev.agePeriod (d : Dev) (s a : Nat) : Nat := sec (atLeast1 (d.fget F.TBL_AGE.PERIOD [s, a]))

/-- An ageing pass starts, PERIOD after the start of the last one (R187); over a table that is not exact and single-sash none does. -/
def Dev.ageStart (d : Dev) (s a : Nat) : Dev :=
  let k := s * 4 + a
  let due := match mget? d.mat.ageStart k with
    | some t => decide (t + d.agePeriod s a ≤ d.now)
    | none => true
  let td := d.tdesc s (d.fget F.TBL_AGE.TABLE [s, a])
  if ! d.fbit F.TBL_AGE.EN [s, a] || ! due || td.kind != .exact || td.dual ||
      (d.mat.ages.any fun (p : AgePass) => p.slice == s && p.unit == a) then d
  else { d with mat := { d.mat with ageStart := mins d.mat.ageStart k d.now,
                                    ages := d.mat.ages ++ [{ slice := s, unit := a, table := td.t }] } }

/-- The next step of an ageing pass (R181, R187): a completed pass increments PASSES. -/
def Dev.ageStepNow (d : Dev) (s a : Nat) : Dev :=
  match findFirst (fun (p : AgePass) => p.slice == s && p.unit == a) d.mat.ages with
  | none => d
  | some p =>
    let td := d.tdesc s p.table
    let rest := d.mat.ages.filter fun (q : AgePass) => ! (q.slice == s && q.unit == a)
    if td.kind ≠ .exact ∨ td.dual ∨ ¬ d.fbit F.TBL_AGE.EN [s, a] then { d with mat := { d.mat with ages := rest } }
    else
      let d := (d.ageEntries td (td.ageStep p.next)).1
      if d.ageSteps td ≤ p.next + 1 then
        Dev.fset { d with mat := { d.mat with ages := rest } } F.TBL_AGE.PASSES [s, a] ((d.fget F.TBL_AGE.PASSES [s, a] + 1) % 2 ^ 32)
      else { d with mat := { d.mat with ages := rest ++ [{ p with next := p.next + 1 }] } }

/-- COUNT is brought to the entries and reservations it counts when a slice's learning tables change (R185). -/
def Dev.recount (d : Dev) (s : Nat) : Dev :=
  let d := (List.range 32).foldl (fun (d : Dev) m =>
    d.fset F.TBL_PLIM.COUNT [s, m] (d.mat.learns.filter fun (l : Learn) => l.slice == s && d.portSlot l.port == m).length) d
  (List.range 64).foldl (fun (d : Dev) t =>
    let td := d.tdesc s t
    if ! d.learns td then d
    else (List.range (d.ageSteps td)).foldl (fun (d : Dev) j => (td.ageStep j).foldl (fun (d : Dev) i =>
      let e := d.exGet td 0 i
      if Img.exactOk e then d.countEntry td e true else d) d) d) d

/-- A frame is bound: pending learning settings take effect, and COUNT with them (R185, R193). -/
def Dev.afterBind (d0 d : Dev) : Dev :=
  (List.range 32).foldl (fun (d : Dev) s =>
    let lo := RegName.addr .TBL_LEARN [s, 0]
    let pend := fun (d : Dev) => d.inForce.any fun x => decide (lo ≤ x.1) && decide (x.1 < lo + 512)
    if pend d0 && ! pend d then d.recount s else d) d

/-- A multicast group is written from the staging registers (R189). -/
def Dev.mcgWrite (d : Dev) (g : Nat) : Dev :=
  let ws := (List.range 16).map fun w => d.rget .XFS_MCG_DATA [w]
  let pr := d.fbit F.XFS_MCG_CMD.PRUNE []
  let d := d.fsets [(F.XFS_MCG_CMD.GO, 0), (F.XFS_MCG_CMD.OP, 0), (F.XFS_MCG_CMD.GROUP, g)] []
  { d with mat := { d.mat with groups := mset [] d.mat.groups g (if ws.all (· == 0) then [] else ws),
                               prune := (d.mat.prune.filter (· != g)) ++ (if pr then [g] else []) } }

/-- A multicast group's mask. -/
def Dev.group (d : Dev) (g : Nat) : List Word := mget [] d.mat.groups g

/-- A multicast group is read back into the staging registers (R189). -/
def Dev.mcgRead (d : Dev) (g : Nat) : Dev :=
  let ws := d.group g
  let d := (List.range 16).foldl (fun (d : Dev) w => d.rset .XFS_MCG_DATA [w] (ws.getD w 0)) d
  d.fsets [(F.XFS_MCG_CMD.GO, 0), (F.XFS_MCG_CMD.OP, 1), (F.XFS_MCG_CMD.GROUP, g), (F.XFS_MCG_CMD.PRUNE, if d.mat.prune.contains g then 1 else 0)] []

end Sys2Proof.Machine
end

