-- ==== Sys2Proof/Machine/Stages.lean ====
section
/-! DEFINITION. The stage pipeline (R149 to R154, R166, R173), what a frame takes at the exits (R153, R171, R172, R410), mirrors and
samples (R266, R267), and the rewritten frame. -/

namespace Sys2Proof.Machine

set_option cleanup.letToHave false

/-- MAI_STATUS.QUIESCED and MAE_STATUS.QUIESCED: HOLD = 1 and no vector in any stage. -/
def Dev.showMai (d : Dev) (s : Nat) : Dev :=
  let busy := d.prs.frames.any fun (x : Frame) => d.portSlice x.port == s && (match x.loc with | .stage _ => true | _ => false)
  d.fset F.MAI_STATUS.QUIESCED [s] (if d.fbit F.MAI_CTL.HOLD [s] && ! busy then 1 else 0)
def Dev.showMae (d : Dev) (s : Nat) : Dev :=
  let busy := d.buf.copies.any fun (c : Copy) => c.staged && decide (c.estage < 12) && d.portSlice c.port == s
  d.fset F.MAE_STATUS.QUIESCED [s] (if d.fbit F.MAE_CTL.HOLD [s] && ! busy then 1 else 0)

/-- The fields of a stage's registers in one direction (R174): LUEN, ASEL, ASEL_EN, DEFAULT. -/
structure StageRegs where
  luen : Nat
  asel : Nat
  aselEn : Bool
  dflt : Nat

/-- A lookup's registers (MAI_LU, MAE_LU). -/
structure LookRegs where
  table : Nat
  fen : Bool
  neg : Bool
  fbit : Nat
  ren : Bool
  rdst : Nat
  den : Bool
  ddst : Nat

/-- Stage i's registers for a vector: its class B field as the vector took it at its packet boundary. -/
def Dev.stageRegs (d : Dev) (eg : Bool) (s i : Nat) (v : Vec) : StageRegs :=
  if eg then { luen := d.fget F.MAE_STAGE.LUEN [s, i], asel := d.fget F.MAE_STAGE.ASEL [s, i], aselEn := d.fbit F.MAE_STAGE.ASEL_EN [s, i],
               dflt := v.get F.MAE_STAGE.DEFAULT [s, i] }
  else { luen := d.fget F.MAI_STAGE.LUEN [s, i], asel := d.fget F.MAI_STAGE.ASEL [s, i], aselEn := d.fbit F.MAI_STAGE.ASEL_EN [s, i],
         dflt := v.get F.MAI_STAGE.DEFAULT [s, i] }

/-- Lookup k's registers of stage i for a vector. -/
def Dev.lookRegs (d : Dev) (eg : Bool) (s i k : Nat) (v : Vec) : LookRegs :=
  let ix := [s, i, k]
  if eg then { table := d.fget F.MAE_LU.TABLE ix, fen := v.get F.MAE_LU.FEN ix == 1, neg := v.get F.MAE_LU.NEG ix == 1,
               fbit := v.get F.MAE_LU.FBIT ix, ren := d.fbit F.MAE_LU.REN ix, rdst := d.fget F.MAE_LU.RDST ix,
               den := d.fbit F.MAE_LU.DEN ix, ddst := d.fget F.MAE_LU.DDST ix }
  else { table := d.fget F.MAI_LU.TABLE ix, fen := v.get F.MAI_LU.FEN ix == 1, neg := v.get F.MAI_LU.NEG ix == 1,
         fbit := v.get F.MAI_LU.FBIT ix, ren := d.fbit F.MAI_LU.REN ix, rdst := d.fget F.MAI_LU.RDST ix,
         den := d.fbit F.MAI_LU.DEN ix, ddst := d.fget F.MAI_LU.DDST ix }

/-- A lookup is made (R150). -/
def LookRegs.made (r : LookRegs) (luen k : Nat) (h : Hv) : Bool := bitN luen k && (! r.fen || (h.flag r.fbit != r.neg))

/-- The read of 16 B units found uncorrectable errors (R191, R403): they stay bad until rewritten, and their rows are soft-repaired. -/
def Dev.markBad (d : Dev) (s : Nat) (units : List Nat) : Dev :=
  (units.filter fun u => decide (u < tblBytes / 16)).foldl (fun (d : Dev) u =>
    let k := s * (tblBytes / 16) + u
    let d : Dev := { d with mat := { d.mat with badWords := if d.mat.badWords.contains k then d.mat.badWords else d.mat.badWords ++ [k] } }
    d.sramRepair (66 + s) (1 + u / 4096) true) d

/-- The stage copies what a lookup returned, or zeros on a miss (R157). -/
def copyLook (h : Hv) (r : LookRegs) (dlen : Nat) (hit : Option (Nat × Nat × List Byte)) : Hv :=
  let (res, data) := match hit with
    | some (_, x, l) => (beBytes 4 x, l)
    | none => (beBytes 4 0, List.replicate dlen 0)
  let h := if r.ren then h.setBytes r.rdst res 704 else h
  if r.den then h.setBytes r.ddst data 704 else h

/-- A vector passes the lookups of a stage: the vector after its copies, the hits with their RESULT, and each lookup's verdict on
learning (R150, R157, R182). `learner` is the ingress port of a frame that may learn. -/
def Dev.stageLooks (d : Dev) (eg : Bool) (s i : Nat) (v : Vec) (learner : Option Nat) :
    Dev × Hv × List (Option Nat) × List LearnVerdict :=
  let luen := (d.stageRegs eg s i v).luen
  let mal := Hv.get v.hv 511 511 == 1
  let outs := (List.range 4).map fun k =>
    let r := d.lookRegs eg s i k v
    let td := d.tdesc s r.table
    (k, r, td, if r.made luen k v.hv then some (d.look td v.hv v.stamp) else none)
  let h := outs.foldl (fun (h : Hv) o => copyLook h o.2.1 o.2.2.1.dlen (match o.2.2.2 with | some l => l.hit | none => none)) v.hv
  let d1 := outs.foldl (fun (d : Dev) o => match o.2.2.2 with | some l => d.lookFx o.2.2.1 l | none => d) d
  let learn := outs.foldl (fun (x : Dev × List LearnVerdict) o =>
    match o.2.2.2, learner with
    | some l, some p =>
      let td := o.2.2.1
      let ix := [s, td.t]
      let asks := x.1.learns td && x.1.fgetB F.TBL_LEARN.STAGE ix == i && x.1.fgetB F.TBL_LEARN.LU ix == o.1 && ! mal &&
        (! x.1.fbitB F.TBL_LEARN.LFEN ix || v.hv.flag (x.1.fgetB F.TBL_LEARN.LFBIT ix)) && x.1.fbit F.TBL_PLIM.LEN [s, x.1.portSlot p]
      if asks then let y := x.1.learnAsk td p (td.hvKey v.hv) l; (y.1, x.2 ++ [y.2]) else x
    | _, _ => x) (d1, [])
  (learn.1, h, outs.map fun o => match o.2.2.2 with | some l => l.hit.map (fun x => x.2.1) | none => none, learn.2)

/-- A vector takes what learning decided for it (R183). -/
def Vec.learned (v : Vec) (l : List LearnVerdict) : Vec :=
  { v with learnFull := v.learnFull || l.contains .full, learnOver := v.learnOver || l.contains .over,
           learnDrop := v.learnDrop || l.contains .drop }

/-- An illegal action word is met (R173). -/
def Dev.wordIllegal (d : Dev) (s stage word kind : Nat) : Dev :=
  let d := d.count (Ct.MA_ILLEGAL_CNT s) 1
  let d :=
    if d.fbit F.MAI_ILLEGAL.VALID [s] then d.fset F.MAI_ILLEGAL.OVERRUN [s] 1
    else d.fsets [(F.MAI_ILLEGAL.VALID, 1), (F.MAI_ILLEGAL.KIND, kind), (F.MAI_ILLEGAL.STAGE, stage), (F.MAI_ILLEGAL.WORD, word)] [s]
  let d := d.raise Ev.MA_ILLEGAL (32 * s + stage) (unitSlice s)
  if kind = 6 then d.sliceStoreError s (34 + s) else d

/-- A vector passes stage i (R149 to R151): none where its action word is illegal and drops it (R173). `ue` says that the read of the
word finds an uncorrectable error. -/
def Dev.stageRun (d : Dev) (a : ActIn) (i : Nat) (ue : Bool) (learner : Option Nat) : Dev × Option Vec :=
  let r := d.stageRegs a.eg a.s i a.v0
  let (d, h, hits, verdicts) := d.stageLooks a.eg a.s i a.v0 learner
  let v := Vec.learned { a.v0 with hv := h } verdicts
  let word := match (if r.aselEn then hits.getD r.asel none else none) with
    | some res => res / 2 ^ 18 % 2 ^ 14
    | none => r.dflt
  let w : AWord := mget 0 d.mat.store (a.s * 16384 + word)
  let code := if a.eg then 16 + i else i
  match (if ue then some 6 else w.illegal a.eg) with
  | some k => (d.wordIllegal a.s code word k, none)
  | none =>
    let y := d.actWord { a with hits := hits.map (·.isSome), v0 := v } w
    (y.1, some y.2)

/-- The data bytes of a ring's records (PEP_RING.SNAPLEN). -/
def Dev.snapLen (d : Dev) (r : Nat) : Nat := 16 * min 32 (d.fgetB F.PEP_RING.SNAPLEN [r])

/-- A record of a frame at the exit of ingress stage 15 (R263). -/
def Dev.frameRecord (d : Dev) (x : Frame) (v : Vec) (ring kind : Nat) : Dev :=
  let d := d.applyB .PEP_RING [ring]
  let k : Capture := { ring := ring, kind := kind, want := d.snapLen ring, eport := 0xFFFF, time := d.fab, intr := Hv.intrinsic v.hv, disp := v.disp,
                       flen := if x.ended then min 65535 x.bytes.length else 0 }
  (d.frameMod x.id fun (f : Frame) => { f with caps := f.caps ++ [k] }).frameCaps x.id

/-- The flowlet hold at the exit of ingress stage 15 (R410). -/
def Dev.flowlet (d : Dev) (s ts : Nat) (v : Vec) : Dev × Vec :=
  if v.get F.MAI_FLOWLET.EN [s] = 0 ∨ ¬ Hv.flag v.hv (v.get F.MAI_FLOWLET.FBIT [s]) ∨ Disp.fget v.disp 1 ≠ 1 then (d, v)
  else
    let k := s * 16384 + Hv.h0 v.hv % 16384
    let dest := Disp.fget v.disp 2
    let gap := us (atLeast1 (v.get F.MAI_FLOWLET.GAP [s]))
    let old := findFirst (fun (x : Nat × Nat × Nat) => x.1 == k) d.mat.flowlets
    let rest := d.mat.flowlets.filter fun (x : Nat × Nat × Nat) => x.1 != k
    let keep : Option Nat := match old with
      | some (_, p, t) => if p ≠ dest ∧ d.portUp p ∧ ts < t + gap then some p else none
      | none => none
    let port := keep.getD dest
    ({ d with mat := { d.mat with flowlets := rest ++ [(k, port, ts)] } }, { v with disp := Disp.fset v.disp 2 port })

/-- DEST names a configured port (R153); in stack mode also a port of another device that is present (R368). -/
def Dev.destConfigured (d : Dev) (dest : Nat) : Bool :=
  if d.fbit F.FAB_STK.EN [] then
    let n := bitsN dest 11 10
    if n = d.fget F.FAB_STK.MYNUM [] then d.fbit F.LN_PORT.EN [bitsN dest 9 0] else bitN (d.fget F.FAB_STK.MEMBERS []) n
  else decide (dest < 1024) && d.fbit F.LN_PORT.EN [dest]

/-- A mirror session is used at the exit of ingress stage 15 (R266): the sampled frame writes a record, or asks for a port copy. -/
def Dev.mirrorIn (d : Dev) (x : Frame) (v : Vec) : Dev :=
  let m := Disp.fget v.disp 7
  let d := if m = 0 then d else d.applyB .PEP_MIR [m]
  if m = 0 ∨ ¬ d.fbitB F.PEP_MIR.EN [m] then d
  else
    let (d, yes) := d.chance (d.fgetB F.PEP_MIR.SAMPLE [m])
    if ! yes then d
    else
      let d := d.count (Ct.PEP_MIR_CNT m) 1
      if d.fbitB F.PEP_MIR.TYPE [m] then d.frameMod x.id fun (f : Frame) => { f with mir := some m }
      else d.frameRecord x v (d.fgetB F.PEP_MIR.RING [m]) 3

/-- Ingress sampling (R267). -/
def Dev.sampleIn (d : Dev) (x : Frame) (v : Vec) : Dev :=
  let d := d.applyB .PEP_SAMP [x.port]
  if ! d.fbitB F.PEP_SAMP.IEN [x.port] then d
  else
    let (d, yes) := d.chance (d.fgetB F.PEP_SAMP.IK [x.port])
    if yes then d.frameRecord x v (d.fgetB F.PEP_SAMP.RING [x.port]) 5 else d

/-- A vector leaves ingress stage 15 (R153, R183, R410, R266, R267): the frame goes to the PTP engine, is trapped or dropped, or goes to
admission. -/
def Dev.ingressExit (d : Dev) (f : Nat) : Dev :=
  match d.frame? f with
  | none => d
  | some x =>
    let s := d.portSlice x.port
    let v := x.vec
    let v := if v.learnFull || v.learnOver then { v with disp := Disp.fset v.disp 1 3 } else v
    let v := if v.learnDrop then { v with disp := Disp.fset v.disp 0 1 } else v
    let (d, v) := d.flowlet s x.ts v
    let kind := Disp.fget v.disp 1
    let d := d.frameMod f fun (y : Frame) => { y with vec := v, loc := .exit }
    let d := (d.mirrorIn x v).sampleIn x v
    let gone := fun (d : Dev) =>
      if ((d.frame? f).map fun (y : Frame) => y.mir.isSome).getD false then
        d.frameMod f fun (y : Frame) => { y with vec := { y.vec with dropped := true } }
      else d.frameGone f
    if Disp.fget v.disp 10 = 1 then gone d
    else if Disp.fget v.disp 5 = 1 then gone (d.frameRecord x v (Disp.fget v.disp 6) 0)
    else if Disp.fget v.disp 0 = 1 then gone (d.count (Ct.MAI_DROP_CNT s) 1)
    else if kind = 0 ∨ (kind = 1 ∧ ¬ d.destConfigured (Disp.fget v.disp 2)) then
      gone ((d.count (Ct.MAI_NODEST_CNT s) 1).raiseLimited Ev.MA_NODEST x.port (unitSlice s) (ms 1))
    else d

/-- What a frame's meters and flow digests took before its length was known is settled once the frame has ended (R260, R379). -/
def Dev.frameSettle (d : Dev) (f : Nat) : Dev :=
  match d.frame? f with
  | none => d
  | some x =>
    if ! x.ended || (x.metered.isEmpty && x.digested.isEmpty) then d
    else
      let s := d.portSlice x.port
      let d := (d.meterSettle s (x.bytes.length - x.parse.window) x.metered).digestSettle s x.port x.bytes.length x.digested
      d.frameMod f fun (y : Frame) => { y with metered := [], digested := [] }

/-- A frame's vector passes its next ingress stage (R149); scan results appear from stage 4 (R134). -/
def Dev.ingressStage (d : Dev) (f : Nat) (bad : List Nat) (ue : Bool) : Dev :=
  match d.frame? f with
  | none => d
  | some x =>
    match x.loc with
    | .stage i =>
      let s := d.portSlice x.port
      let v := if i = 4 then { x.vec with hv := x.vec.hv ||| BitVec.ofNat 6144 x.vec.scanV } else x.vec
      let a : ActIn := { s := s, eg := false, port := x.port, fid := f, ts := x.ts, window := x.parse.window, hits := [], v0 := v }
      let y := (d.markBad s bad).stageRun a i ue (some x.port)
      let d := match y.2 with
        | none => y.1.frameGone f
        | some v =>
          let d := (y.1.frameMod f fun (g : Frame) => { g with vec := v, loc := if i < 15 then .stage (i + 1) else g.loc }).frameSettle f
          if i < 15 then d else d.ingressExit f
      d.showMai s
    | _ => d

/-- A copy's bytes without its FCS, as far as they have arrived; a copy that went bad for NOCELL, UNDERRUN, LINK or SIZE ends without
one (R219). -/
def Copy.data (c : Copy) : List Byte :=
  if c.domMsg || ! c.ended then c.bytes
  else match c.bad with
    | some 3 | some 4 | some 6 | some 7 => c.bytes
    | _ => c.bytes.take (c.bytes.length - 4)

/-- The telemetry of a copy that an IOAM fill writes (R374, R376). -/
def Dev.ioamVals (d : Dev) (c : Copy) (out : List Byte) (l : List PlacedEdit) (op : IoamOp) : IoamVals :=
  let s := d.portSlice c.port
  let g := fun (f : Fld) => c.vec.get f [s, op.profile]
  let tv := c.vec.tv
  let m := if g F.TEL_IOAM_B.HLMARK = 7 then 6 else g F.TEL_IOAM_B.HLMARK
  let hop := match Hv.markPos c.vec.hv m (g F.TEL_IOAM_B.HLOFF) with
    | some p => match out[editMap l c.data p]? with | some b => b.toNat | none => c.vec.hop
    | none => c.vec.hop
  { en := g F.TEL_IOAM_A.EN == 1, nsany := g F.TEL_IOAM_A.NSANY == 1, ns := g F.TEL_IOAM_B.NS, nodeId := g F.TEL_IOAM_A.NODEID,
    nsData := g F.TEL_IOAM_B.NSDATA, hopLim := hop, inPort := c.inPort, ePort := c.port,
    dqTime := (beNat (tv.take 6)) * sec 1 + beNat (slice tv 6 4) * 65536 + beNat (slice tv 10 2), residence := beNat (slice tv 12 4),
    qdepth := beNat (slice tv 16 4), poolUse := beNat (slice tv 20 4) }

/-- Where the IP header whose ECN field is marked begins (R209, BUF_EQ.EMARK). -/
def Dev.ecnPos (d : Dev) (c : Copy) (h : Hv) : Option Nat :=
  if c.ecn then
    let em := d.fgetB F.BUF_EQ.EMARK [c.port, c.queue]
    Hv.markPos h (if 5 < em then 0 else em) 0
  else none

/-- What the end of egress stage 11 makes of a copy's bytes (R172, R377, R209, R266): the rewritten bytes without FCS and whether an
IOAM fill was made or skipped; none where the edit list fails. -/
def Dev.rewriteCopy (d : Dev) (c : Copy) : Option (List Byte × Option Bool) :=
  let v := c.vec
  let data := c.data
  if 16 < v.edits.length ∨ 4 < v.csums.length then none
  else match placeEdits v.hv v.edits with
    | none => none
    | some l =>
      let past := l.any fun (e : PlacedEdit) => decide (min 512 data.length ≤ e.last)
      let ins := ((l.filter fun (e : PlacedEdit) => e.kind == 1).map fun (e : PlacedEdit) => e.len).sum
      if past ∨ editsOverlap l ∨ 256 < ins then none
      else
        let out := editRun l 0 data
        let (out, io) := match v.ioam with
          | none => (out, none)
          | some op => match ioamRun v.hv l data out op (d.ioamVals c out l op) with
            | .skip => (out, some false)
            | .fill o => (o, some true)
        match csumsRun v.hv l data v.csums out with
        | none => none
        | some out =>
          if d.maxFrame c.port < out.length + 4 then none
          else
            let out := match d.ecnPos c v.hv with
              | some p => ecnMark out (editMap l data p)
              | none => out
            some (if c.trunc = 0 then out else out.take (max 64 c.trunc), io)

/-- A cut-through copy waits at its last egress stage for the bytes that its edit list touches (R172). -/
def Dev.listWaits (d : Dev) (c : Copy) (v : Vec) : Bool :=
  ! c.ended && decide (c.estage = 11) && Disp.fget v.disp 0 != 1 && Sys2Proof.Machine.listWaits v.hv c.data v.edits v.csums v.ioam (d.ecnPos c v.hv)

/-- The members of the scheduler tree on a queue's path: the queue, its class node, its group node (R248). -/
def Dev.classOf (d : Dev) (p q : Nat) : Nat := 20 + d.fget F.QUE_SCH.PARENT (d.pIx p ++ [q])
def Dev.groupOf (d : Dev) (p k : Nat) : Nat := 28 + d.fget F.QUE_SCH.PARENT (d.pIx p ++ [k]) % 4
def Dev.pathOf (d : Dev) (p q : Nat) : List Nat := [q, d.classOf p q, d.groupOf p (d.classOf p q)]

/-- Every enabled shaper on a queue's path and the port's is charged n bytes (R253). -/
def Dev.chargePath (d : Dev) (p q : Nat) (n : Int) : Dev :=
  (d.pathOf p q ++ [32]).foldl (fun (d : Dev) k => d.shpCharge (d.portSlice p) (d.portSlot p) k n) d

/-- A vector leaves egress stage 11 (R171, R172, R253, R377, R378): the copy is dropped, or its rewritten frame goes on to the MAC. -/
def Dev.egressExit (d : Dev) (i : Nat) : Dev :=
  match d.copy? i with
  | none => d
  | some c =>
    let s := d.portSlice c.port
    if Disp.fget c.vec.disp 0 = 1 then (d.count (Ct.MAE_DROP_CNT s) 1).copyGone i
    else
      let c : Copy := if c.vec.ioam.isSome then { c with vec := { c.vec with hop := d.freeNow.toNat % 256 } } else c
      let d := if c.vec.ioam.isSome then d.drawn else d
      let d := d.hists s 1 c.vec (beNat (slice c.vec.tv 12 4))
      match d.rewriteCopy c with
      | none => ((d.count (Ct.MAE_EDIT_ERR_CNT s) 1).raiseLimited Ev.MA_EDIT_ERR c.port (unitSlice s) (ms 1)).copyGone i
      | some (out, io) =>
        let d := match io with
          | some true => d.count (Ct.TEL_IOAM_CNT c.port) 1
          | some false => (d.count (Ct.TEL_IOAM_SKIP_CNT c.port) 1).raiseLimited Ev.TEL_IOAM_SKIP c.port (unitSlice s) (ms 1)
          | none => d
        let diff : Int := (out.length : Int) - c.data.length
        let d := if ¬ c.mirror ∧ diff ≠ 0 then d.chargePath c.port c.queue diff else d
        d.copyMod i fun _ => { c with estage := 12, out := out, rewLen := c.data.length }

/-- A copy's vector passes its next egress stage (R149). -/
def Dev.egressStage (d : Dev) (i : Nat) (bad : List Nat) (ue : Bool) : Dev :=
  match d.copy? i with
  | none => d
  | some c =>
    if ! c.staged || decide (12 ≤ c.estage) then d
    else
      let s := d.portSlice c.port
      let a : ActIn := { s := s, eg := true, port := c.inPort, fid := c.fid.getD (2 ^ 64), ts := c.ts, window := 0, hits := [], v0 := c.vec }
      let y := (d.markBad s bad).stageRun a c.estage ue none
      match y.2 with
      | none => (y.1.copyGone i).showMae s
      | some v =>
        if d.listWaits c v then d
        else
          let d := y.1.copyMod i fun (x : Copy) => { x with vec := v, estage := x.estage + 1 }
          (if c.estage < 11 then d else d.egressExit i).showMae s

end Sys2Proof.Machine
end

