-- ==== Sys2Proof/Machine/Admission.lean ====
section
/-! DEFINITION. Admission (R204 with R189, R215, R258, R266, R366), the carry record (R154), the staging stores, the transfer scheduler
(R213, R214) and the arrival of cells in the egress cluster (R198, R205). -/

namespace Sys2Proof.Machine

set_option cleanup.letToHave false

/-- A destination of a frame: port and queue. -/
abbrev PortQueue := Nat × Nat

/-- The configured ports in a group's mask (R189). -/
def Dev.groupPorts (d : Dev) (g : Nat) : List Nat :=
  let ws := d.group g
  (List.range 16).flatMap fun w =>
    let m := (ws.getD w 0).toNat
    if m = 0 then [] else (rangeFrom (64 * w) 64).filter fun p => bitN m (p % 64) && d.fbit F.LN_PORT.EN [p]

/-- The up ports of the valid slots of a stack route (R368). -/
def Dev.stackRoute (d : Dev) (dev : Nat) : List Nat :=
  let d := d.applyB .FAB_STK_ROUTE [dev]
  let v := d.fgetB F.FAB_STK_ROUTE.VALID [dev]
  let ps := [d.fgetB F.FAB_STK_ROUTE.P0 [dev], d.fgetB F.FAB_STK_ROUTE.P1 [dev], d.fgetB F.FAB_STK_ROUTE.P2 [dev], d.fgetB F.FAB_STK_ROUTE.P3 [dev]]
  ((List.range 4).filter fun i => d.fget F.FAB_STK.STATE [] != 4 && bitN v i && d.portUp (ps.getD i 0)).map fun i => ps.getD i 0

/-- The port to which a unicast frame goes: DEST, or in stack mode the stack port on the way to another device (R368). -/
def Dev.destPort (d : Dev) (v : Vec) : Option Nat :=
  let dest := Disp.fget v.disp 2
  if d.fbit F.FAB_STK.EN [] && bitsN dest 11 10 != d.fget F.FAB_STK.MYNUM [] then
    let l := d.stackRoute (bitsN dest 11 10)
    if l.isEmpty then none else some (l.getD (Hv.h0 v.hv % l.length) 0)
  else if d.fbit F.FAB_STK.EN [] then some (bitsN dest 9 0) else some dest

/-- The stack port leads back toward the device that a relayed group frame came from (R368). -/
def Dev.backToSource (d : Dev) (x : Frame) (p : Nat) : Bool :=
  x.stk.length == 16 && bitN (beNat (slice x.stk 1 1)) 3 && (d.stackRoute (beNat (slice x.stk 1 1) / 64)).contains p

/-- The copies that a frame's disposition asks for (R153, R189). -/
def Dev.copySet (d : Dev) (x : Frame) : List PortQueue :=
  let v := x.vec
  let q := Disp.fget v.disp 3
  let group := fun (g : Nat) (prune : Bool) =>
    ((d.groupPorts g).filter fun p => ! (prune && p == x.port) && ! d.backToSource x p).map fun p => (p, 16 + q % 4)
  match Disp.fget v.disp 1 with
  | 1 => match d.destPort v with | some p => [(p, q % 16)] | none => []
  | 2 => group (Disp.fget v.disp 2) (d.mat.prune.contains (Disp.fget v.disp 2))
  | 3 =>
    let b := Disp.fget v.disp 11
    if d.fbitB F.XFS_BD.EN [b] then group (d.fgetB F.XFS_BD.FGROUP [b]) true else []
  | _ => []

/-- The carry record of a frame as an egress vector for one copy (R154). -/
def Dev.carry (d : Dev) (x : Frame) (p q : Nat) (mcopy : Bool) : Vec :=
  let s := d.portSlice x.port
  let h := x.vec.hv
  let go := (List.range 4).foldl (fun (a : Hv × Nat) r =>
    if ! d.fbit F.MAI_CARRY.EN [s, r] then a
    else
      let b := d.fget F.MAI_CARRY.START [s, r]
      let n := min (min 176 (d.fget F.MAI_CARRY.LEN [s, r])) (176 - a.2)
      (a.1.setBytes b (h.bytes b n) 704, a.2 + n)) ((Hv.intrinsic h).setWidth 6144, 0)
  let hv := (go.1.put 351 320 0).put 351 342 p
  { hv := (hv.put 341 337 q).put 336 336 (if mcopy then 1 else 0), disp := x.vec.disp, hop := x.vec.hop }

/-- Depth in units of 16 cells, held to 0xFFFF (R209). -/
def Dev.depth16 (d : Dev) (p q i : Nat) : Nat := min 0xFFFF (d.queueDepth p q i / 16)

/-- A copy over its queue's limit for its colour is dropped (R258). -/
def Dev.colourDrops (d : Dev) (colour : Nat) (c : PortQueue) : Bool :=
  let ix := d.pIx c.1 ++ [c.2]
  let lim := if colour = 1 then d.fgetB F.QUE_SCH.YLIM ix else d.fgetB F.QUE_SCH.RLIM ix
  colour != 0 && lim != 0xFFFF && decide (lim ≤ d.depth16 c.1 c.2 d.buf.nextCopy)

/-- The colour check of R258: the copies left, with the drops counted. -/
def Dev.colourCheck (d : Dev) (colour : Nat) (l : List PortQueue) : Dev × List PortQueue :=
  let gone := l.filter fun c => d.colourDrops colour c
  (gone.foldl (fun (d : Dev) c =>
     let k := 32 * c.1 + c.2
     (d.count (if colour = 1 then Ct.QUE_DROP_YEL_CNT k else Ct.QUE_DROP_RED_CNT k) 1).raiseLimited Ev.QUE_COLOUR_DROP c.1 (d.unitPort c.1) (ms 1)) d,
   l.filter fun c => ! d.colourDrops colour c)

/-- The cells of admitted frames that are still crossing (R204). -/
def Dev.crossingCells (d : Dev) : List VoqCell := d.buf.voq ++ d.buf.crossed

/-- The copy that a crossing cell belongs to. -/
def Dev.cellOwner (d : Dev) (c : VoqCell) : Option Copy := match c.copies with | i :: _ => d.copy? i | [] => none

/-- Crossing cells charged so far to nothing, by the owner they will have. -/
def Dev.crossingFor (d : Dev) (p : Copy → Bool) : Nat :=
  (d.crossingCells.filter fun (c : VoqCell) => c.copies.any fun i => match d.copy? i with | some x => p x | none => false).length

/-- An owner passes: its shared cells in the pool are below its threshold (R203). -/
def Dev.passes (d : Dev) (alpha pool key cross poolCross : Nat) : Bool :=
  decide (128 * (d.ownCells key + cross) < d.threshold alpha pool poolCross)

/-- How a frame is admitted: refused, shared or to headroom. -/
inductive Verdict where
  | refused | shared | headroom
  deriving DecidableEq, Repr

/-- Steps 2 and 3 of R204: the ingress priority group. -/
def Dev.pgVerdict (d : Dev) (p g pool : Nat) (lossless : Bool) : Verdict :=
  let pg := pgKey p g
  let mine := fun (c : Copy) => c.pg == some pg
  let cross := d.crossingFor fun c => mine c && ! c.toHeadroom && c.pool == pool
  let hcross := d.crossingFor fun c => mine c && c.toHeadroom
  let poolCross := d.crossingFor fun c => ! c.toHeadroom && c.pool == pool
  let low := decide (d.pgCells pg + (d.crossingFor mine) < d.fget F.BUF_IPG_A.MIN [p, g])
  let ok := d.passes (d.fgetB F.BUF_IPG_A.ALPHA [p, g]) pool (pgPoolKey pg pool) cross poolCross
  if ! lossless then (if low || ok then .shared else .refused)
  else if low || (! d.fbit F.BUF_IPG_STAT.XOFF [p, g] && ok) then .shared
  else if d.fget F.BUF_IPG_STAT.HUSE [p, g] + hcross < d.fget F.BUF_IPG_B.HDRM [p, g] ∧
      d.fget F.BUF_HDRM.USE [] + (d.crossingFor fun c => c.toHeadroom) < d.fget F.BUF_HDRM.SIZE [] then .headroom
  else .refused

/-- Step 4 of R204 for one copy. -/
def Dev.queueOk (d : Dev) (pool : Nat) (c : PortQueue) : Bool :=
  let mine := fun (x : Copy) => x.port == c.1 && x.queue == c.2
  let poolCross := d.crossingFor fun x => ! x.toHeadroom && x.pool == pool
  decide (d.fget F.BUF_EQ_STAT.ONDIE [c.1, c.2] + d.crossingFor mine < d.fget F.BUF_EQ.MIN [c.1, c.2]) ||
    d.passes (d.fgetB F.BUF_EQ.ALPHA [c.1, c.2]) pool (qPoolKey (qKey c.1 c.2) pool)
      (d.crossingFor fun x => mine x && ! x.toHeadroom && x.pool == pool) poolCross

/-- Step 5 of R204. -/
def Dev.poolFull (d : Dev) (pool : Nat) : Bool :=
  decide (d.fget F.BUF_SP.SIZE [pool] ≤ d.fget F.BUF_SP.USE [pool] + d.crossingFor fun x => ! x.toHeadroom && x.pool == pool)

/-- The egress cluster of a port. -/
def Dev.portCluster (d : Dev) (p : Nat) : Nat := d.portSlice p / 8

/-- Step 1 of R204: the clusters of the copies whose free store is empty. -/
def Dev.emptyClusters (d : Dev) (l : List PortQueue) : List Nat :=
  (l.map fun c => d.portCluster c.1).eraseDups.filter fun k => d.clusterFree k == 0

/-- Steps 1 to 5 of R204 on the copies of a frame: the copies admitted, and how. -/
def Dev.admitChecks (d : Dev) (x : Frame) (l : List PortQueue) (pg : Option Nat) (pool : Nat) : Dev × List PortQueue × Verdict :=
  let p := x.port
  match (d.emptyClusters l).head? with
  | some k => ((d.count (Ct.BUF_DROP_NOCELL_CNT k) 1).raiseKeyed Ev.BUF_NOCELL k k unitDev (ms 1), [], .refused)
  | none =>
    match pg with
    | some g =>
      let lossless := d.fbit F.BUF_IPG_A.LOSSLESS [p, g]
      match d.pgVerdict p g pool lossless with
      | .refused =>
        if lossless then ((d.count (Ct.BUF_DROP_HDRM_CNT p) 1).raise Ev.BUF_HDRM_DROP p (d.unitPort p), [], .refused)
        else (d.count (Ct.BUF_DROP_ING_CNT p) 1, [], .refused)
      | v =>
        if lossless then (d, l, v)
        else
          let gone := l.filter fun c => ! d.queueOk pool c
          let keep := l.filter fun c => d.queueOk pool c
          let d := gone.foldl (fun (d : Dev) c => d.count (Ct.BUF_DROP_EGR_CNT c.1) 1) d
          if keep.isEmpty then (d, [], .refused)
          else if d.poolFull pool then (d.count (Ct.BUF_DROP_ING_CNT p) 1, [], .refused)
          else (d, keep, v)
    | none => (d, [], .refused)

/-- The conditions of R215 for a frame whose only copy goes to p, q. -/
def Dev.cutsThrough (d : Dev) (x : Frame) (p q : Nat) : Bool :=
  let d := d.applyB .BUF_CT_EN [x.port, p / 64]
  Disp.fget x.vec.disp 9 == 1 && Disp.fget x.vec.disp 1 == 1 && bitN (d.fgetB F.BUF_CT_EN.EGR [x.port, p / 64]) (p % 64) &&
    decide (d.portGbps p ≤ d.portGbps x.port) &&
    ! (d.buf.copies.any fun (c : Copy) => c.port == p && c.queue == q && ! c.selected) &&
    (! d.shuttered p || (bitN (d.portMask p) q &&
      match d.timeLeft p q with
      | none => true
      | some left => decide (d.wireTime p (d.sillBytes p q) ≤ left)))

/-- The copies of a frame are made (R204, R206, R215). -/
def Dev.makeCopies (d : Dev) (x : Frame) (l : List PortQueue) (v : Verdict) (pg : Option Nat) (pool : Nat) (mcopy : Bool) (trunc : Nat)
    (mayCut : Bool) : Dev :=
  let cut := mayCut && (match l with | [c] => d.cutsThrough x c.1 c.2 | _ => false)
  l.foldl (fun (d : Dev) c =>
    let y : Copy :=
      { id := d.buf.nextCopy, fid := some x.id, stk := x.stk, inPort := x.port, port := c.1, queue := c.2, mcopy := mcopy,
        vec := d.carry x c.1 c.2 mcopy, pg := pg.map (pgKey x.port), pool := pool,
        lossless := (match pg with | some g => d.fbit F.BUF_IPG_A.LOSSLESS [x.port, g] | none => false),
        toHeadroom := v == .headroom, ended := x.ended, bad := x.bad, cut := cut, len := if x.ended then some x.bytes.length else none,
        bytes := x.bytes, ts := x.ts, trunc := trunc }
    let d : Dev := { d with buf := { d.buf with copies := d.buf.copies ++ [y], nextCopy := d.buf.nextCopy + 1 } }
    if cut then d.count (Ct.BUF_CT_CNT c.1) 1 else d) d

/-- Copies for queues that a SHED message masks are dropped (R366). -/
def Dev.shedDrop (d : Dev) (l : List PortQueue) : Dev × List PortQueue :=
  let hit := fun (c : PortQueue) => bitN d.fabric.shedMask c.2
  ((l.filter hit).foldl (fun (d : Dev) c => d.count (Ct.FAB_SHED_DROP_CNT (32 * c.1 + c.2)) 1) d, l.filter fun c => ! hit c)

/-- The admission of a frame is the boundary of its egress ports' BUF_PORT and of its queues' ALPHA (R221). -/
def Dev.admitBoundary (d : Dev) (l : List PortQueue) : Dev :=
  l.foldl (fun (d : Dev) c => (d.applyB .BUF_PORT [c.1]).applyField F.BUF_EQ.ALPHA [c.1, c.2]) d

/-- The port copy of a mirrored frame (R266). -/
def Dev.mirrorCopy (d : Dev) (x : Frame) : Dev :=
  match x.mir with
  | none => d
  | some m =>
    let c : PortQueue := (d.fgetB F.PEP_MIR.DEST [m], d.fgetB F.PEP_MIR.QUEUE [m] % 16)
    let d := d.admitBoundary [c]
    let pool := d.fgetB F.PEP_MIR.MPOOL [m]
    let pg := (wbits (d.rget .BUF_PORT [x.port]) (3 * (Disp.fget x.vec.disp 3 % 16) + 2) (3 * (Disp.fget x.vec.disp 3 % 16)))
    let refuse := fun (d : Dev) => (d.count (Ct.PEP_MIR_DROP_CNT m) 1).raiseKeyed Ev.PEP_MIR_DROP 0 m unitDev (ms 1)
    if ! d.fbit F.LN_PORT.EN [c.1] then refuse d
    else
      let (d, l) := d.shedDrop [c]
      let (d, l) := d.colourCheck (min 2 (Disp.fget x.vec.disp 4)) l
      if l.isEmpty then refuse d
      else match (d.emptyClusters l).head? with
        | some k => refuse ((d.count (Ct.BUF_DROP_NOCELL_CNT k) 1).raiseKeyed Ev.BUF_NOCELL k k unitDev (ms 1))
        | none =>
          if d.pgVerdict x.port pg pool false = .refused ∨ d.poolFull pool then refuse (d.count (Ct.BUF_DROP_ING_CNT x.port) 1)
          else if ! d.queueOk pool c then refuse (d.count (Ct.BUF_DROP_EGR_CNT c.1) 1)
          else d.makeCopies x [c] .shared (some pg) pool true (d.fgetB F.PEP_MIR.TRUNC [m]) false

/-- The number of cells of an admitted frame that are complete: the last one only with the frame's end. -/
def Frame.cellsReady (x : Frame) : Nat := if x.ended then cellsOf x.bytes.length else (x.bytes.length - 1) / 256

/-- The cells that the staging store of a slice holds. -/
def Dev.staged (d : Dev) (s : Nat) : Nat := (d.buf.voq.filter fun (c : VoqCell) => c.ingress == s).length

/-- The copies of a frame that still take cells, by egress slice (R206: one physical copy per slice). -/
def Dev.copyGroups (d : Dev) (f : Nat) : List (Nat × List Nat) :=
  let cs := d.buf.copies.filter fun (c : Copy) => c.fid == some f && ! c.cellsDone
  let ss := (cs.map fun (c : Copy) => d.portSlice c.port).eraseDups
  ss.map fun e => (e, (cs.filter fun (c : Copy) => d.portSlice c.port == e).map fun (c : Copy) => c.id)

/-- One more cell of an admitted frame enters the VOQs, if the staging store has room (chapter 09, The transfer scheduler). -/
def Dev.voqCell (d : Dev) (f : Nat) : Dev :=
  match d.frame? f with
  | none => d
  | some x =>
    let s := d.portSlice x.port
    let gs := d.copyGroups f
    if x.loc ≠ .admitted ∨ x.cellsReady ≤ x.cells ∨ 2048 < d.staged s + gs.length then d
    else
      let last := x.ended && x.cells + 1 == x.cellsReady
      let new : List VoqCell := gs.map fun g => { ingress := s, egress := g.1, copies := g.2, last := last }
      Dev.frameMod { d with buf := { d.buf with voq := d.buf.voq ++ new } } f fun (y : Frame) => { y with cells := y.cells + 1 }

/-- An admitted frame whose cells are all staged and whose end is known leaves the ingress side. -/
def Dev.admittedDone (d : Dev) (f : Nat) : Dev :=
  match d.frame? f with
  | none => d
  | some x =>
    if x.loc = .admitted ∧ x.ended ∧ x.cellsReady ≤ x.cells then
      { d with prs := { d.prs with frames := d.prs.frames.filter fun (y : Frame) => y.id != f } }
    else d

/-- The complete cells of an admitted frame enter the VOQs as far as the staging store has room. -/
def Dev.voqFill (d : Dev) (f : Nat) : Dev :=
  match d.frame? f with
  | none => d
  | some x => (iter (x.cellsReady - x.cells) (fun (d : Dev) => d.voqCell f) d).admittedDone f

/-- Every admitted frame of a slice, in the order of admission, gets what room its staging store has. -/
def Dev.voqRefill (d : Dev) (s : Nat) : Dev :=
  (d.prs.frames.filter fun (x : Frame) => x.loc == .admitted && d.portSlice x.port == s).foldl (fun (d : Dev) x => d.voqFill x.id) d

/-- A frame's first cell is at admission and nothing holds it: no HOLD of R221, room in the staging store, and no earlier frame of its
port still waits there. -/
def Dev.canAdmit (d : Dev) (x : Frame) : Bool :=
  x.loc == .exit && (decide (256 ≤ x.bytes.length) || x.ended) && ! d.fbit F.BUF_CTL.HOLD [] && ! d.fbit F.BUF_PORT.HOLD [x.port] &&
    ! ((d.copySet x).any fun c => d.fbit F.BUF_PORT.HOLD [c.1]) && decide (d.staged (d.portSlice x.port) < 2048) &&
    ! d.prs.frames.any fun (y : Frame) => y.port == x.port && (match y.loc with | .exit | .stage _ => true | _ => false) && decide (y.boundSeq < x.boundSeq)

/-- The admission of a frame (R204): its boundary fields take effect, its copies are checked in the order of the rules, and it is admitted
or leaves the path. -/
def Dev.admission (d : Dev) (f : Nat) : Dev :=
  match d.frame? f with
  | none => d
  | some x =>
    if ! d.canAdmit x then d
    else
      let g := wbits (d.rget .BUF_PORT [x.port]) (3 * (Disp.fget x.vec.disp 3 % 16) + 2) (3 * (Disp.fget x.vec.disp 3 % 16))
      let d := (d.applyB .BUF_IPG_A [x.port, g]).applyB .BUF_IPG_B [x.port, g]
      let d := (d.applyB .BUF_PORT [x.port]).applyBSpan (RegName.addr .XFS_BD [0]) (8 * 16384)
      let l := d.copySet x
      let d := d.admitBoundary l
      let pool := Disp.fget x.vec.disp 8
      let d :=
        if x.vec.dropped then d
        else if l.isEmpty then d.count (Ct.XFS_MCG_EMPTY_CNT 0) 1
        else
          let (d, l) := d.shedDrop l
          let (d, l) := d.colourCheck (min 2 (Disp.fget x.vec.disp 4)) l
          if l.isEmpty then d
          else
            let (d, l, v) := d.admitChecks x l (some g) pool
            d.makeCopies x l v (some g) pool (Disp.fget x.vec.disp 1 != 1) 0 true
      let d := d.mirrorCopy x
      if d.buf.copies.any fun (c : Copy) => c.fid == some f then
        (d.frameMod f fun (y : Frame) => { y with loc := .admitted }).voqFill f
      else d.frameGone f

/-- The first of a list of numbers at or after a pointer, cyclically modulo 32 (R213). -/
def atOrAfter (ptr : Nat) (l : List Nat) : Option Nat := findFirst (fun i => l.contains i) ((List.range 32).map fun j => (ptr + j) % 32)

/-- One iteration of the match of R213 on the pairs matched so far; the first iteration moves the pointers of accepted grants. -/
def Dev.matchIter (d : Dev) (first : Bool) (m : List (Nat × Nat)) : Dev × List (Nat × Nat) :=
  let free := fun (l : List Nat) (x : Nat) => ! l.contains x
  let ins := (List.range 32).filter (free (m.map fun p => p.1))
  let outs := (List.range 32).filter (free (m.map fun p => p.2))
  let grants := outs.filterMap fun e =>
    let req := ins.filter fun i => d.buf.voq.any fun (c : VoqCell) => c.ingress == i && c.egress == e
    (atOrAfter (d.buf.grantPtr.getD e 0) req).map fun i => (i, e)
  let acc := ins.filterMap fun i =>
    (atOrAfter (d.buf.acceptPtr.getD i 0) ((grants.filter fun p => p.1 == i).map fun p => p.2)).map fun e => (i, e)
  let d : Dev := if first then { d with buf := { d.buf with
      grantPtr := acc.foldl (fun (l : List Nat) p => l.set p.2 ((p.1 + 1) % 32)) d.buf.grantPtr,
      acceptPtr := acc.foldl (fun (l : List Nat) p => l.set p.1 ((p.2 + 1) % 32)) d.buf.acceptPtr } } else d
  (d, m ++ acc)

/-- Up to two cells of a VOQ cross, one on each plane (R213). -/
def Dev.crossPair (d : Dev) (p : Nat × Nat) : Dev :=
  let mine := fun (c : VoqCell) => c.ingress == p.1 && c.egress == p.2
  let go := (d.buf.voq.filter mine).take 2
  { d with buf := { d.buf with voq := (d.buf.voq.eraseP mine).eraseP mine, crossed := d.buf.crossed ++ go } }

/-- One cell slot of the crossbar (R213, R214): full staging stores are counted, three iterations of the match, and the cells move. -/
def Dev.crossbar (d : Dev) : Dev :=
  let d := (List.range 32).foldl (fun (d : Dev) s => if 2048 ≤ d.staged s then d.count (Ct.XFS_STAGE_FULL_CNT s) 1 else d) d
  let (d, m) := d.matchIter true []
  let (d, m) := d.matchIter false m
  let (d, m) := d.matchIter false m
  let d := m.foldl (fun (d : Dev) p => d.crossPair p) d
  ((m.map fun p => p.1).foldl (fun (d : Dev) s => d.voqRefill s) d).showBuf

/-- The copies of a cell that has crossed and that still exist. -/
def Dev.liveCopies (d : Dev) (c : VoqCell) : List Copy :=
  c.copies.filterMap fun i => match d.copy? i with | some x => if x.cellsDone then none else some x | none => none

/-- Copies are truncated (R205): they take no further cell and are bad with cause NOCELL. -/
def Dev.truncate (d : Dev) (l : List Copy) : Dev :=
  let d := d.count (Ct.BUF_TRUNC_CNT 0) 1
  let ids := l.map fun (c : Copy) => c.id
  let drop := fun (v : VoqCell) => { v with copies := v.copies.filter fun i => ! ids.contains i }
  let d := l.foldl (fun (d : Dev) c => d.copyMod c.id fun (x : Copy) =>
    let b := x.bytes.take (256 * x.cells.length)
    { x with fid := none, cellsDone := true, ended := true, bad := some 3, bytes := b, len := some b.length }) d
  { d with buf := { d.buf with voq := (d.buf.voq.map drop).filter fun (v : VoqCell) => ! v.copies.isEmpty,
                               crossed := (d.buf.crossed.map drop).filter fun (v : VoqCell) => ! v.copies.isEmpty } }

/-- The cell that crossed first is written at a free pointer of its egress cluster and charged (R196, R198, R201), or its frame is truncated
(R205). A pointer that is not a free cell of the cluster is turned away. -/
def Dev.cellCharge (d : Dev) (ptr : Nat) : Dev :=
  match d.buf.crossed with
  | [] => d
  | v :: rest =>
    let cl := v.egress / 8
    let live := d.liveCopies v
    let d1 : Dev := { d with buf := { d.buf with crossed := rest } }
    match live with
    | [] => d1.showBuf
    | c :: _ =>
      let pgLow := match c.pg with | some pg => decide (d.pgCells pg < d.fget F.BUF_IPG_A.MIN [pg / 8, pg % 8]) | none => false
      let qLow := live.any fun (c : Copy) => decide (d.fget F.BUF_EQ_STAT.ONDIE [c.port, c.queue] < d.fget F.BUF_EQ.MIN [c.port, c.queue])
      let hfull := c.toHeadroom && ! pgLow && ! qLow && decide (d.fget F.BUF_HDRM.SIZE [] ≤ d.fget F.BUF_HDRM.USE [])
      if d.clusterFree cl = 0 ∨ hfull then ((d1.truncate live).badTails).showBuf
      else if ¬ cellPtrOk ptr ∨ cellCluster ptr ≠ cl ∨ (mget? d.buf.cells ptr).isSome then d
      else
        let d := d1.cellAlloc ptr live
        let d := if v.last then live.foldl (fun (d : Dev) c => d.copyMod c.id fun (x : Copy) => { x with cellsDone := true, fid := none }) d else d
        d.badTails

/-- More bytes of an arriving frame, and what follows from them for an admitted one. -/
def Dev.moreArrives (d : Dev) (p : Nat) (bytes : List Byte) : Dev :=
  match d.arriving p with
  | none => d
  | some x => (d.frameMore p bytes).voqFill x.id

/-- A frame's tail arrives, and what follows: settlements (R260, R379), the rest of the charge of a cut-through frame (R253), the last
cells, and copies known bad before their heads leave (R218). -/
def Dev.tailArrives (d : Dev) (p : Nat) (bytes : List Byte) (err : Nat) : Dev :=
  match d.arriving p with
  | none => d
  | some x =>
    let late := d.buf.copies.filter fun (c : Copy) => c.fid == some x.id && c.selected && c.len.isNone && ! c.mcopy
    let d := (d.frameTail p bytes err).frameSettle x.id
    let n := min (d.maxFrame p) (x.bytes.length + bytes.length)
    let d := late.foldl (fun (d : Dev) c => d.chargePath c.port c.queue ((d.chargedLen c.port n : Int) - c.charged)) d
    (d.voqFill x.id).badTails

end Sys2Proof.Machine
end

