-- ==== Sys2Proof/Machine/Queues.lean ====
section
/-! DEFINITION. The egress side of the shared buffer: enqueue and ECN (R209), received PFC frames (R208), stuck queues (R210), the auditor
(R211, R212) and the layout check (R202). -/

namespace Sys2Proof.Machine

set_option cleanup.letToHave false

/-- The copy waits at its egress queue's door: all of it, or the first cell of a cut-through copy, is present (R215). -/
def Copy.atDoor (c : Copy) : Bool := ! c.enqueued && (c.cellsDone || (c.cut && ! c.cells.isEmpty))

/-- An earlier copy from the same ingress slice to the same queue has not joined it yet; frames keep their order. -/
def Dev.behindSibling (d : Dev) (c : Copy) : Bool :=
  d.buf.copies.any fun (x : Copy) => ! x.enqueued && decide (x.id < c.id) && x.port == c.port && x.queue == c.queue &&
    d.portSlice x.inPort == d.portSlice c.inPort

/-- The queue spills and its middle holds a frame, so that a new frame joins its tail (R225). -/
def Dev.hasMiddle (d : Dev) (p q : Nat) : Bool := ! (d.middle p q).isEmpty

/-- Whether R209 chooses a copy for marking. -/
def Dev.ecnChoice (d : Dev) (p q i : Nat) : Dev × Bool :=
  let ix := [p, q]
  let dep := d.depth16 p q i
  let lo := d.fgetB F.BUF_EQ.ECN_MIN ix
  let hi := d.fgetB F.BUF_EQ.ECN_MAX ix
  if ! d.fbitB F.BUF_EQ.ECNEN ix || decide (dep < lo) then (d, false)
  else if hi ≤ dep ∨ hi ≤ lo then (d, true)
  else (d.drawn, decide (d.freeNow.toNat % (16 * (hi - lo)) < (d.fgetB F.BUF_EQ.PMAX ix + 1) * (dep - lo)))

/-- A copy joins its egress queue (R209, R225): ECN is decided, and it stands behind the queue's other frames. -/
def Dev.enqueue (d : Dev) (i : Nat) : Dev :=
  match d.copy? i with
  | none => d
  | some c =>
    if ! c.atDoor || d.behindSibling c then d
    else
      let p := c.port
      let q := c.queue
      let d := (d.applyB .BUF_EQ [p, q]).applyB .SPL_Q [p, q]
      let depth := d.queueDepth p q i
      let (d, marked) := d.ecnChoice p q i
      let em := d.fgetB F.BUF_EQ.EMARK [p, q]
      let at' := Hv.markPos c.vec.hv (if 5 < em then 0 else em) 0
      let field := match at' with
        | some a => if 511 ≤ a then none else (ecnAt c.bytes a).map fun x => x.2
        | none => none
      let nonect := decide (field = some 0)
      if marked && nonect && d.fbitB F.BUF_EQ.NONECT [p, q] then (d.count (Ct.BUF_ECN_DROP_CNT (32 * p + q)) 1).copyGone i
      else
        let ecn := marked && (match field with | some f => f == 1 || f == 2 | none => false)
        let d := if ecn then d.count (Ct.BUF_ECN_MARK_CNT (32 * p + q)) 1 else d
        let seg : Seg := if q < 16 && d.fbit F.SPL_Q.EN [p, q] && d.hasMiddle p q then .tail else .head
        let c' : Copy := { c with enqueued := true, qdepth := depth, ecn := ecn, seg := seg }
        let d : Dev := { d with buf := { d.buf with copies := (d.buf.copies.filter fun (x : Copy) => x.id != i) ++ [c'] } }
        d.headFix p q

/-- A PFC frame is received on port p (R208): `timers` holds eight times in quanta. -/
def Dev.pfcRx (d : Dev) (p mask : Nat) (timers : List Nat) : Dev :=
  if ! d.fbit F.BUF_PORT.PFC_RX [p] then d.count (Ct.BUF_PAUSE_RX_CNT p) 1
  else
    let d := d.count (Ct.BUF_PFC_RX_CNT p) 1
    (List.range 8).foldl (fun (d : Dev) i =>
      if ! bitN mask i then d
      else
        let t := timers.getD i 0 % 65536
        let k := p * 8 + i
        { d with buf := { d.buf with pause := if t = 0 then mdel d.buf.pause k else mins d.buf.pause k (d.now + d.quantaTime p t) } }) d

/-- A priority's pause timer has run out (R208). -/
def Dev.pfcExpire (d : Dev) (p i : Nat) : Dev :=
  match mget? d.buf.pause (p * 8 + i) with
  | some t => if t ≤ d.now then { d with buf := { d.buf with pause := mdel d.buf.pause (p * 8 + i) } } else d
  | none => d

/-- The copies of a queue that wait in it. -/
def Dev.waiting (d : Dev) (p q : Nat) : List Copy :=
  d.buf.copies.filter fun (c : Copy) => c.port == p && c.queue == q && c.enqueued && ! c.selected

/-- The queue is held by its closed shutter. -/
def Dev.shutNow (d : Dev) (p q : Nat) : Bool := ! bitN (d.portMask p) q

/-- The monitor visits queue q of port p (R210). -/
def Dev.queueAge (d : Dev) (p q : Nat) : Dev :=
  match mget? d.buf.heads (qKey p q) with
  | none => d
  | some h =>
    let age := if d.paused p q || d.shutNow p q then h.age else h.age + (d.now - h.last)
    let d : Dev := { d with buf := { d.buf with heads := mins d.buf.heads (qKey p q) { h with age := age, last := d.now } } }
    if ! d.fbit F.BUF_QAGE_CTL.EN [] || decide (age ≤ us (atLeast1 (d.fget F.BUF_QAGE_CTL.LIMIT []))) then d
    else
      let d := if d.fbit F.BUF_EQ_STAT.STUCK [p, q] then d
        else ((d.fset F.BUF_EQ_STAT.STUCK [p, q] 1).count (Ct.BUF_STUCK_CNT (32 * p + q)) 1).raise Ev.BUF_STUCK (32 * p + q) (d.unitPort p)
      if d.fbit F.BUF_QAGE_CTL.ACTION [] then
        (d.waiting p q).foldl (fun (d : Dev) c => (d.count (Ct.BUF_QFLUSH_CNT (32 * p + q)) 1).copyGone c.id) d
      else d

/-- The sum that the auditor compares with the number of cells, less that number (R211). -/
def Dev.auditDiff (d : Dev) : Int :=
  let use := ((List.range 4).map fun k => d.fget F.BUF_SP.USE [k]).sum
  let res := (d.buf.cells.filter fun (x : Nat × CellSt) => ! x.2.inflight && x.2.cat == .reserved).length
  ((use + d.fget F.BUF_HDRM.USE [] + res + d.fget F.BUF_FREE.FREE [] + d.fget F.BUF_FREE.INFLIGHT [] : Nat) : Int) - cellTotal

/-- A mark walk starts with its snapshot (R212). -/
def Dev.walkStart (d : Dev) : Dev :=
  if d.buf.walk.isSome then d else Dev.fset { d with buf := { d.buf with walk := some d.now } } F.BUF_AUD_CTL.WALK [] 1

/-- The auditor's check (R211), 1 ms after the last one. -/
def Dev.auditCheck (d : Dev) : Dev :=
  if ! d.fbit F.BUF_AUD_CTL.EN [] || ! d.since d.buf.auditAt (ms 1) then d
  else
    let diff := d.auditDiff
    let miss := if diff = 0 then 0 else d.buf.auditMiss + 1
    let go := decide (atLeast1 (d.fget F.BUF_AUD_CTL.PERSIST []) ≤ miss)
    let d : Dev := { d with buf := { d.buf with auditMiss := if go then 0 else miss, auditAt := d.now } }
    let d := d.fset F.BUF_AUD_STATUS.DIFF [] (unsext 22 diff)
    if go then (d.raise Ev.BUF_AUD_MISMATCH 0 unitDev).walkStart else d

/-- The cells of the copies that exist. -/
def Dev.markedCells (d : Dev) : List Nat := (d.buf.copies.flatMap fun (c : Copy) => c.cells).eraseDups

/-- The counts of queues and pools are rebuilt from the marked cells (R212). -/
def Dev.rebuildCounts (d : Dev) : Dev :=
  let lo := RegName.addr .BUF_EQ_STAT [0, 0]
  let qs := d.regs.filterMap fun (r : Nat × Word) =>
    if lo ≤ r.1 ∧ r.1 < lo + 256 * 1024 then some ((r.1 - lo) / 256, (r.1 - lo) % 256 / 8) else none
  let d := qs.foldl (fun (d : Dev) c => (d.fset F.BUF_EQ_STAT.ONDIE [c.1, c.2] 0).fset F.BUF_EQ_STAT.SHARED [c.1, c.2] 0) d
  let d := (List.range 4).foldl (fun (d : Dev) k => d.fset F.BUF_SP.USE [k] 0) (d.fset F.BUF_HDRM.USE [] 0)
  let d : Dev := { d with buf := { d.buf with ownPool := d.buf.ownPool.filter fun (x : Nat × Nat) => decide (x.1 < 2 ^ 20) } }
  d.buf.cells.foldl (fun (d : Dev) x =>
    if x.2.inflight then d
    else
      let d := match x.2.cat with
        | .shared => d.fadd F.BUF_SP.USE [x.2.pool] true
        | .headroom => d.fadd F.BUF_HDRM.USE [] true
        | .reserved => d
      x.2.copies.foldl (fun (d : Dev) i => match d.copy? i with
        | some c => d.chargeQ x.2 c.port c.queue true
        | none => d) d) d

/-- A mark walk ends (R212): leaked cells are reported and, with RECLAIM, given back and the counts rebuilt. -/
def Dev.walkDone (d : Dev) : Dev :=
  match d.buf.walk with
  | none => d
  | some t0 =>
    let marked := d.markedCells
    let leaked := (d.buf.cells.filter fun (x : Nat × CellSt) => ! x.2.inflight && decide (x.2.since ≤ t0) && ! marked.contains x.1).map fun x => x.1
    let n := leaked.length
    let d : Dev := { d with buf := { d.buf with walk := none } }
    let d := (d.fset F.BUF_AUD_CTL.WALK [] 0).fset F.BUF_AUD_STATUS.LEAKED [] n
    let d := (List.range 16).foldl (fun (d : Dev) i =>
      match leaked[i]? with
      | some c => d.fsets [(F.BUF_LEAK_LOG.VALID, 1), (F.BUF_LEAK_LOG.CELL, c)] [i]
      | none => d.rset .BUF_LEAK_LOG [i] 0) d
    let d :=
      if d.fbit F.BUF_AUD_CTL.RECLAIM [] then
        let d := leaked.foldl (fun (d : Dev) c =>
          Dev.fset { d with buf := { d.buf with cells := mdel d.buf.cells c } } F.BUF_FREE.FREE [] (d.fget F.BUF_FREE.FREE [] + 1)) d
        d.rebuildCounts
      else d
    let ph := d.auditDiff
    let d := d.fset F.BUF_AUD_STATUS.PHANTOM [] (unsext 21 ph)
    if n ≠ 0 ∨ ph ≠ 0 then d.raise Ev.BUF_AUD_LEAK (min n (2 ^ 18 - 1)) unitDev else d

/-- RSV: the sum of every PG MIN and every queue MIN (R201). -/
def Dev.reserve (d : Dev) : Nat :=
  let ipg := RegName.addr .BUF_IPG_A [0, 0]
  let eq := RegName.addr .BUF_EQ [0, 0]
  (d.regs.map fun (r : Nat × Word) =>
    if ipg ≤ r.1 ∧ r.1 < ipg + 128 * 1024 then (if (r.1 - ipg) % 16 = 0 then wbits r.2 52 32 else 0)
    else if eq ≤ r.1 ∧ r.1 < eq + 256 * 1024 then wbits r.2 63 44
    else 0).sum

/-- BUF_STATUS.RSV shows the reserve. -/
def Dev.showRsv (d : Dev) : Dev := d.fset F.BUF_STATUS.RSV [] d.reserve

/-- The layout satisfies R202. -/
def Dev.layoutOk (d : Dev) : Bool :=
  decide (d.reserve + d.fget F.BUF_HDRM.SIZE [] + ((List.range 4).map fun k => d.fget F.BUF_SP.SIZE [k]).sum ≤ cellTotal - 8192)

/-- A HOLD is written 0 (R202): of port p, or with p = 1,024 the global one. Where the check fails HOLD stays as it is. -/
def Dev.holdRelease (d : Dev) (p : Nat) : Dev :=
  if d.layoutOk then
    if p = 1024 then (d.fset F.BUF_CTL.HOLD [] 0).showBuf else (d.fset F.BUF_PORT.HOLD [p] 0).showBufPort p
  else
    (d.fset F.BUF_STATUS.CFGERR [] 1).raise Ev.BUF_CFGERR p (if p = 1024 then unitDev else d.unitPort p)

end Sys2Proof.Machine
end

