-- ==== Sys2Proof/Machine/Spill.lean ====
section
/-! DEFINITION. Spill memory (chapter 10): segments and candidates, pages and their reserves, the controllers' queues and open rows,
self-refresh, ECC, training, the page audit and the retirement of pseudo-channels. -/

namespace Sys2Proof.Machine

set_option cleanup.letToHave false

/-- A queue's HEAD target: a value at or above HI acts as HI ÷ 2 (SPL_Q). -/
def Dev.headTarget (d : Dev) (p q : Nat) : Nat :=
  let hi := d.fgetB F.SPL_Q.HI [p, q]
  let h := d.fgetB F.SPL_Q.HEAD [p, q]
  if hi ≤ h then hi / 2 else h

/-- The first frame of a head segment that begins at least n cells behind the segment's first cell. -/
def beginsBehind (n : Nat) : Nat → List Copy → Option Copy
  | _, [] => none
  | o, c :: l => if n ≤ o then some c else beginsBehind n (o + c.cells.length) l

/-- The oldest tail frame of a queue. -/
def Dev.tailFirst (d : Dev) (p q : Nat) : Option Copy :=
  findFirst (fun (c : Copy) => c.port == p && c.queue == q && c.enqueued && c.seg == .tail && ! c.selected) d.buf.copies

/-- The candidate of a queue (R226). -/
def Dev.candidate (d : Dev) (p q : Nat) : Option Copy :=
  if d.hasMiddle p q then d.tailFirst p q else beginsBehind (d.headTarget p q) 0 (d.headSeg p q)

/-- Spilling of a queue stops (R226): its last partly filled page takes nothing more. -/
def Dev.spillStop (d : Dev) (p q : Nat) : Dev :=
  { d with spl := { d.spl with running := d.spl.running.filter (· != qKey p q),
                               fill := d.spl.fill.filter fun (x : Nat × Nat × Nat) => x.1 != qKey p q } }

/-- Spilling stops at HI − 16 on-die cells, or without a candidate (R226). -/
def Dev.spillCheck (d : Dev) (p q : Nat) : Dev :=
  if d.fget F.BUF_EQ_STAT.ONDIE [p, q] ≤ d.fgetB F.SPL_Q.HI [p, q] - 16 ∨ (d.candidate p q).isNone then d.spillStop p q else d

/-- The queue spills now: its on-die cells exceed HI, or it has begun and they exceed HI − 16 (R226). -/
def Dev.spilling (d : Dev) (p q : Nat) : Bool :=
  let n := d.fget F.BUF_EQ_STAT.ONDIE [p, q]
  let hi := d.fgetB F.SPL_Q.HI [p, q]
  decide (q < 16) && d.fbit F.SPL_Q.EN [p, q] && (decide (hi < n) || (d.spl.running.contains (qKey p q) && decide (hi - 16 < n)))

/-- Pseudo-channel c of stack k is retired or being retired. -/
def Dev.pcOut (d : Dev) (k c : Nat) : Bool :=
  bitN (d.fget F.SPL_STATUS.RETIRED [k]) c || ((d.stack k).retiring.any fun (r : Retire) => r.pc == c)

/-- A page pointer names a page of the pool that can be allocated (R224, R244). -/
def Dev.pageOk (d : Dev) (p : Nat) : Bool :=
  decide (p < 2 ^ 25) && decide (1184 ≤ bitsN p 17 0) && decide (bitsN p 17 0 < 196608) && ! d.pcOut (pageStack p) (pagePc p) &&
    (mget? d.spl.pages p).isNone

/-- A stack can be given a page (R230 step 1). -/
def Dev.stackOpen (d : Dev) (k : Nat) : Bool :=
  d.fbit F.SPL_CTL.EN [k] && ! d.fbit F.SPL_CTL.HOLD [k] && decide (0 < (d.stack k).cache)

/-- The stack that R230 chooses for a new page. -/
def Dev.pickStack (d : Dev) : Option Nat :=
  let l := (List.range 4).filter d.stackOpen
  let act := l.filter fun k => d.fget F.SPL_STATUS.SRSTATE [k] == 0
  let l := if act.isEmpty then l else act
  l.foldl (fun (b : Option Nat) k =>
    match b with
    | some j => if (d.stack j).cache < (d.stack k).cache then some k else b
    | none => some k) none

/-- A page may be allocated to a queue (R229): reserved below PMIN, shared below its threshold. -/
def Dev.pageAllowed (d : Dev) (p q : Nat) : Bool :=
  let n := d.queuePages p q
  let pmin := d.fget F.SPL_Q.PMIN [p, q]
  decide (n < pmin) ||
    decide (128 * (n - pmin) < d.fget F.SPL_GPOOL.SHARED_FREE [] * 2 ^ (alphaOf (d.fgetB F.SPL_Q.PALPHA [p, q]) + 7).toNat)

/-- A page is allocated to a queue. -/
def Dev.pageAlloc (d : Dev) (p q ptr : Nat) : Dev :=
  let k := pageStack ptr
  let d : Dev := { d with spl := { d.spl with pages := mins d.spl.pages ptr { queue := qKey p q } } }
  let d := (d.stackMod k fun (x : StackSt) => { x with cache := x.cache - 1 }).fset F.SPL_POOL.FREE [k] (d.fget F.SPL_POOL.FREE [k] - 1)
  ((d.fset F.SPL_Q_STAT.PAGES [p, q] (d.queuePages p q + 1)).showGpool).showStack k

/-- What becomes of the pages asked for a frame: all allocated, one refused (R229), or one that the device would not choose. -/
inductive PageRes where
  | ok (d : Dev) | denied | wrong
  deriving DecidableEq, Repr

/-- The pages for a frame are allocated one by one (R229, R230). -/
def Dev.pagesAlloc (d : Dev) (p q : Nat) : List Nat → PageRes
  | [] => .ok d
  | x :: l =>
    if ! d.pageAllowed p q then .denied
    else if d.pickStack ≠ some (pageStack x) ∨ ¬ d.pageOk x then .wrong
    else (d.pageAlloc p q x).pagesAlloc p q l

/-- The room in the last page of a queue's middle. -/
def Dev.pageRoom (d : Dev) (p q : Nat) : Nat :=
  match findFirst (fun (x : Nat × Nat × Nat) => x.1 == qKey p q) d.spl.fill with
  | some x => 16 - x.2.2
  | none => 0

/-- n cells spread over pages, `room` in the first where it is already in use. -/
def spreadCells : Nat → List Nat → List Nat
  | _, [] => []
  | n, r :: l => min n r :: spreadCells (n - min n r) l

/-- A request reaches a stack (R238, R239): an entry not yet issued is abandoned, a stack in self-refresh starts its
exit, unless a restart or a coasting PLL holds it there (R123, R322). -/
def Dev.srRequest (d : Dev) (k : Nat) : Dev :=
  let now := d.now
  match d.fget F.SPL_STATUS.SRSTATE [k] with
  | 0 => d.stackMod k fun (x : StackSt) => { x with idleSince := now }
  | 1 => ((d.count (Ct.SPL_SR_ABORT_CNT k) 1).fset F.SPL_STATUS.SRSTATE [k] 0).stackMod k fun (x : StackSt) => { x with idleSince := now }
  | 2 => if (d.stack k).held then
           if (d.stack k).reqSince.isSome then d else (d.count (Ct.SPL_SR_WAKE_CNT k) 1).stackMod k fun (x : StackSt) => { x with reqSince := some now }
         else ((d.count (Ct.SPL_SR_WAKE_CNT k) 1).fset F.SPL_STATUS.SRSTATE [k] 3).stackMod k fun (x : StackSt) => { x with reqSince := some now }
  | _ => if (d.stack k).reqSince.isSome then d
         else (d.count (Ct.SPL_SR_WAKE_CNT k) 1).stackMod k fun (x : StackSt) => { x with reqSince := some now }

/-- Requests reach the stacks of a frame's pages. -/
def Dev.srRequests (d : Dev) (pages : List Nat) : Dev := (pages.map pageStack).eraseDups.foldl (fun (d : Dev) k => d.srRequest k) d

/-- The stacks of a frame's pages are in ACTIVE. -/
def Dev.srActive (d : Dev) (pages : List Nat) : Bool := pages.all fun p => d.fget F.SPL_STATUS.SRSTATE [pageStack p] == 0

/-- A copy is being written to its pages, or read from them. -/
def Copy.writing (c : Copy) : Bool := c.seg == .spilling
def Copy.reading (c : Copy) : Bool := c.seg == .returning

/-- Cells in the write queue, or the read queue, of pseudo-channel c of stack k (chapter 10, The controller). -/
def Dev.queued (d : Dev) (which : Copy → Bool) (k c : Nat) : Nat :=
  ((d.buf.copies.filter which).map fun (x : Copy) =>
    ((x.pages.zip x.pcells).map fun y => if pageStack y.1 = k ∧ pagePc y.1 = c then y.2 else 0).sum).sum
def Dev.wq (d : Dev) (k c : Nat) : Nat := d.queued Copy.writing k c
def Dev.rq (d : Dev) (k c : Nat) : Nat := d.queued Copy.reading k c

/-- A drain is in progress in a pseudo-channel (R232). -/
def Dev.draining (d : Dev) (k c : Nat) : Bool := (d.stack k).drains.contains c

/-- Drains begin at 48 queued writes and end at 16 (R232). -/
def Dev.drainFix (d : Dev) (pages : List Nat) : Dev :=
  ((pages.map fun p => (pageStack p, pagePc p)).eraseDups).foldl (fun (d : Dev) x =>
    let n := d.wq x.1 x.2
    let was := d.draining x.1 x.2
    if 48 ≤ n ∧ ¬ was then d.stackMod x.1 fun (s : StackSt) => { s with drains := s.drains ++ [x.2] }
    else if n ≤ 16 ∧ was then d.stackMod x.1 fun (s : StackSt) => { s with drains := s.drains.filter (· != x.2) }
    else d) d

/-- The queues of the pages' pseudo-channels have room for more cells: 64 entries each. -/
def Dev.roomFor (d : Dev) (which : Copy → Bool) (pages pcells : List Nat) : Bool :=
  ((pages.map fun p => (pageStack p, pagePc p)).eraseDups).all fun x =>
    decide (d.queued which x.1 x.2 + ((pages.zip pcells).map fun y => if pageStack y.1 = x.1 ∧ pagePc y.1 = x.2 then y.2 else 0).sum ≤ 64)

/-- The bank set and row of a page within its pseudo-channel: a layout of the model's, as the page's own is internal (R224; log entry 24). -/
def pageBank (p : Nat) : Nat := pagePc p * 16 + p % 16
def pageRow (p : Nat) : Nat := bitsN p 17 4

/-- A bank set's history of row hits, newest first, and its open row (R233). -/
def Dev.bankRow (d : Dev) (k b : Nat) : List Bool × Option Nat :=
  match findFirst (fun (x : Nat × List Bool × Option Nat) => x.1 == b) (d.stack k).rows with
  | some x => x.2
  | none => ([], none)
def Dev.setBankRow (d : Dev) (k b : Nat) (h : List Bool × Option Nat) : Dev :=
  d.stackMod k fun (s : StackSt) => { s with rows := (s.rows.filter fun (x : Nat × List Bool × Option Nat) => x.1 != b) ++ [(b, h.1, h.2)] }

/-- An activate is followed by a neighbour refresh with probability 2^-K (R235). -/
def Dev.neighbour (d : Dev) (k c : Nat) : Dev :=
  if ! d.fbit F.SPL_CTL.NRR_EN [k] then d
  else
    let (d, yes) := d.chance (max 9 (min 14 (d.fget F.SPL_CTL.NRR_K [k])))
    if yes then d.count (Ct.SPL_NRR_CNT (32 * k + c)) 1 else d

/-- A page is accessed: its four banks hit their open row or activate it, and the row stays open by the history of R233. -/
def Dev.pageAccess (d : Dev) (p : Nat) : Dev :=
  let k := pageStack p
  let (h, op) := d.bankRow k (pageBank p)
  let hit := decide (op = some (pageRow p))
  let d := if hit then d else iter 4 (fun (d : Dev) => d.neighbour k (pagePc p)) d
  let h := (hit :: h).take 4
  let t := d.fget F.SPL_CTL.PRED_T [k]
  d.setBankRow k (pageBank p) (h, if t ≤ (h.filter id).length ∧ t ≤ 4 then some (pageRow p) else none)

/-- A candidate is written to pages (R226, R228 to R230): `new` are the pages that the device allocates for it. -/
def Dev.spillFrame (d : Dev) (i : Nat) (new : List Nat) : Dev :=
  match d.copy? i with
  | none => d
  | some c =>
    let p := c.port
    let q := c.queue
    if ! d.spilling p q || ((d.candidate p q).map fun (x : Copy) => x.id) != some i || ! c.cellsDone then d
    else
      let need := c.cells.length + 1
      let room := d.pageRoom p q
      if new.length ≠ ceilDiv (need - room) 16 then d
      else
        let old := (d.spl.fill.filter fun (x : Nat × Nat × Nat) => x.1 == qKey p q && decide (0 < room)).map fun x => x.2.1
        let pages := old ++ new
        let pcells := spreadCells need ((if old.isEmpty then [] else [room]) ++ new.map fun _ => 16)
        if ! d.roomFor Copy.writing pages pcells then d
        else match d.pagesAlloc p q new with
          | .wrong => d
          | .denied => ((d.spillStop p q).count (Ct.SPL_PAGE_DENY_CNT p) 1).raiseKeyed Ev.SPL_PAGE_DENY p p (d.unitPort p) (ms 1)
          | .ok d =>
            let first := ! d.hasMiddle p q
            let lastUse := pcells.getLastD 0 + (if new.isEmpty then 16 - room else 0)
            let fill : List (Nat × Nat × Nat) := match pages.getLast? with
              | some x => if lastUse < 16 then [(qKey p q, x, lastUse)] else []
              | none => []
            let rest := d.spl.fill.filter fun (x : Nat × Nat × Nat) => x.1 != qKey p q
            let run := if d.spl.running.contains (qKey p q) then d.spl.running else d.spl.running ++ [qKey p q]
            let d : Dev := { d with spl := { d.spl with fill := rest ++ fill, running := run } }
            let d := d.copyMod i fun (x : Copy) => { x with seg := .spilling, pages := pages, pcells := pcells }
            let after := (d.waiting p q).dropWhile fun (x : Copy) => x.id != i
            let d := if first then
                after.foldl (fun (d : Dev) x => d.copyMod x.id fun (y : Copy) => if y.seg = .head then { y with seg := .tail } else y) d else d
            ((d.srRequests pages).drainFix pages).headFix p q

/-- The writes of a spilled frame may be issued now (R232). -/
def Dev.mayWrite (d : Dev) (pages : List Nat) : Bool :=
  pages.all fun p => d.draining (pageStack p) (pagePc p) || d.rq (pageStack p) (pagePc p) == 0

/-- Pages of a copy are replaced by new ones (R228, R244): `l` pairs each old page with its new one; none where the device would not
choose a page. -/
def Dev.reissue (d : Dev) (i p q : Nat) : List (Nat × Nat) → Option Dev
  | [] => some d
  | (old, new) :: l =>
    if d.pickStack ≠ some (pageStack new) ∨ ¬ d.pageOk new then none
    else
      let d := d.pageAlloc p q new
      let d := d.copyMod i fun (c : Copy) => { c with pages := c.pages.map fun x => if x = old then new else x }
      let d : Dev := { d with spl := { d.spl with fill := d.spl.fill.map fun (x : Nat × Nat × Nat) => if x.2.1 = old then (x.1, new, x.2.2) else x } }
      let d := if d.buf.copies.any fun (c : Copy) => c.pages.contains old then d else d.pageFree old
      d.reissue i p q l

/-- The last page write of a spilled frame is issued (R228): `perr` are its pages whose write reported a parity error, `new` the pages that
those, and its pages in a pseudo-channel being retired, are reissued to. Without any the frame's cells are uncharged. -/
def Dev.spillDone (d : Dev) (i : Nat) (perr new : List Nat) : Dev :=
  match d.copy? i with
  | none => d
  | some c =>
    if c.seg ≠ .spilling ∨ ¬ d.srActive c.pages ∨ ¬ d.mayWrite c.pages then d
    else
      let bad := c.pages.filter fun p => perr.contains p || d.pcOut (pageStack p) (pagePc p)
      if bad.isEmpty then
        let d := c.pages.foldl (fun (d : Dev) p => d.pageAccess p) d
        let d := (d.copyUncharge c).copyMod i fun (x : Copy) => { x with seg := .middle, spilled := true }
        (((d.srRequests c.pages).drainFix c.pages).spillCheck c.port c.queue).headFix c.port c.queue
      else if bad.length ≠ new.length then d
      else match d.reissue i c.port c.queue (bad.zip new) with
        | some d => d.drainFix (c.pages ++ new)
        | none => d

/-- A frame dropped in the spill path is logged (R245): `retire` says that a retirement lost it. -/
def Dev.gapLog (d : Dev) (p q : Nat) (retire : Bool) : Dev :=
  let k := 32 * p + q
  let d := d.count (if retire then Ct.SPL_RETIRE_DROP_CNT k else Ct.SPL_UECC_DROP_CNT k) 1
  let is := fun i => d.fbit F.SPL_GAP_LOG.VALID [i] && d.fget F.SPL_GAP_LOG.PORT [i] == p && d.fget F.SPL_GAP_LOG.QUEUE [i] == q
  match findFirst is (List.range 16) with
  | some i => d.fset F.SPL_GAP_LOG.FRAMES [i] (min (2 ^ 32 - 1) (d.fget F.SPL_GAP_LOG.FRAMES [i] + 1))
  | none =>
    let d := d.raise Ev.SPL_GAP k (d.unitPort p)
    match findFirst (fun i => ! d.fbit F.SPL_GAP_LOG.VALID [i]) (List.range 16) with
    | some i =>
      (d.rset .SPL_GAP_LOG [i] 0).fsets [(F.SPL_GAP_LOG.VALID, 1), (F.SPL_GAP_LOG.CAUSE, if retire then 1 else 0), (F.SPL_GAP_LOG.PORT, p),
        (F.SPL_GAP_LOG.QUEUE, q), (F.SPL_GAP_LOG.FRAMES, 1)] [i]
    | none => d

/-- When a queue's middle empties, its tail joins its head (R227). -/
def Dev.tailJoins (d : Dev) (p q : Nat) : Dev :=
  let d := if d.hasMiddle p q then d
    else { d with buf := { d.buf with copies := d.buf.copies.map fun (c : Copy) =>
      if c.port = p ∧ c.queue = q ∧ c.seg = Seg.tail then { c with seg := .head } else c } }
  d.headFix p q

/-- A page of a copy is lost: it was marked so, or its pseudo-channel is gone (R244). -/
def Dev.pageLost (d : Dev) (p : Nat) : Bool := match mget? d.spl.pages p with | some x => x.lost | none => true

/-- The frame's loss is counted for the retirements that lost its pages. -/
def Dev.retireLost (d : Dev) (pages : List Nat) (gap : Bool) : Dev :=
  (pages.map pageStack).eraseDups.foldl (fun (d : Dev) k => d.stackMod k fun (x : StackSt) =>
    { x with retiring := x.retiring.map fun (r : Retire) => { r with lost := r.lost + 1, gap := r.gap || gap } }) d

/-- A middle frame is dropped whole when it would be returned (R236, R244, R245). -/
def Dev.middleDrop (d : Dev) (c : Copy) (retire : Bool) : Dev :=
  let n := (List.range 16).filter fun i => d.fbit F.SPL_GAP_LOG.VALID [i]
  let d := d.gapLog c.port c.queue retire
  let gap := n.length < ((List.range 16).filter fun i => d.fbit F.SPL_GAP_LOG.VALID [i]).length
  let d := if retire then d.retireLost (c.pages.filter fun p => d.pageLost p) gap else d
  (((d.copyGone c.id).drainFix c.pages).spillCheck c.port c.queue).tailJoins c.port c.queue

/-- The oldest middle frame of a queue is read back while the head is short (R227). -/
def Dev.returnFrame (d : Dev) (p q : Nat) : Dev :=
  let head := ((d.headSeg p q).map fun (c : Copy) => c.cells.length).sum
  match (d.middle p q).head? with
  | none => d
  | some c =>
    if d.headTarget p q ≤ head then d
    else match c.seg with
      | .spilling =>
        ((((d.copyPages c).copyMod c.id fun (x : Copy) => { x with seg := .head, pcells := [] }).drainFix c.pages).spillCheck p q).tailJoins p q
      | .middle =>
        if c.pages.any d.pageLost then d.middleDrop c true
        else if ! d.roomFor Copy.reading c.pages c.pcells then d
        else (d.copyMod c.id fun (x : Copy) => { x with seg := .returning }).srRequests c.pages
      | _ => d

/-- A pseudo-channel's cached pointers are discarded: a 32nd of the interleaved cache (R240, R244). -/
def Dev.retireStart (d : Dev) (k c : Nat) : Dev :=
  let now := d.now
  let silent := (d.stack k).silent.contains c
  let d := d.stackMod k fun (x : StackSt) => { x with cache := x.cache - x.cache / 32, retiring := some { pc := c, start := now } }
  let d : Dev := if silent then
      { d with spl := { d.spl with pages := d.spl.pages.map fun (x : Nat × PageSt) =>
          if (pageStack x.1) = k ∧ (pagePc x.1) = c then (x.1, { x.2 with lost := true }) else x } }
    else d
  (d.fset F.SPL_RETIRE.ACTIVE [k] 1).raise Ev.SPL_RETIRE_START (32 * k + c) (unitStack k)

/-- A retirement is asked for (R243): one runs at a time per stack, others wait in order. -/
def Dev.retireAsk (d : Dev) (k c : Nat) : Dev :=
  if d.pcOut k c || (d.stack k).retireQ.contains c then d
  else if (d.stack k).retiring.isNone then d.retireStart k c
  else d.stackMod k fun (x : StackSt) => { x with retireQ := x.retireQ ++ [c] }

/-- An automatic trigger of R243. -/
def Dev.retireAuto (d : Dev) (k c : Nat) : Dev := if d.fbit F.SPL_RETIRE.AUTO [k] then d.retireAsk k c else d

/-- An error of pseudo-channel c of stack k joins those of the last second, of which more than a limit retire it (R243). -/
def Dev.splError (d : Dev) (k c : Nat) (ue : Bool) : Dev :=
  let now := d.now
  let add := fun (l : List (Nat × Nat)) => (l.filter fun x => decide (now < x.2 + sec 1)) ++ [(c, now)]
  let d := d.stackMod k fun (x : StackSt) => if ue then { x with ueTimes := add x.ueTimes } else { x with ceTimes := add x.ceTimes }
  let n := ((if ue then (d.stack k).ueTimes else (d.stack k).ceTimes).filter fun x => x.1 == c).length
  let lim := if ue then d.fget F.SPL_RETIRE.UE_LIMIT [k] else d.fget F.SPL_RETIRE.CE_LIMIT [k]
  if lim < n ∧ (ue ∨ lim ≠ 0) then d.retireAuto k c else d

/-- A corrected burst error in a page's pseudo-channel (R236). -/
def Dev.splCorrected (d : Dev) (page : Nat) : Dev :=
  let k := pageStack page
  let c := pagePc page
  ((d.count (Ct.SPL_ECC_CORR_CNT (32 * k + c)) 1).raise Ev.SPL_ECC_CORR (32 * k + c) (unitStack k)).splError k c false

/-- An uncorrectable error in a page's pseudo-channel (R236). -/
def Dev.splUncorrectable (d : Dev) (page : Nat) : Dev :=
  let k := pageStack page
  let c := pagePc page
  (d.raise Ev.SPL_UECC (32 * k + c) (unitStack k)).splError k c true

/-- Both copies of a link word are bad (R236): the queue's middle from the page onward is dropped, and its pages are left for the audit. -/
def Dev.middleLost (d : Dev) (p q : Nat) : Dev :=
  let cs := d.middle p q
  let pages := (cs.flatMap fun (c : Copy) => c.pages).eraseDups
  let mark := fun (x : Nat × PageSt) => if pages.contains x.1 then (x.1, { x.2 with orphan := true }) else x
  let d : Dev := { d with spl := { d.spl with pages := d.spl.pages.map mark, fill := d.spl.fill.filter fun (x : Nat × Nat × Nat) => x.1 != qKey p q } }
  let d := d.fset F.SPL_Q_STAT.PAGES [p, q] (d.queuePages p q - pages.length)
  let d := cs.foldl (fun (d : Dev) c =>
    ((d.gapLog p q false).copyMod c.id fun (x : Copy) => { x with pages := [] }).copyGone c.id) d
  (d.showGpool.drainFix pages).tailJoins p q

/-- A returned frame's cells arrive (R227, R228, R236): `ptrs` are the free cells that take them, `ue` and `corr` the pages in which the
reads found uncorrectable and corrected errors, `meta` that both copies of a link word are bad. -/
def Dev.returnDone (d : Dev) (i : Nat) (ptrs ue corr : List Nat) (meta' : Bool) : Dev :=
  match d.copy? i with
  | none => d
  | some c =>
    let p := c.port
    let q := c.queue
    if c.seg ≠ .returning ∨ ¬ d.srActive c.pages ∨ (c.pages.any fun x => d.draining (pageStack x) (pagePc x)) then d
    else if c.pages.any d.pageLost then d.middleDrop c true
    else
      let bad := ue.filter fun x => c.pages.contains x
      let n := cellsOf (c.len.getD c.bytes.length)
      let ok := decide (ptrs.length = n) && decide (ptrs.eraseDups.length = n) &&
        ptrs.all fun x => cellPtrOk x && cellCluster x == d.portCluster p && (mget? d.buf.cells x).isNone
      if ! meta' && bad.isEmpty && ! ok then d
      else
        let d := c.pages.foldl (fun (d : Dev) x => d.pageAccess x) (d.srRequests c.pages)
        let d := (corr.filter fun x => c.pages.contains x).foldl (fun (d : Dev) x => d.splCorrected x) d
        if meta' then (d.splUncorrectable (c.pages.headD 0)).middleLost p q
        else if ! bad.isEmpty then (bad.foldl (fun (d : Dev) x => d.splUncorrectable x) d).middleDrop c false
        else
          let c' : Copy := { c with pg := none, toHeadroom := false, seg := .head, pcells := [] }
          let d := d.copyMod i fun _ => c'
          let d := ptrs.foldl (fun (d : Dev) x => d.cellAlloc x [c']) d
          (((d.copyPages c).drainFix c.pages).spillCheck p q).tailJoins p q

/-- A read has no response within 1 µs (R243, R244): the frame being read is dropped, and the pseudo-channel does not answer. -/
def Dev.readTimeout (d : Dev) (k c : Nat) : Dev :=
  let hit := d.buf.copies.filter fun (x : Copy) => x.reading && x.pages.any fun p => pageStack p == k && pagePc p == c
  if hit.isEmpty then d
  else
    let d := d.stackMod k fun (x : StackSt) => { x with silent := if x.silent.contains c then x.silent else x.silent ++ [c] }
    let d := d.retireAuto k c
    hit.foldl (fun (d : Dev) x => d.middleDrop x true) d

/-- A retirement ends (R244): `golden` says that the pseudo-channel's golden-copy pages could be read. -/
def Dev.retireDone (d : Dev) (k : Nat) (golden : Bool) : Dev :=
  match (d.stack k).retiring with
  | none => d
  | some r =>
    let c := r.pc
    let mine := d.spl.pages.filter fun (x : Nat × PageSt) => pageStack x.1 == k && pagePc x.1 == c
    let held := mine.filter fun x => ! x.2.inflight && ! x.2.orphan
    let silent := (d.stack k).silent.contains c
    if ! held.isEmpty && ! silent then d
    else
      let fl := (mine.filter fun x => x.2.inflight).length
      let d := held.foldl (fun (d : Dev) x => d.fset F.SPL_Q_STAT.PAGES [x.2.queue / 32, x.2.queue % 32] (d.queuePages (x.2.queue / 32) (x.2.queue % 32) - 1)) d
      let d : Dev := { d with spl := { d.spl with pages := d.spl.pages.filter fun (x : Nat × PageSt) => ! (pageStack x.1 == k && pagePc x.1 == c) } }
      let d := d.fsets [(F.SPL_POOL.INFLIGHT, d.fget F.SPL_POOL.INFLIGHT [k] - fl), (F.SPL_POOL.FREE, d.fget F.SPL_POOL.FREE [k] - (195424 - mine.length))] [k]
      let d := d.fsets [(F.SPL_STATUS.RETIRED, d.fget F.SPL_STATUS.RETIRED [k] ||| 2 ^ c), (F.SPL_RETIRE.ACTIVE, 0)] [k]
      let d := if golden && ! silent then d else (d.fset F.SPL_STATUS.GOLDEN_LOST [k] 1).raise Ev.SPL_GOLDEN_LOST (32 * k + c) (unitStack k)
      let d := (d.stackMod k fun (x : StackSt) => { x with retiring := none }).showGpool
      let total := ((List.range 4).map fun j => d.stackPool j).sum
      let d := if total < d.fget F.SPL_GPOOL.RSV [] then (d.fset F.SPL_GPOOL.CFGERR [] 1).raise Ev.SPL_CFGERR k (unitStack k) else d
      let d := (d.milestone 8 (32 * k + c) 0).raise Ev.SPL_RETIRE_DONE (32 * k + c) (unitStack k)
      let d := d.recovered 5 (32 * k + c) r.lost (if r.gap then 1 else 0) r.start
      match (d.stack k).retireQ with
      | [] => d.showStack k
      | n :: l => ((d.stackMod k fun (x : StackSt) => { x with retireQ := l }).retireStart k n).showStack k

/-- The open row of a bank set closes (R233, R234). -/
def Dev.rowClose (d : Dev) (k b : Nat) : Dev := d.setBankRow k b ((d.bankRow k b).1, none)

/-- Refresh of a bank set (R233, R234): its open row closes. -/
def Dev.refresh (d : Dev) (k b : Nat) : Dev := (d.rowClose k b).stackMod k fun (x : StackSt) => { x with refreshed := x.refreshed + 1 }

/-- A drain gap of a pseudo-channel (R237). -/
def Dev.drainGap (d : Dev) (k c : Nat) : Bool := d.rq k c == 0 && decide (d.wq k c ≤ 16) && ! d.draining k c

/-- A periodic retraining step of a pseudo-channel (R237): `margin` is what it measures, `fails` that it does not train. -/
def Dev.trainStep (d : Dev) (k c margin : Nat) (fails : Bool) : Dev :=
  let now := d.now
  let per := ms (atLeast1 (d.fget F.SPL_TRAIN.PERIOD [k]))
  let due := (mget? (d.stack k).trainDue c).getD 0 + per
  if ! d.fbit F.SPL_TRAIN.EN [k] || decide (now < due) || d.fget F.SPL_STATUS.SRSTATE [k] != 0 || d.pcOut k c then d
  else if ! d.drainGap k c && decide (now < due + 4 * per) then d
  else
    let d := if d.drainGap k c then d else d.count (Ct.SPL_TRAIN_FORCE_CNT (32 * k + c)) 1
    let worst := fun (l : List (Nat × Nat)) => match mget? l c with | some m => min m margin | none => margin
    let d := d.stackMod k fun (x : StackSt) => { x with trainDue := mins x.trainDue c now, margins := mins x.margins c (worst x.margins) }
    let d := d.fset F.SPL_TRAIN.MARGIN [k] margin
    let low := decide (margin % 256 < d.fget F.SPL_TRAIN.MARGIN_MIN [k])
    let d := if low then d.raise Ev.SPL_MARGIN (32 * k + c) (unitStack k) else d
    let d := if fails then d.raise Ev.SPL_TRAIN_FAIL (32 * k + c) (unitStack k) else d
    if low ∨ fails then d.retireAuto k c else d

/-- The controller's queues of a stack are empty. -/
def Dev.stackIdle (d : Dev) (k : Nat) : Bool := (List.range 32).all fun c => d.wq k c == 0 && d.rq k c == 0

/-- Self-refresh entry starts (R238). -/
def Dev.srEnter (d : Dev) (k : Nat) : Dev :=
  if d.fget F.SPL_STATUS.SRSTATE [k] ≠ 0 ∨ ¬ d.fbit F.SPL_CTL.SR_EN [k] ∨ ¬ d.stackIdle k ∨
      ¬ d.since (d.stack k).idleSince (us (atLeast1 (d.fget F.SPL_CTL.SR_IDLE [k]))) then d
  else d.fset F.SPL_STATUS.SRSTATE [k] 1

/-- The entry command is issued, all banks precharged (R238). -/
def Dev.srEntered (d : Dev) (k : Nat) : Dev :=
  if d.fget F.SPL_STATUS.SRSTATE [k] ≠ 1 then d
  else (d.fset F.SPL_STATUS.SRSTATE [k] 2).stackMod k fun (x : StackSt) =>
    { x with rows := x.rows.map fun (y : Nat × List Bool × Option Nat) => (y.1, y.2.1, none) }

/-- A stack is put into self-refresh at once, and held there (R322, R334). -/
def Dev.srForce (d : Dev) (k : Nat) : Dev :=
  (d.fset F.SPL_STATUS.SRSTATE [k] 2).stackMod k fun (x : StackSt) =>
    { x with held := true, rows := x.rows.map fun (y : Nat × List Bool × Option Nat) => (y.1, y.2.1, none) }

/-- What held a stack in self-refresh has ended: its exit starts (R322, R123). -/
def Dev.srLet (d : Dev) (k : Nat) : Dev :=
  if d.fget F.SPL_STATUS.SRSTATE [k] = 2 ∧ (d.stack k).held then
    (d.fset F.SPL_STATUS.SRSTATE [k] 3).stackMod k fun (x : StackSt) => { x with held := false }
  else d

/-- SR_EN is written 0 (R238): the stack leaves self-refresh, or does not enter it. -/
def Dev.srDisable (d : Dev) (k : Nat) : Dev :=
  let d := d.fset F.SPL_CTL.SR_EN [k] 0
  match d.fget F.SPL_STATUS.SRSTATE [k] with
  | 1 => d.fset F.SPL_STATUS.SRSTATE [k] 0
  | 2 => if (d.stack k).held then d else d.fset F.SPL_STATUS.SRSTATE [k] 3
  | _ => d

/-- Self-refresh exit completes (R238, R239). -/
def Dev.srExited (d : Dev) (k : Nat) : Dev :=
  if d.fget F.SPL_STATUS.SRSTATE [k] ≠ 3 then d
  else
    let now := d.now
    let d := match (d.stack k).reqSince with
      | some t => d.fset F.SPL_SR_LAT.MAX [k] (max (d.fget F.SPL_SR_LAT.MAX [k]) (min 65535 (ceilDiv (now - t) (ns 1))))
      | none => d
    (d.fset F.SPL_STATUS.SRSTATE [k] 0).stackMod k fun (x : StackSt) => { x with reqSince := none, idleSince := now }

/-- The page sum of R242 less the pool. -/
def Dev.pageDiff (d : Dev) (k : Nat) : Int :=
  let held := (d.spl.pages.filter fun (x : Nat × PageSt) => pageStack x.1 == k && ! x.2.inflight && ! x.2.orphan).length
  ((held + d.fget F.SPL_POOL.FREE [k] + d.fget F.SPL_POOL.INFLIGHT [k] : Nat) : Int) - d.stackPool k

/-- A page walk starts (R242): event 227 and its snapshot. -/
def Dev.pageWalk (d : Dev) (k : Nat) : Dev :=
  if (d.stack k).walk.isSome then d
  else
    let l := (d.spl.pages.filter fun (x : Nat × PageSt) => pageStack x.1 == k && ! x.2.inflight).map fun x => x.1
    ((d.stackMod k fun (x : StackSt) => { x with walk := some l }).fset F.SPL_AUD_CTL.WALK [k] 1).raise Ev.SPL_AUD_MISMATCH k (unitStack k)

/-- The page check of a stack (R242), 1 ms after the last one. -/
def Dev.pageCheck (d : Dev) (k : Nat) : Dev :=
  if ! d.fbit F.SPL_AUD_CTL.EN [k] || ! d.since (d.stack k).auditAt (ms 1) then d
  else
    let now := d.now
    let diff := d.pageDiff k
    let miss := if diff = 0 then 0 else (d.stack k).auditMiss + 1
    let go := decide (atLeast1 (d.fget F.SPL_AUD_CTL.PERSIST [k]) ≤ miss)
    let d := d.stackMod k fun (x : StackSt) => { x with auditMiss := if go then 0 else miss, auditAt := now }
    let d := d.fset F.SPL_AUD_STATUS.DIFF [k] (unsext 24 diff)
    if go then d.pageWalk k else d

/-- The page counts of the queues are rebuilt from the pages that their middles use (R242). -/
def Dev.rebuildPages (d : Dev) : Dev :=
  let lo := RegName.addr .SPL_Q_STAT [0, 0]
  let qs := d.regs.filterMap fun (r : Nat × Word) =>
    if lo ≤ r.1 ∧ r.1 < lo + 128 * 1024 then some ((r.1 - lo) / 128, (r.1 - lo) % 128 / 8) else none
  qs.foldl (fun (d : Dev) c =>
    d.fset F.SPL_Q_STAT.PAGES [c.1, c.2] ((d.middle c.1 c.2).flatMap fun (x : Copy) => x.pages).eraseDups.length) d

/-- A page walk ends (R242). -/
def Dev.pageWalkDone (d : Dev) (k : Nat) : Dev :=
  match (d.stack k).walk with
  | none => d
  | some l =>
    let used := fun (p : Nat) => d.buf.copies.any fun (c : Copy) => c.pages.contains p
    let leaked := l.filter fun p => ! used p && (match mget? d.spl.pages p with | some x => ! x.inflight | none => false)
    let n := leaked.length
    let d := ((d.stackMod k fun (x : StackSt) => { x with walk := none }).fset F.SPL_AUD_CTL.WALK [k] 0).fset F.SPL_AUD_STATUS.LEAKED [k] n
    let d :=
      if d.fbit F.SPL_AUD_CTL.RECLAIM [k] then
        let d := leaked.foldl (fun (d : Dev) p =>
          Dev.fset { d with spl := { d.spl with pages := mdel d.spl.pages p } } F.SPL_POOL.FREE [k] (d.fget F.SPL_POOL.FREE [k] + 1)) d
        (d.rebuildPages.showGpool).showStack k
      else d
    if n ≠ 0 then d.raise Ev.SPL_AUD_LEAK k (unitStack k) else d

/-- A page comes back to its ring (R240), or the free of a page that is free already is refused (R241). -/
def Dev.pageReturn (d : Dev) (p : Nat) : Dev :=
  match mget? d.spl.pages p with
  | none => if p < 2 ^ 25 then d.pageFree p else d
  | some st =>
    if ! st.inflight then d
    else
      let k := pageStack p
      let d : Dev := { d with spl := { d.spl with pages := mdel d.spl.pages p } }
      ((d.fsets [(F.SPL_POOL.INFLIGHT, d.fget F.SPL_POOL.INFLIGHT [k] - 1), (F.SPL_POOL.FREE, d.fget F.SPL_POOL.FREE [k] + 1)] [k]).showGpool).showStack k

/-- The pointer cache is refilled from its ring (R240). -/
def Dev.cacheRefill (d : Dev) (k : Nat) : Dev :=
  let x := d.stack k
  let ring := d.fget F.SPL_POOL.FREE [k] - x.cache
  if 512 ≤ x.cache ∨ ring = 0 then d
  else if d.fget F.SPL_STATUS.SRSTATE [k] = 0 then (d.srRequest k).stackMod k fun (x : StackSt) => { x with cache := x.cache + min 512 ring }
  else d.srRequest k

/-- The sum of PMIN over the queues whose EN is 1. -/
def Dev.splReserve (d : Dev) : Nat :=
  let lo := RegName.addr .SPL_Q [0, 0]
  (d.regs.map fun (r : Nat × Word) => if lo ≤ r.1 ∧ r.1 < lo + 128 * 1024 ∧ wbits r.2 63 63 = 1 then wbits r.2 16 0 else 0).sum

/-- EN of a queue has been written 1 (R229): without room for its reserve it stays 0. -/
def Dev.splQCheck (d : Dev) (p q : Nat) : Dev :=
  let total := ((List.range 4).map fun j => d.stackPool j).sum
  let d := if d.splReserve ≤ total - 8192 then d
    else ((d.fset F.SPL_Q.EN [p, q] 0).fset F.SPL_GPOOL.CFGERR [] 1).raise Ev.SPL_CFGERR 0 unitDev
  (d.fset F.SPL_GPOOL.RSV [] d.splReserve).showGpool

end Sys2Proof.Machine
end

