-- ==== Sys2Proof/Machine/Sched.lean ====
section
/-! DEFINITION. The port schedulers (R248 to R253), the shutter test at a head frame (R276 to R279), and a frame's way from selection to its
last bit (R18 steps 8 to 11, R216, R219, R281, R282). -/

namespace Sys2Proof.Machine

set_option cleanup.letToHave false

/-- The port's queues are served: it is UP, or in a near-end loop (R296, R302). -/
def Dev.portServes (d : Dev) (p : Nat) : Bool :=
  d.portUp p || (d.portState p == 6 && (d.fget F.LN_PCTL.LOOP [p] == 1 || d.fget F.LN_PCTL.LOOP [p] == 2))

/-- A frame of the copy would be preemptable: mirror copies are always express (R280). -/
def Dev.copyPre (d : Dev) (c : Copy) : Bool := d.preemptable c.port c.queue && ! c.mirror

/-- The suspended copy of a port (R281). -/
def Dev.suspended (d : Dev) (p : Nat) : Option Copy := findFirst (fun (c : Copy) => c.port == p && c.started && c.suspended) d.buf.copies

/-- The copy that the port has selected and not yet started, held copies of the injector aside. -/
def Dev.outstanding (d : Dev) (p : Nat) : Option Copy :=
  findFirst (fun (c : Copy) => c.port == p && c.selected && ! c.started && ! c.held && ! (d.port p).release.contains c.id) d.buf.copies

/-- The head of queue q has been refused in the present window (R277); a queue that has no closing is in no such window. -/
def Dev.heldHere (d : Dev) (p q : Nat) : Bool := (d.timeLeft p q).isSome && d.shu.heldIn.any fun x => x.1 == qKey p q

/-- A queue is eligible (R251). -/
def Dev.queueElig (d : Dev) (p q : Nat) : Bool :=
  match (d.headSeg p q).head? with
  | none => false
  | some c =>
    ! d.paused p q && d.shutterAllows c && ! d.heldHere p q && d.shpEligible (d.portSlice p) (d.portSlot p) q &&
      ! d.fbit F.MAE_CTL.HOLD [d.portSlice p] && ! d.sliceHeld (d.portSlice p) && ! d.patchWaits 4 (d.portSlice p) && ! ((d.suspended p).isSome && d.copyPre c)

/-- The children of a node of the tree (R248): the root is 33. -/
def Dev.children (d : Dev) (p node : Nat) : List Nat :=
  if node = 33 then [28, 29, 30, 31]
  else if 28 ≤ node then (rangeFrom 20 8).filter fun k => d.groupOf p k == node
  else (List.range 20).filter fun q => d.classOf p q == node

/-- A member is eligible (R251); `h` is the height of the member above the queues. -/
def Dev.memberElig (d : Dev) (p : Nat) : Nat → Nat → Bool
  | 0, k => d.queueElig p k
  | h + 1, k => d.shpEligible (d.portSlice p) (d.portSlot p) k && (d.children p k).any (d.memberElig p h)

/-- A member is empty (R250): a queue whose middle holds frames is not. -/
def Dev.memberEmpty (d : Dev) (p : Nat) : Nat → Nat → Bool
  | 0, k => (d.waiting p k).isEmpty
  | h + 1, k => (d.children p k).all (d.memberEmpty p h)

/-- The key of a member's deficit, and of the turn of a sibling set (R250). -/
def Dev.defKey (d : Dev) (p k : Nat) : Nat := d.portKey p * 64 + k
def Dev.turnKey (d : Dev) (p node pri : Nat) : Nat := (d.portKey p * 64 + node) * 8 + pri

/-- A member's deficit in bytes. -/
def Dev.deficit (d : Dev) (p k : Nat) : Int := mget 0 d.que.deficits (d.defKey p k)
def Dev.setDeficit (d : Dev) (p k : Nat) (v : Int) : Dev := { d with que := { d.que with deficits := mset 0 d.que.deficits (d.defKey p k) v } }

/-- WEIGHT × 2^QSHIFT (R250). -/
def Dev.quantum (d : Dev) (p k : Nat) : Nat :=
  atLeast1 (d.fgetB F.QUE_SCH.WEIGHT (d.pIx p ++ [k])) * 2 ^ max 6 (min 12 (d.fgetB F.QUE_PORT.QSHIFT (d.pIx p)))

/-- What a copy is charged at its selection (R253): nothing for a mirror copy; the head window of its ingress port while its length is
not known. -/
def Dev.selectLen (d : Dev) (c : Copy) : Nat :=
  if c.mirror then 0
  else d.chargedLen c.port (match c.len with
    | some n => n
    | none => windowBytes (d.fgetB F.PRS_PORT.WINDOW [d.portSlice c.inPort, d.portSlot c.inPort]))

/-- The sibling that follows x, cyclically. -/
def nextAfter (l : List Nat) (x : Nat) : Nat := ((l.filter fun k => decide (x < k)).head?).getD (l.headD x)

/-- The deficit round of a sibling set (R250): `sub` gives the frame that a child would send, as the state after the choices below it, its
queue and its charged length. -/
def Dev.dwrr (d : Dev) (p : Nat) (tk : Nat) (sibs : List Nat) (sub : Dev → Nat → Option (Dev × Nat × Nat)) : Nat → Nat → Option (Dev × Nat × Nat)
  | 0, _ => none
  | fuel + 1, turn =>
    match sub d turn with
    | none => none
    | some (e, q, n) =>
      if (n : Int) ≤ e.deficit p turn then
        let e := e.setDeficit p turn (e.deficit p turn - n)
        some ({ e with que := { e.que with turns := mins e.que.turns tk turn } }, q, n)
      else (d.setDeficit p turn (d.deficit p turn + d.quantum p turn)).dwrr p tk sibs sub fuel (nextAfter sibs turn)

/-- The choice of a node among its eligible children, down to a queue (R249, R250); `h` is the height of the children. -/
def Dev.nodePick (d : Dev) (p : Nat) : Nat → Nat → Option (Dev × Nat × Nat)
  | h, node =>
    let el := (d.children p node).filter (d.memberElig p h)
    let pri := fun (k : Nat) => d.fget F.QUE_SCH.PRI (d.pIx p ++ [k])
    match el with
    | [] => none
    | x :: _ =>
      let low := el.foldl (fun (a : Nat) k => min a (pri k)) (pri x)
      let sibs := el.filter fun k => pri k == low
      let tk := d.turnKey p node low
      let t := mget 0 d.que.turns tk
      let turn := if sibs.contains t then t else nextAfter sibs t
      match h with
      | 0 => d.dwrr p tk sibs (fun e q => ((e.headSeg p q).head?).map fun c => (e, q, e.selectLen c)) 8192 turn
      | h' + 1 => d.dwrr p tk sibs (fun e k => e.nodePick p h' k) 8192 turn

/-- Deficits of members that have become empty are 0 (R250). -/
def Dev.clearDeficits (d : Dev) (p : Nat) : Dev :=
  let fix := fun (h : Nat) (d : Dev) (k : Nat) => if d.deficit p k ≠ 0 ∧ d.memberEmpty p h k then d.setDeficit p k 0 else d
  let d := (List.range 20).foldl (fix 0) d
  let d := (rangeFrom 20 8).foldl (fix 1) d
  (rangeFrom 28 4).foldl (fix 2) d

/-- The head frame of a queue fits no window of its queue that is not skipped (R279). -/
def Dev.sillTooLong (d : Dev) (c : Copy) : Bool :=
  let p := c.port
  let q := c.queue
  let k := d.portKey p
  let all := windows (d.shuSteps k) q
  let ws := all.filter fun w => ! d.skipped k q w.1
  match c.len with
  | none => false
  | some n =>
    d.shuttered p && d.phaseValid && ! d.copyPre c && ! ws.isEmpty && ! (decide (p ∈ d.domainLinks) && q == d.domainQueue) &&
      ws.all fun w => decide (w.2 * d.cyc.per / 2 ^ 48 < d.wireTime p (d.chargedLen p n))

/-- The head frames of a queue that no window takes are dropped (R279). -/
def Dev.sillDrop (d : Dev) (p q : Nat) : Nat → Dev
  | 0 => d
  | fuel + 1 =>
    match (d.headSeg p q).head? with
    | none => d
    | some c =>
      if ! d.sillTooLong c then d
      else
        let d := (d.count (Ct.QUE_DROP_SILL_CNT (32 * p + q)) 1).raiseLimited Ev.SHU_SILL_DROP (32 * p + q) (d.unitPort p) (ms 1)
        (d.copyGone c.id).sillDrop p q fuel

/-- A head frame that its open queue's test refuses is counted once and held until the window closes (R277). -/
def Dev.holdHead (d : Dev) (p q : Nat) : Dev :=
  match (d.headSeg p q).head? with
  | none => d
  | some c =>
    if bitN (d.portMask p) q && ! d.shutterAllows c && ! d.heldHere p q then
      Dev.count { d with shu := { d.shu with heldIn := d.shu.heldIn ++ [(qKey p q, c.id)] } } (Ct.SHU_HOLD_CNT (32 * p + q)) 1
    else d

/-- A transmitter in quiet begins its wake signal (R303). -/
def Dev.wakeTx (d : Dev) (p : Nat) : Dev :=
  let now := d.now
  if d.fbit F.LN_PSTAT.TXQ [p] && (d.port p).waking.isNone then d.portMod p fun x => { x with waking := some (now + us 1) } else d

/-- A selected copy leaves its queue and enters egress stage 0 (R164, R174, R253, R374): its shapers are charged, and its vector takes its
sash stamp and the settings in force. A frame of the device's own passes no stage. -/
def Dev.dequeue (d : Dev) (p q n : Nat) : Dev :=
  match (d.headSeg p q).head? with
  | none => d
  | some c =>
    let s := d.portSlice p
    let d := d.chargePath p q n
    let d := ((d.applyB .LN_PORT [p]).applyBSpan (prsLo s + 0x20000000) 0x1000).applyBSpan (prsLo s + 0x30000000) 0x1000
    let v : Vec := { c.vec with stamp := BitVec.ofNat 64 (d.fget F.MAI_SASH_STATE.ACTIVE [s]), snap := d.snapOf s }
    let v : Vec := { v with tv := d.telVec c v }
    let now := d.now
    let c' : Copy := { c with selected := true, staged := ! c.domMsg, charged := n, dqTime := d.fab, vec0 := some c.vec, vec := v,
                              estage := if c.domMsg then 12 else 0, out := if c.domMsg then c.bytes else [],
                              rewLen := c.bytes.length }
    let d := (d.copyMod c.id fun _ => c').portMod p fun x => { x with lastSel := now }
    (((d.headFix p q).wakeTx p).clearDeficits p).showMae s

/-- The port's next selection (R249, R252): at most one stands ahead of the MAC. -/
def Dev.select (d : Dev) (p : Nat) : Dev :=
  if ! d.portServes p || (d.outstanding p).isSome || ! d.shpEligible (d.portSlice p) (d.portSlot p) 32 then d
  else
    let ix := d.pIx p
    let d := (d.applyB .QUE_PORT ix).applyBSpan (RegName.addr .QUE_SCH (ix ++ [0])) 256
    let d := (List.range 20).foldl (fun (d : Dev) q => d.sillDrop p q d.buf.copies.length) (d.clearDeficits p)
    let d := (List.range 20).foldl (fun (d : Dev) q => d.holdHead p q) d
    match d.nodePick p 2 33 with
    | none => d
    | some (d, q, n) => d.dequeue p q n

/-- The first point at which a preemptable frame being sent can be cut (R281, R282): frame data of the fragment. -/
def Dev.cutPoint (d : Dev) (x : Copy) : Option Nat :=
  let p := x.port
  let gone := (d.now - x.startTime) * d.portGbps p / (8 * 65536)
  let n := max (ceilDiv gone 8 * 8) (ceilDiv (d.minFragment p - 4) 8 * 8)
  match x.len with
  | some l => if n + 64 ≤ l - x.sentBytes then some n else none
  | none => some n

/-- A copy's fragment of n bytes ends and the rest is suspended (R281). -/
def Dev.fragmentEnd (d : Dev) (x : Copy) (n : Nat) : Dev :=
  let d := d.copyMod x.id fun (c : Copy) => { c with sentBytes := c.sentBytes + n, suspended := true, frag := none }
  (d.fset F.SHU_STAT.SUSP (d.pIx x.port) 1).count (Ct.SHU_FRAG_CNT (32 * x.port + x.queue)) 1

/-- A copy takes its egress timestamp, with TIM_TSCORR (R33, R25). -/
def Dev.egressStamp (d : Dev) (p : Nat) : Nat := tStamp (((tStamp d.fab : Nat) : Int) + sext 32 (d.fgetB F.TIM_TSCORR.EGR [p]) * 256).toNat

/-- The rewritten bytes of a copy, with those that arrived after its rewrite, without FCS. -/
def Copy.full (c : Copy) : List Byte :=
  if c.domMsg || c.trunc != 0 then c.out
  else
    let f := c.data
    if f.length < c.rewLen then c.out.take (c.out.length - (c.rewLen - f.length)) else c.out ++ f.drop c.rewLen

/-- The records of a copy whose bytes are present join the slice's queue (R263). -/
def Dev.copyCaps (d : Dev) (i : Nat) : Dev :=
  match d.copy? i with
  | none => d
  | some c =>
    let r := d.capsReady (d.portSlice c.port) c.caps c.full c.ended
    r.1.copyMod i fun (x : Copy) => { x with caps := r.2 }

/-- An egress record of a copy (R263, kinds 4 and 6). -/
def Dev.copyRecord (d : Dev) (c : Copy) (ring kind : Nat) : Dev :=
  let d := d.applyB .PEP_RING [ring]
  let k : Capture := { ring := ring, kind := kind, want := d.snapLen ring, eport := c.port, time := c.ets, intr := Hv.intrinsic c.vec.hv,
                       disp := c.vec.disp, flen := if c.ended then min 65535 (c.full.length + 4) else 0 }
  (d.copyMod c.id fun (x : Copy) => { x with caps := x.caps ++ [k] }).copyCaps c.id

/-- The records that a copy writes at its egress timestamp: an egress mirror (R266) and an egress sample (R267). -/
def Dev.egressRecords (d : Dev) (c : Copy) : Dev :=
  let m := Disp.fget c.vec.disp 7
  let d := (d.applyB .PEP_MIR [m]).applyB .PEP_SAMP [c.port]
  let d := if m ≠ 0 ∧ ¬ c.domMsg ∧ d.fbitB F.PEP_MIR.EN [m] then
      let (d, yes) := d.chance (d.fgetB F.PEP_MIR.SAMPLE [m])
      if yes then (d.count (Ct.PEP_MIR_CNT m) 1).copyRecord c (d.fgetB F.PEP_MIR.RING [m]) 4 else d
    else d
  if d.fbitB F.PEP_SAMP.EEN [c.port] && ! c.mirror then
    let (d, yes) := d.chance (d.fgetB F.PEP_SAMP.EK [c.port])
    if yes then d.copyRecord c (d.fgetB F.PEP_SAMP.RING [c.port]) 6 else d
  else d

/-- A copy's first bit, or the first bit of a continuation, leaves the MAC: the first carries the egress timestamp, the histograms of
transit and the egress records (R28, R281, R282, R378). -/
def Dev.txGo (d : Dev) (c : Copy) (frag : Option Nat) : Dev :=
  let now := d.now
  let first := ! c.started
  let d := if first then d.applyB .TIM_TSCORR [c.port] else d
  let c' : Copy := { c with started := true, suspended := false, startTime := now, frag := frag, ets := if first then d.egressStamp c.port else c.ets,
                            overrun := c.overrun || ! d.phaseValid }
  let d := d.copyMod c.id fun _ => c'
  if ! first then d
  else
    let d := if c.domMsg then d else d.hists (d.portSlice c.port) 0 c.vec ((c'.ets - c.ts) / 65536)
    (d.egressRecords c').ptpLeaves c'

/-- How much of a copy is sent when it starts now: none where the test of R276 fails or no fragment of R281 fits, otherwise the fragment, or
all of it. -/
def Dev.txPlan (d : Dev) (c : Copy) : Option (Option Nat) :=
  if ! d.shutterAllows c then none
  else match d.timeLeft c.port c.queue with
    | none => some none
    | some left =>
      let fits := match c.len with | some n => decide (d.wireTime c.port (d.chargedLen c.port (c.rest n)) ≤ left) | none => false
      if fits || ! d.copyPre c then some none
      else match d.fragmentBytes c.port (match c.len with | some n => c.rest n | none => 2 ^ 20) left with
        | some n => some (some n)
        | none => none

/-- A selected copy whose test no longer holds goes back to the head of its queue (R278); what was charged stays charged. -/
def Dev.txReturn (d : Dev) (c : Copy) : Dev :=
  (d.copyMod c.id fun (x : Copy) => { x with selected := false, staged := false, estage := 0, out := [],
                                             vec := x.vec0.getD x.vec, vec0 := none }).headFix c.port c.queue

/-- The copy has passed the fault injector of its port, or the port runs none that acts on frames (R312). -/
def Dev.injected (d : Dev) (c : Copy) : Bool :=
  c.injDone || ! d.fbit F.INJ_CTL.EN [c.port] || d.fget F.INJ_CTL.MODE [c.port] == 0 || d.fget F.INJ_CTL.MODE [c.port] == 5

/-- The transmitter of a port is not in quiet, or its wake has ended (R303, R304). -/
def Dev.awake (d : Dev) (p : Nat) : Bool :=
  ! d.fbit F.LN_PSTAT.TXQ [p] || (match (d.port p).waking with | some t => decide (t ≤ d.now) | none => false)

/-- A waking transmitter has left quiet. -/
def Dev.leaveQuiet (d : Dev) (p : Nat) : Dev :=
  if d.fbit F.LN_PSTAT.TXQ [p] then (d.fset F.LN_PSTAT.TXQ [p] 0).portMod p fun x => { x with waking := none } else d

/-- The copies that the injector of a port has released and that have not started (R314, R315). -/
def Dev.releaseList (d : Dev) (p : Nat) : List Copy := (d.port p).release.filterMap d.copy?

/-- The copy whose first bit is due on a port: the first that the injector released, once it is whole, otherwise the selected one. -/
def Dev.dueCopy (d : Dev) (p : Nat) : Option Copy :=
  match d.releaseList p with
  | c :: _ => if c.ended then some c else none
  | [] => match d.outstanding p with
    | some c => if decide (12 ≤ c.estage) && d.injected c then some c else none
    | none => none

/-- A selected frame's first bit is due at the MAC, or a suspended frame may go on (R276, R278, R281, R282). -/
def Dev.txStart (d : Dev) (p : Nat) : Dev :=
  if ! d.portServes p || ! d.awake p then d
  else match d.dueCopy p with
    | some c =>
      let released := (d.port p).release.contains c.id
      match d.sending p, d.txPlan c with
      | none, some f =>
        let d := if released then d.portMod p fun x => { x with release := x.release.filter (· != c.id) } else d
        (d.leaveQuiet p).txGo c f
      | none, none => if released then d else d.txReturn c
      | some x, some f =>
        if d.copyPre x && ! d.copyPre c then
          match d.cutPoint x with
          | some n => (d.fragmentEnd x n).txGo c f
          | none => d
        else d
      | some _, none => if released then d else d.txReturn c
    | none =>
      match d.suspended p, d.sending p with
      | some c, none =>
        if (List.range 20).any fun q => d.queueElig p q && ! d.preemptable p q then d
        else match d.txPlan c with
          | some f => (d.leaveQuiet p).txGo c f
          | none => if d.heldHere p c.queue || ! bitN (d.portMask p) c.queue then d
                    else Dev.count { d with shu := { d.shu with heldIn := d.shu.heldIn ++ [(qKey p c.queue, c.id)] } } (Ct.SHU_HOLD_CNT (32 * p + c.queue)) 1
      | _, _ => d

/-- The stack header that the egress MAC prepends on a stack port (R367, R368). -/
def Dev.stackHeader (d : Dev) (c : Copy) : List Byte :=
  let disp := c.vec.disp
  let relay := c.stk.length == 16
  let old := beNat (slice c.stk 1 1)
  let mc := Disp.fget disp 1 != 1
  let dest := Disp.fget disp 2
  let sdev := if relay then old / 64 else d.fget F.FAB_STK.MYNUM []
  let ddev := if mc then 0 else bitsN dest 11 10
  let ttl := if relay then (old % 8) - 1 else 3
  let sport := if relay then beNat (slice c.stk 2 2) / 64 else c.inPort
  let grp := match Disp.fget disp 1 with
    | 3 => d.fgetB F.XFS_BD.FGROUP [Disp.fget disp 11]
    | _ => dest
  let pgb := match c.pg with | some g => g % 8 | none => 0
  let h := beBytes 1 0x20 ++ beBytes 1 (sdev * 64 + ddev * 16 + (if mc then 8 else 0) + ttl) ++ beBytes 2 (sport * 64 + c.queue * 2) ++
    beBytes 2 (if mc then grp else bitsN dest 9 0) ++ beBytes 2 (Disp.fget disp 11 * 4 + min 2 (Disp.fget disp 4)) ++ beBytes 4 (tNs c.ts) ++
    beBytes 2 (pgb * 8192 + (if c.lossless then 4096 else 0) + c.pool * 1024)
  h ++ beBytes 2 (crc16 0xFFFF h)

/-- What leaves on the wire for a copy, FCS included: the stack header, a one-step update (R28), the injector's corruption (R314), and the FCS
or the stomped FCS (R219). -/
def Dev.wireBytes (d : Dev) (c : Copy) : List Byte :=
  let body := c.full
  let body := match c.ptp with | some x => x.update c.ets body | none => body
  let body := body ++ List.replicate (if c.domMsg then 60 - body.length else 0) 0
  let body := (if ! d.stackPort c.port then [] else if c.domMsg && c.stk.length == 16 then c.stk else d.stackHeader c) ++ body
  match c.bad with
  | some _ => body ++ stompOf body
  | none =>
    match c.corrupt with
    | none => body ++ fcsOf body
    | some (a, x, fcsv) =>
      let off := if d.stackPort c.port then 16 else 0
      let b := match body[a + off]? with | some y => overlay body (a + off) [y ^^^ BitVec.ofNat 8 x] | none => body
      b ++ fcsOf (if fcsv then b else body)

/-- Whole received bytes come back to a port in a near-end loop (R302). -/
def Dev.loopBack (d : Dev) (p : Nat) (bytes : List Byte) (ok : Bool) : Dev :=
  if d.portState p = 6 ∧ (d.arriving p).isNone then (d.frameStart p (bytes.take 64)).tailArrives p (bytes.drop 64) (if ok then 0 else 1) else d

/-- A copy's last bit has left (R198, R218, R219): good, or with a stomped FCS. -/
def Dev.txFinish (d : Dev) (c : Copy) : Dev :=
  let p := c.port
  let k := 32 * p + c.queue
  let bytes := d.wireBytes c
  let errterm := d.fbitB F.BUF_PORT.ERRTERM [p]
  let d := match c.bad with
    | some b => (d.count (Ct.BUF_STOMP_CNT (16 * p + b)) 1).raiseLimited Ev.BUF_STOMP p (d.unitPort p) (ms 1)
    | none => d
  let ok := c.bad.isNone || ! errterm
  let d := ((d.portEmit p bytes ok).count (Ct.QUE_TX_FRAMES k) 1).count (Ct.QUE_TX_BYTES k) bytes.length
  let d := if c.sentBytes = 0 then d else d.fset F.SHU_STAT.SUSP (d.pIx p) 0
  ((d.copyGone c.id).clearDeficits p).loopBack p bytes ok

/-- Transmission of a copy, or of its fragment, ends (R198, R216, R281, R403): `ecc` are the cells whose read found an uncorrectable error, `corr`
those of the corrected ones, one entry each (R197). -/
def Dev.txEnd (d : Dev) (p : Nat) (ecc corr : List Nat) : Dev :=
  match d.sending p with
  | none => d
  | some c =>
    let due := fun (n : Nat) => d.since c.startTime (d.wireTime p n)
    match c.frag with
    | some n => if due n then d.fragmentEnd c n else d
    | none =>
      if ! due (c.full.length + 4 - c.sentBytes) then d
      else
        let bad := ecc.filter fun x => c.cells.contains x
        let d := bad.foldl (fun (d : Dev) x =>
          (d.raise Ev.BUF_CELL_UECC (bitsN x 20 17) unitDev).sramRepair (98 + bitsN x 20 17) (bitsN x 16 14) true) d
        let good := corr.filter fun x => c.cells.contains x
        let d := good.foldl (fun (d : Dev) x => (d.count (Ct.BUF_CELL_CORR_CNT 0) 1).sramCorrected (98 + bitsN x 20 17) (bitsN x 16 14) (bitsN x 13 0)) d
        let cause := if c.bad.isSome then c.bad else if ! bad.isEmpty then some 5 else if ! c.ended || ! c.cellsDone then some 4 else none
        let c' : Copy := { c with bad := cause, ended := true, fid := none }
        ((d.copyMod c.id fun _ => c').copyCaps c.id).txFinish c'

end Sys2Proof.Machine
end

