-- ==== Sys2Proof/Machine/Lanes.lean ====
section
/-! DEFINITION. Bring-up, link loss, loops, low power, monitors and sparing of the ports and lanes (R287 to R311). -/

namespace Sys2Proof.Machine

set_option cleanup.letToHave false

/-- NLANES lanes at a lane rate form a row of R289. -/
def speedRow (lanes rate : Nat) : Bool :=
  match lanes with
  | 1 => decide (rate ≤ 4)
  | 2 => decide (2 ≤ rate) && decide (rate ≤ 4)
  | 4 => decide (1 ≤ rate) && decide (rate ≤ 4)
  | 8 => decide (2 ≤ rate) && decide (rate ≤ 4)
  | _ => false

/-- The check of R292. -/
def Dev.portOk (d : Dev) (p : Nat) : Bool :=
  let n := d.portLanes p
  let s := d.portSlice p
  let m := d.portSlot p
  decide (m + n ≤ 32) && speedRow n (d.fget F.LN_PORT.RATE [p]) && speedRow n (d.fget F.LN_PORT.FLOOR [p]) &&
    decide (d.fget F.LN_PORT.FLOOR [p] ≤ d.fget F.LN_PORT.RATE [p]) && d.portList.all fun q =>
      q == p || ! d.fbit F.LN_PORT.EN [q] || d.portSlice q != s || decide (d.portSlot q + d.portLanes q ≤ m) || decide (m + n ≤ d.portSlot q)

/-- MODE of a port: 0 KR/CR, 1 FORCED, 2 AUI, 3 JOINED. -/
def Dev.portMode (d : Dev) (p : Nat) : Nat := d.fget F.LN_PORT.MODE [p]

/-- The port auto-negotiates (R293, R294). -/
def Dev.portAn (d : Dev) (p : Nat) : Bool := d.portMode p == 0 || d.portMode p == 3

/-- A port enters a state of R293 other than UP. -/
def Dev.setPort (d : Dev) (p st : Nat) : Dev :=
  let now := d.now
  (d.fset F.LN_PSTAT.STATE [p] st).portMod p fun x => { x with since := now, retryAt := none }

/-- The FEC of a port at a lane rate (R290): always RS(544,514) with PAM4; on 10 and 25 Gb/s ports the strongest that both ends have, never
weaker than FEC selects; four lanes of R26 run RS(528,514), the FEC of their IEEE 802.3 types (log entry 26). -/
def Dev.fecFor (d : Dev) (p rate theirs : Nat) : Nat :=
  let sel := min 2 (d.fget F.LN_PORT.FEC [p])
  match rate with
  | 0 => min 1 (max sel theirs)
  | 1 => if d.portLanes p = 4 then 2 else max sel (min 2 theirs)
  | _ => 3

/-- Bring-up starts at AN or, in FORCED and AUI, at TRAIN at RATE (R293); the ports of a slice that is down for repair wait in deep shut
(R398, R402). -/
def Dev.bringUp (d : Dev) (p : Nat) : Dev :=
  if d.sliceDown (d.portSlice p) then d.setPort p 7 else
  let rate := d.fget F.LN_PORT.RATE [p]
  let fec := d.fecFor p rate 0
  (d.setPort p (if d.portAn p then 1 else 2)).portMod p fun x =>
    { x with noAn := false, fullTrain := false, resume := false, rate := if d.portAn p then x.rate else rate,
             fec := if d.portAn p then x.fec else fec }

/-- A port that is UP leaves UP (R293, R296, R305): event 288, frames that are arriving end bad with cause LINK, its lanes store their
coefficients, its directions leave quiet, and its preemption is off. -/
def Dev.leaveUp (d : Dev) (p : Nat) : Dev :=
  if ! d.portUp p then d
  else
    let d := if (d.arriving p).isSome then d.tailArrives p [] 6 else d
    let d := (d.portLaneList p).foldl (fun (d : Dev) n => d.fsets [(F.LN_STATUS.COEF_VALID, 1), (F.LN_STATUS.FROZEN, 0)] [n]) d
    let d := d.fsets [(F.LN_PSTAT.TXQ, 0), (F.LN_PSTAT.RXQ, 0)] [p]
    let d := (d.fset F.SHU_STAT.PSTATE (d.pIx p) 0).portMod p fun x => { x with waking := none }
    d.raise Ev.LN_LINK p (d.unitPort p)

/-- A port becomes UP (R293): event 288; preemption and the mask in force start, and its idle time counts from now. -/
def Dev.enterUp (d : Dev) (p : Nat) : Dev :=
  let now := d.now
  let d := (d.setPort p 5).portMod p fun x => { x with lastSel := now, lastRx := now, resume := false, fullTrain := false, noAn := false }
  let d := (d.portLaneList p).foldl (fun (d : Dev) n => ((d.fset F.LN_STATUS.LOCK [n] 1).laneMod n fun x =>
      { x with snapAt := now, lowCount := 0, afterRevert := none, degraded := false }).rclkBack n) d
  let d := ((d.preemptStart p).setMask p (d.portMask p)).showExt
  d.raise Ev.LN_LINK p (d.unitPort p)

/-- PORT_ENABLE: LN_PORT.EN is written 1 (R292, R293, R370). -/
def Dev.portEnable (d : Dev) (p : Nat) (bad : List Nat) : Dev :=
  if d.fbit F.LN_PORT.EN [p] then d
  else if d.portMode p = 3 ∧ d.role = 3 ∧ d.fbit F.FAB_STK.EN [] then d.raise Ev.STK_REFUSED 0 unitDev
  else if ! d.portOk p then d.raise Ev.LN_CFGERR p (d.unitPort p)
  else
    let d := (d.fset F.LN_PORT.EN [p] 1).portMod p fun x => { x with partner := none }
    ((d.bringUp p).refreshDomains bad).refreshLanes (d.portBase p)

/-- PORT_DISABLE: LN_PORT.EN is written 0 (R293, R305): a replacement that involves the port ends. -/
def Dev.portDisable (d : Dev) (p : Nat) : Dev :=
  if ! d.fbit F.LN_PORT.EN [p] then d
  else
    let base := d.portBase p
    let s := d.portSlice p
    let lanes := base ++ d.portLaneList p
    let d := ((d.leaveUp p).setPort p 0).fset F.LN_PORT.EN [p] 0
    let d := d.fsets [(F.LN_PSTAT.JOINED, 0), (F.LN_PSTAT.REVERSED, 0), (F.LN_PSTAT.PERMUTED, 0)] [p]
    let d := d.portMod p fun x => { x with partner := none, noAn := false, resume := false, fullTrain := false }
    let d := if (d.sparingOf s).any fun x => x.port == p && ! x.restore then
        ((({ d with lane := { d.lane with sparing := mdel d.lane.sparing s } } : Dev).fset F.LN_SPARE.STATE [s] 0).raise Ev.LN_SPARE_FAIL p (d.unitPort p))
      else d
    let d := lanes.foldl (fun (d : Dev) n => d.fset F.LN_STATUS.COEF_VALID [n] 0) d
    ((d.refreshDomains []).refreshLanes lanes).refreshLanes [laneOf s 32]

/-- The lane rates that the port advertises: from FLOOR to RATE, with its lane count (R294). -/
def Dev.ownRates (d : Dev) (p : Nat) : List Nat :=
  (List.range 5).filter fun r => decide (d.fget F.LN_PORT.FLOOR [p] ≤ r) && decide (r ≤ d.fget F.LN_PORT.RATE [p]) && speedRow (d.portLanes p) r

/-- The lane rates that both ends advertised, below r (R294, R295). -/
def Dev.commonBelow (d : Dev) (p r : Nat) : Option Nat :=
  let theirs := ((d.port p).partner.map fun x => x.rates).getD []
  ((d.ownRates p).filter fun x => decide (x < r) && theirs.contains x).getLast?

/-- The port starts training at a lane rate (R294, R295). -/
def Dev.trainAt (d : Dev) (p rate : Nat) : Dev :=
  let theirs := ((d.port p).partner.map fun x => x.fec).getD 0
  let fec := d.fecFor p rate theirs
  (d.setPort p 2).portMod p fun x => { x with rate := rate, fec := fec }

/-- The port returns to AN and restarts after 1 s (R295). -/
def Dev.backToAn (d : Dev) (p : Nat) : Dev :=
  let now := d.now
  (d.setPort p 1).portMod p fun x => { x with retryAt := some (now + sec 1), noAn := false, resume := false, fullTrain := false }

/-- AN_COMPLETE (R294, R297): the partner advertised `rates`, an FEC and LPI; its join record, if it sent one, is
[UID, domain, lane count, WIRED]. -/
def Dev.anComplete (d : Dev) (p : Nat) (rates : List Nat) (fec : Nat) (lpi : Bool) (rec' : List Nat) : Dev :=
  if d.portState p ≠ 1 ∨ (d.port p).retryAt.isSome then d
  else
    let hit := d.portMode p == 3 && rec'.length == 4 && rec'.getD 1 0 == d.fget F.FAB_CTL.DOMAIN [] && rec'.getD 2 0 == d.portLanes p
    let partner : Partner := { rates := rates, fec := fec, lpi := lpi, uid := BitVec.ofNat 64 (rec'.getD 0 0), domain := rec'.getD 1 0,
                               lanes := rec'.getD 2 0, wired := rec'.getD 3 0 == 1 }
    let d := d.portMod p fun x => { x with partner := some partner }
    let d := if d.portMode p = 3 then (d.fset F.LN_PSTAT.JOINED [p] (if hit then 1 else 0)).raiseSev Ev.LN_JOIN (if hit then 0 else 1) p (d.unitPort p) else d
    match d.commonBelow p 5 with
    | some r => d.trainAt p r
    | none => d.backToAn p

/-- AN_RESTART (R293): no complete exchange for 3 s. -/
def Dev.anRestart (d : Dev) (p : Nat) : Dev :=
  if d.portState p = 1 ∧ (d.port p).retryAt.isNone ∧ d.since (d.port p).since (sec 3) then d.setPort p 1 else d

/-- Every lane of the port has power. -/
def Dev.lanesOn (d : Dev) (l : List Nat) : Bool := l.all fun n => d.fget F.LN_STATUS.PWR [n] == 2

/-- A lane may be spared (R308): Endurance, a joined link, WIRED at both ends, and the spare idle. -/
def Dev.maySpare (d : Dev) (n : Nat) : Bool :=
  let s := n / 33
  ! d.precision && n % 33 != 32 && d.fget F.LN_SPARE.STATE [s] == 0 && (d.sparingOf s).isNone && d.fbit F.LN_SPARE.WIRED [s] &&
    (match d.lanePort n with
     | some p => d.fbit F.LN_PSTAT.JOINED [p] && (d.port p).partner.any fun x => x.wired
     | none => false)

/-- Sparing of a lane starts (R309): event 293; with the port UP the spare trains meanwhile, otherwise it trains with the other lanes
(R310). -/
def Dev.spareStart (d : Dev) (n : Nat) : Dev :=
  match d.lanePort n with
  | none => d
  | some p =>
    let s := n / 33
    let now := d.now
    let x : Sparing := { target := n % 33, port := p, start := now, down := ! d.portUp p }
    let d : Dev := { d with lane := { d.lane with sparing := mins d.lane.sparing s x } }
    ((d.fset F.LN_SPARE.STATE [s] 1).raise Ev.LN_SPARE_START n (unitLane n)).refreshLanes [laneOf s 32]

/-- A replacement fails (R310): event 295, and the spare is idle again. -/
def Dev.spareFail (d : Dev) (s : Nat) : Dev :=
  match d.sparingOf s with
  | none => d
  | some x =>
    let d : Dev := { d with lane := { d.lane with sparing := mdel d.lane.sparing s } }
    ((d.fset F.LN_SPARE.STATE [s] 0).raise Ev.LN_SPARE_FAIL x.port (d.unitPort x.port)).refreshLanes [laneOf s 32]

/-- A replacement completes (R311, R348, R411). -/
def Dev.spareDone (d : Dev) (s : Nat) : Dev :=
  match d.sparingOf s with
  | none => d
  | some x =>
    let n := laneOf s x.target
    let d : Dev := { d with lane := { d.lane with sparing := mdel d.lane.sparing s } }
    let d := d.fsets [(F.LN_SPARE.STATE, 3), (F.LN_SPARE.REPLACED, x.target)] [s]
    let d := (d.fsets [(F.LN_STATUS.FAILED, 1), (F.LN_STATUS.COEF_VALID, 0)] [n]).refreshLanes [n, laneOf s 32]
    let d := (d.raise Ev.LN_SPARE_DONE n (unitLane n)).milestone 7 n 0
    d.recovered 1 n 0 0 x.start

/-- A port that is UP loses link (R296): a joined link returns to TRAIN at its last rate (R298), others to AN, or TRAIN in FORCED and AUI. A replacement under way goes on in the retraining (R310). -/
def Dev.linkLoss (d : Dev) (p : Nat) (lost : List Nat) : Dev :=
  if ! d.portUp p then d
  else
    let joined := d.fbit F.LN_PSTAT.JOINED [p]
    let d := d.leaveUp p
    let d := (lost.filter fun n => decide (n < 1056)).foldl (fun (d : Dev) n => (d.fset F.LN_STATUS.LOCK [n] 0).rclkLost n) d
    let s := d.portSlice p
    let d : Dev := { d with lane := { d.lane with sparing := d.lane.sparing.map fun x =>
      if x.1 = s ∧ x.2.port = p ∧ ¬ x.2.restore then (x.1, { x.2 with down := true, moveAt := none }) else x } }
    if joined then (d.setPort p 2).portMod p fun x => { x with noAn := true } else d.bringUp p

/-- A trigger acts on a lane: sparing where R308 allows; otherwise its port goes down (R308), in Precision with the lane-fault event
(R22). -/
def Dev.laneTrigger (d : Dev) (n : Nat) : Dev :=
  if d.sliceRepairing (n / 33) then { d with rep := { d.rep with keptLanes := d.rep.keptLanes ++ [n] } }
  else if d.fbit F.LN_SPARE.AUTO [n / 33] && d.maySpare n then d.spareStart n
  else
    let d := if d.precision then d.raise Ev.LN_FAULT n (unitLane n) else d
    match d.portOfLane n with
    | some p => d.linkLoss p []
    | none => d

/-- Polarity corrections found by the receivers (R307). -/
def Dev.polarity (d : Dev) (inv : List Nat) : Dev :=
  (inv.filter fun n => decide (n < 1056)).foldl (fun (d : Dev) n => if d.fbit F.LN_CFG.RXINV [n] then d else (d.fset F.LN_CFG.RXINV [n] 1).raise Ev.LN_CORRECTED n (unitLane n)) d

/-- Every lane trained (R293, R298, R310): `margins` are the lanes' margins, `inv` the lanes whose polarity the receiver corrected, `theirs`
the PCS lane position that the partner's join record names as failed, 8 for none. On a joined link training ends once every lane reaches
MARGIN_MIN. -/
def Dev.trainComplete (d : Dev) (p : Nat) (margins inv : List Nat) (theirs : Nat) : Dev :=
  let s := d.portSlice p
  let joined := d.fbit F.LN_PSTAT.JOINED [p]
  let ours := match d.sparingOf s with
    | some x => if x.down && x.port == p then x.target - d.portSlot p else 8
    | none => 8
  let d := if joined && d.portState p == 2 && ours == 8 && decide (theirs < d.portLanes p) && d.maySpare (laneOf s (d.portSlot p + theirs)) then
      d.spareStart (laneOf s (d.portSlot p + theirs)) else d
  let agree := ours == theirs || ours == 8 || theirs == 8
  let spare := (d.sparingOf s).any fun x => x.down && x.port == p
  let base := d.portLaneList p
  let lanes := if spare && agree then base.map fun n => if (d.sparingOf s).any fun x => laneOf s x.target == n then laneOf s 32 else n else base
  let good := ! joined || (lanes.zip margins).all fun x => decide (d.fget F.LN_ADAPT.MARGIN_MIN [x.1] ≤ x.2)
  if d.portState p ≠ 2 ∨ (d.port p).retryAt.isSome ∨ margins.length ≠ d.portLanes p ∨ ! d.lanesOn lanes ∨ ! good ∨
      (lanes.any fun n => d.fget F.LN_STATUS.FAULT [n] != 0) then d
  else
    let d := (lanes.zip margins).foldl (fun (d : Dev) x => d.fsets [(F.LN_STATUS.MARGIN, x.2), (F.LN_STATUS.LOCK, 1)] [x.1]) d
    let d := d.polarity inv
    let d := if spare then (if agree then d.spareDone s else d.spareFail s) else d
    let rate := (d.port p).rate
    (d.fset F.LN_PSTAT.CUR_RATE [p] rate).setPort p (if joined then 3 else 4)

/-- Training at the rate in force fails (R295, R298, R305): one lane alone may be spared (R309). -/
def Dev.trainTimeout (d : Dev) (p : Nat) (failed : List Nat) : Dev :=
  let x := d.port p
  let tmo := ms (10 * atLeast1 (d.fget F.LN_PCTL.TRAIN_TMO [p]))
  let limit := if x.fullTrain then min tmo (ms 25) else tmo
  if d.portState p ≠ 2 ∨ x.retryAt.isSome ∨ ! d.since x.since limit then d
  else
    let one := failed.length == 1 && d.fbit F.LN_SPARE.AUTO [d.portSlice p] && failed.all fun n => d.maySpare n && d.lanePort n == some p
    let now := d.now
    if one then (d.spareStart (failed.headD 0)).setPort p 2
    else if ! d.portAn p then
      ((d.setPort p 2).portMod p fun y => { y with retryAt := some (now + sec 1), fullTrain := false }).raise Ev.LN_TRAIN_FAIL p (d.unitPort p)
    else if x.noAn || x.fullTrain then (d.setPort p 1).portMod p fun y => { y with noAn := false, fullTrain := false }
    else match d.commonBelow p x.rate with
      | some r => ((d.trainAt p r).count (Ct.LN_FALLBACK_CNT p) 1).raise Ev.LN_FALLBACK p (d.unitPort p)
      | none => (d.backToAn p).raise Ev.LN_TRAIN_FAIL p (d.unitPort p)

/-- The delay after a failure has passed (R295). -/
def Dev.retryDue (d : Dev) (p : Nat) : Dev :=
  match (d.port p).retryAt with
  | some t => if t ≤ d.now then d.setPort p (d.portState p) else d
  | none => d

/-- The channel delays of the first lane are measured and exchanged (R299), in 2^-16 ns: `rx` of the own receive channel as the partner
measured it, `tx` of the own transmit channel. -/
def Dev.asymMeasured (d : Dev) (p rx tx : Nat) : Dev :=
  if d.portState p ≠ 3 then d
  else
    let asym : Int := ((rx : Int) - tx) / 512
    (d.fsets [(F.TIM_PORT.ASYM, unsext 32 asym), (F.TIM_PORT.ASYM_SRC, 1)] [p]).setPort p 4

/-- Block lock, marker lock, deskew and FEC lock on every lane (R293); lane order and polarity are corrected (R307). -/
def Dev.alignComplete (d : Dev) (p : Nat) (rev perm : Bool) (inv : List Nat) : Dev :=
  if d.portState p ≠ 4 ∨ d.sliceDown (d.portSlice p) ∨ ! d.lanesOn (d.portLaneList p) then d
  else
    let d := d.polarity inv
    let d := if rev || perm then d.raise Ev.LN_CORRECTED p (d.unitPort p) else d
    let d := d.fsets [(F.LN_PSTAT.REVERSED, if rev then 1 else 0), (F.LN_PSTAT.PERMUTED, if perm then 1 else 0)] [p]
    d.enterUp p

/-- The stored coefficients of the port's lanes are used up: it trains in full (R305). -/
def Dev.trainFull (d : Dev) (p : Nat) : Dev := (d.setPort p 2).portMod p fun x => { x with fullTrain := true, resume := false }

/-- No alignment in time (R293, R305). -/
def Dev.alignTimeout (d : Dev) (p : Nat) : Dev :=
  let x := d.port p
  if d.portState p ≠ 4 ∨ ! d.since x.since (if x.resume then us 800 else ms 10) then d
  else if x.resume then d.trainFull p
  else d.bringUp p

/-- A port leaves deep shut with its stored coefficients, or trains in full (R305, R401). -/
def Dev.leaveDeep (d : Dev) (p : Nat) : Dev :=
  let lanes := d.portLaneList p
  let d := (d.setPort p 4).refreshLanes lanes
  if lanes.all fun n => d.fbit F.LN_STATUS.COEF_VALID [n] then d.portMod p fun x => { x with resume := true } else d.trainFull p

/-- LN_PCTL.LOOP is written (R302). -/
def Dev.loopWrite (d : Dev) (p v : Nat) : Dev :=
  let d := d.fset F.LN_PCTL.LOOP [p] v
  if v % 4 ≠ 0 then (if d.portUp p then (d.leaveUp p).setPort p 6 else d)
  else if d.portState p = 6 then d.bringUp p else d

/-- LN_PCTL.DORMANT is written (R305). -/
def Dev.dormantWrite (d : Dev) (p v : Nat) : Dev :=
  let d := d.fset F.LN_PCTL.DORMANT [p] v
  if v = 1 then (if d.portUp p then ((d.leaveUp p).setPort p 7).refreshLanes (d.portLaneList p) else d)
  else if d.portState p = 7 ∧ ! d.sliceHeld (d.portSlice p) then d.leaveDeep p else d

/-- LN_PCTL.RETRAIN is written 1 (R293): the port leaves UP and retrains at the current rate. -/
def Dev.retrain (d : Dev) (p : Nat) : Dev :=
  if d.portUp p then ((d.leaveUp p).setPort p 2).portMod p fun x => { x with noAn := d.fbit F.LN_PSTAT.JOINED [p] } else d

/-- The time of n FEC codewords of 5,120 data bits on a port (R300). -/
def Dev.codewords (d : Dev) (p n : Nat) : Nat := d.wireTime p (640 * n)

/-- 4,096 idle codewords have passed (R300). -/
def Dev.freeze (d : Dev) (p : Nat) : Dev :=
  if ! d.portUp p || (d.arriving p).isSome || ! d.since (d.port p).lastRx (d.codewords p 4096) then d
  else (d.portLaneList p).foldl (fun (d : Dev) n => if d.fbit F.LN_ADAPT.FREEZE_EN [n] then d.fset F.LN_STATUS.FROZEN [n] 1 else d) d

/-- The lane carries data of a port that is UP and is not frozen. -/
def Dev.adapting (d : Dev) (n : Nat) : Bool := ((d.portOfLane n).any fun p => d.portUp p) && ! d.fbit F.LN_STATUS.FROZEN [n]

/-- A snapshot is due (R301). -/
def Dev.snapshot (d : Dev) (n : Nat) : Dev :=
  let due := d.since (d.laneSt n).snapAt (ms (100 * atLeast1 (d.fget F.LN_ADAPT.SNAP_INT [n])))
  if ! d.adapting n || ! due then d
  else
    let now := d.now
    let d := d.laneMod n fun x => { x with snapAt := now }
    if d.fget F.LN_ADAPT.MARGIN_MIN [n] ≤ d.fget F.LN_STATUS.MARGIN [n] then d.fset F.LN_STATUS.SNAP_MARGIN [n] (d.fget F.LN_STATUS.MARGIN [n]) else d

/-- A margin measurement of a lane (R301): the fourth in a row below the snapshot's by more than DRIFT_LIM restores the snapshot, and 64
further ones later a lane still below MARGIN_MIN is degraded. -/
def Dev.marginMeasure (d : Dev) (n m : Nat) : Dev :=
  if ! d.adapting n then d
  else
    let x := d.laneSt n
    let low := decide (m + d.fget F.LN_ADAPT.DRIFT_LIM [n] < d.fget F.LN_STATUS.SNAP_MARGIN [n])
    let cnt := if low then x.lowCount + 1 else 0
    let after := x.afterRevert.map (· + 1)
    let worst := match x.worst with | some w => min w m | none => m
    let d := (d.fset F.LN_STATUS.MARGIN [n] m).laneMod n fun x => { x with lowCount := cnt, afterRevert := after, worst := some worst }
    if cnt = 4 then
      let d := d.laneMod n fun x => { x with lowCount := 0, afterRevert := some 0 }
      (d.count (Ct.LN_REVERT_CNT n) 1).raise Ev.LN_REVERT n (unitLane n)
    else if after = some 64 then
      let d := d.laneMod n fun x => { x with afterRevert := none }
      if m < d.fget F.LN_ADAPT.MARGIN_MIN [n] then (d.laneMod n fun x => { x with degraded := true }).laneTrigger n else d
    else d

/-- `n` corrected symbols of a lane within 1 s (R309); `inj` says that join messages report the partner's injection. -/
def Dev.symbolTrigger (d : Dev) (l n : Nat) (inj : Bool) : Dev :=
  if ! (d.portOfLane l).any fun p => d.portUp p then d
  else
    let d := d.count (Ct.LN_FEC_CORR_CNT l) n
    if 2 ^ d.fget F.LN_SPARE.SER_LIM [l / 33] < n ∧ ! inj ∧ d.fbit F.LN_SPARE.AUTO [l / 33] then d.laneTrigger l else d

/-- The transmitter of a port may enter quiet (R303), or is sent there by the capping loop (R342). -/
def Dev.mayQuiet (d : Dev) (p : Nat) : Bool :=
  d.portUp p && ! d.fbit F.LN_PSTAT.TXQ [p] && (d.sending p).isNone && (d.outstanding p).isNone && (d.releaseList p).isEmpty &&
    (d.fbit F.LN_PSTAT.JOINED [p] || (d.port p).partner.any fun x => x.lpi)

/-- The transmitter of a port enters quiet. -/
def Dev.quietEnter (d : Dev) (p : Nat) : Dev :=
  let now := d.now
  (d.fset F.LN_PSTAT.TXQ [p] 1).portMod p fun x => { x with waking := none, lastRefresh := now }

/-- QIDLE has passed without a selection (R303). -/
def Dev.txQuiet (d : Dev) (p : Nat) : Dev :=
  if d.mayQuiet p && d.fbit F.LN_PCTL.QTX_EN [p] && d.since (d.port p).lastSel (ns (100 * atLeast1 (d.fget F.LN_PCTL.QIDLE [p]))) then d.quietEnter p
  else d

/-- A transmitter in quiet that has cause to leave it wakes; its wake ends 1.0 µs later (R303). -/
def Dev.txQuietExit (d : Dev) (p : Nat) : Dev :=
  if ! d.fbit F.LN_PSTAT.TXQ [p] then d
  else match (d.port p).waking with
    | some t => if t ≤ d.now then d.leaveQuiet p else d
    | none => if (d.outstanding p).isSome || ! (d.releaseList p).isEmpty then d.wakeTx p else d

/-- The time to the next opening of a queue's window that is not skipped, in 2^-16 ns. -/
def Dev.toOpening (d : Dev) (p q : Nat) : Option Nat :=
  let k := d.portKey p
  let ph := d.phase
  (((windows (d.shuSteps k) q).filter fun w => ! d.skipped k q w.1).map fun w => (w.1 + 2 ^ 32 - ph) % 2 ^ 32 * d.cyc.per / 2 ^ 48).foldl
    (fun m x => match m with | some y => some (min x y) | none => some x) none

/-- The wake before an opening at which a queue that holds a frame opens (R304). -/
def Dev.wakeBefore (d : Dev) (p : Nat) : Dev :=
  let soon := (List.range 20).any fun q => ! (d.headSeg p q).isEmpty && (d.toOpening p q).any fun t => decide (t ≤ us 1)
  if d.shuttered p && d.phaseValid && soon then d.wakeTx p else d

/-- A refresh of a quiet transmitter is due (R303). -/
def Dev.lpiRefresh (d : Dev) (p : Nat) : Dev :=
  let now := d.now
  if d.fbit F.LN_PSTAT.TXQ [p] && d.since (d.port p).lastRefresh (ms 1) then d.portMod p fun x => { x with lastRefresh := now } else d

/-- The receiver of a port enters or leaves quiet (R300, R303). -/
def Dev.rxQuiet (d : Dev) (p : Nat) (on : Bool) : Dev :=
  if ! d.portUp p || (on && ! d.fbit F.LN_PCTL.QRX_EN [p]) || d.fbit F.LN_PSTAT.RXQ [p] == on then d
  else
    let now := d.now
    let v := if on then 1 else 0
    let d := (d.fset F.LN_PSTAT.RXQ [p] v).portMod p fun x => { x with lastRx := now }
    (d.portLaneList p).foldl (fun (d : Dev) n => d.fset F.LN_STATUS.FROZEN [n] v) d

/-- A lane group has powered on (R306): its lanes train in full. -/
def Dev.groupDone (d : Dev) (g : Nat) : Dev :=
  if (mget? d.lane.groupOn g).isNone then d
  else
    let d : Dev := { d with lane := { d.lane with groupOn := mdel d.lane.groupOn g } }
    (rangeFrom (16 * g) 16).foldl (fun (d : Dev) n => d.showLane n) d

/-- A lane monitor finds fault k of R307 (bit 54 + k of LN_STATUS): event 290; an UP port loses link unless its lane may be spared, which while
its slice is under repair waits for the return (R395). -/
def Dev.laneFault (d : Dev) (n k : Nat) : Dev :=
  if 5 ≤ k ∨ bitN (d.fget F.LN_STATUS.FAULT [n]) k then d
  else
    let now := d.now
    let d := d.fset F.LN_STATUS.FAULT [n] (d.fget F.LN_STATUS.FAULT [n] ||| 2 ^ k)
    let d := (d.laneMod n fun x => { x with faultAt := now }).raise Ev.LN_FAULT n (unitLane n)
    if d.fbit F.LN_SPARE.AUTO [n / 33] && d.maySpare n then
      if d.sliceRepairing (n / 33) then { d with rep := { d.rep with keptLanes := d.rep.keptLanes ++ [n] } } else d.spareStart n
    else match d.portOfLane n with
      | some p => d.linkLoss p [n]
      | none => d

/-- A fault has been absent for 1 s (R307): its bit clears, and its port starts bring-up again. -/
def Dev.laneFaultClear (d : Dev) (n k : Nat) : Dev :=
  if 5 ≤ k ∨ ! bitN (d.fget F.LN_STATUS.FAULT [n]) k ∨ ! d.since (d.laneSt n).faultAt (sec 1) then d
  else
    let d := d.fset F.LN_STATUS.FAULT [n] (d.fget F.LN_STATUS.FAULT [n] - 2 ^ k)
    match d.portOfLane n with
    | some p => if d.portUp p || d.portState p == 6 || d.portState p == 7 then d else d.bringUp p
    | none => d

/-- LN_SPARE.GO is written 1 for data lane TARGET (R309). -/
def Dev.spareGo (d : Dev) (s : Nat) : Dev :=
  let n := laneOf s (d.fget F.LN_SPARE.TARGET [s])
  if d.sliceRepairing s then d
  else
    let d := d.fset F.LN_SPARE.GO [s] 0
    if d.maySpare n then d.spareStart n else d

/-- A restore fails: the lane returns to deep shut with FAILED still set, and event 423 (R407). -/
def Dev.restoreFail (d : Dev) (s : Nat) : Dev :=
  match d.sparingOf s with
  | none => d
  | some x =>
    let n := laneOf s x.target
    let d : Dev := { d with lane := { d.lane with sparing := mdel d.lane.sparing s } }
    (d.refreshLanes [n]).raise Ev.REP_LANE_RETEST_FAIL n (unitLane n)

/-- A restore starts (R407): ignored unless the slice's spare is in use. -/
def Dev.restoreStart (d : Dev) (s : Nat) : Dev :=
  let n := laneOf s (d.fget F.LN_SPARE.REPLACED [s])
  if d.fget F.LN_SPARE.STATE [s] ≠ 3 ∨ (d.sparingOf s).isSome then d
  else
    let x : Sparing := { target := n % 33, port := (d.lanePort n).getD 1024, start := d.now, restore := true }
    Dev.refreshLanes { d with lane := { d.lane with sparing := mins d.lane.sparing s x } } [n]

/-- LANE_GO for slice s (R395, R407): kept while the slice is under repair. -/
def Dev.restoreGo (d : Dev) (s : Nat) : Dev :=
  if d.sliceRepairing s then { d with rep := { d.rep with keptGo := d.rep.keptGo ++ [s] } } else d.restoreStart s

/-- Both spares have trained in full, or with `ok` false have not (R309, R310): the move is agreed 1 ms ahead. A lane with a fault that could
not be replaced takes its port down. -/
def Dev.spareTrained (d : Dev) (s : Nat) (ok : Bool) : Dev :=
  match d.sparingOf s with
  | none => d
  | some x =>
    if x.down || x.moveAt.isSome || (x.restore && ! x.tested) then d
    else if ok then
      let t := d.fab + ms 1
      let d : Dev := { d with lane := { d.lane with sparing := mins d.lane.sparing s { x with moveAt := some t } } }
      if x.restore then d else d.fset F.LN_SPARE.STATE [s] 2
    else if x.restore then d.restoreFail s
    else
      let n := laneOf s x.target
      let d := d.spareFail s
      if d.fget F.LN_STATUS.FAULT [n] != 0 || (d.laneSt n).degraded then d.linkLoss x.port [n] else d

/-- The restored lane carries its PCS lane again (R407, R411). -/
def Dev.restoreDone (d : Dev) (s : Nat) : Dev :=
  match d.sparingOf s with
  | none => d
  | some x =>
    let n := laneOf s x.target
    let d : Dev := { d with lane := { d.lane with sparing := mdel d.lane.sparing s } }
    let d := d.fsets [(F.LN_SPARE.STATE, 0), (F.LN_SPARE.REPLACED, 0)] [s]
    let d := (d.fset F.LN_STATUS.FAILED [n] 0).refreshLanes [n, laneOf s 32]
    (d.raise Ev.REP_LANE_RESTORED n (unitLane n)).recovered 2 n 0 0 x.start

/-- The agreed fabric time has come: both ends move the PCS lane (R309). -/
def Dev.spareSwitch (d : Dev) (s : Nat) : Dev :=
  match d.sparingOf s with
  | none => d
  | some x =>
    match x.moveAt with
    | some t => if t ≤ d.fab then (if x.restore then d.restoreDone s else d.spareDone s) else d
    | none => d

end Sys2Proof.Machine
end

