-- ==== Sys2Proof/Machine/Fabric.lean ====
section
/-! DEFINITION. The domain engine and stack mode (chapter 16): membership, messages received, rule epochs, takeover, and the stack
election. -/

namespace Sys2Proof.Machine

set_option cleanup.letToHave false

/-- Own member number; the manager's is 0. -/
def Dev.myNum (d : Dev) : Nat := d.fget F.FAB_STATUS.MYNUM []

/-- The manager's view of a member is shown in FAB_MEMBER (R358). -/
def Dev.showMember (d : Dev) (m : Member) (profile fixed hops : Nat) : Dev :=
  (d.rset .FAB_MEMBER_UID [m.num] (BitVec.ofNat 64 m.uid)).fsets
    [(F.FAB_MEMBER.VALID, 1), (F.FAB_MEMBER.PROFILE, profile), (F.FAB_MEMBER.FIXED, fixed), (F.FAB_MEMBER.HOPS, hops)] [m.num]

/-- The domain size changes: FIXED is forced while it exceeds eight (R344, R358). -/
def Dev.setSize (d : Dev) (n : Nat) : Dev := (d.fset F.FAB_STATUS.MEMBERS [] n).fset F.PWR_STATUS.FORCED_FIXED [] (if 8 < n then 1 else 0)

/-- The deputy's mark in FAB_MEMBER and FAB_STATUS; a change of deputy is a change that the next ROSTER brings (R358, R362). -/
def Dev.showDeputy (d : Dev) : Dev :=
  let n := d.deputyNum
  let d := d.memberNums.foldl (fun (d : Dev) k =>
    let v := if k = n ∧ n ≠ 0 then 1 else 0
    if d.fget F.FAB_MEMBER.DEPUTY [k] = v then d
    else Dev.fset { d with fabric := { d.fabric with rosterDue := true } } F.FAB_MEMBER.DEPUTY [k] v) d
  d

/-- The device's own entry as the one in charge. -/
def Dev.enterSelf (d : Dev) : Dev :=
  let me : Member := { uid := d.uid, num := d.myNum, lastHello := d.now, pri := 0 }
  let d : Dev := { d with fabric := { d.fabric with members := me :: d.fabric.members.filter fun (m : Member) => m.uid != d.uid } }
  let d := d.showMember me (if d.precision then 1 else 0) (if d.fixedMode then 1 else 0) 0
  d.setSize d.memberNums.length

/-- The lowest number of 1 to 255 that no member holds and that has not been released within the last second (R358). -/
def Dev.freeNumber (d : Dev) : Option Nat :=
  findFirst (fun n => ! (d.fabric.members.any fun (m : Member) => m.num == n) && ! (d.fabric.released.any fun (x : Nat × Nat) => x.1 == n)) (rangeFrom 1 255)

/-- New workers take numbers in the order of their first HELLO (R358). -/
def Dev.assignNumbers (d : Dev) : Dev :=
  iter d.fabric.waitingUids.length (fun (d : Dev) =>
    match d.fabric.waitingUids, d.freeNumber with
    | u :: rest, some n =>
      let m : Member := { uid := u, num := n, lastHello := d.now, pri := 0 }
      let d : Dev := { d with fabric := { d.fabric with members := d.fabric.members ++ [m], waitingUids := rest, rosterDue := true } }
      let d := d.showMember m 0 0 0
      (d.setSize d.memberNums.length).raise Ev.FAB_MEMBER n unitDev
    | _, _ => d) d

/-- FAB_CTL.EN is written 1 (R353, R370). -/
def Dev.fabEnable (d : Dev) : Dev :=
  let src := d.cycSrc
  if d.role = 0 then d
  else if d.role = 3 then (if d.fbit F.FAB_STK.EN [] then d.raise Ev.STK_REFUSED 0 unitDev else d)
  else if d.fabEn then d
  else if ! d.fbit F.TIM_PTP_CLOCK.EXTCFG [] ∨ (d.role = 1 ∧ src ≠ 1) ∨ (d.role = 2 ∧ src = 1) then d.raise Ev.FAB_REFUSED 0 unitDev
  else
    let d := d.fset F.FAB_CTL.EN [] 1
    let d : Dev := { d with fabric := { d.fabric with sharedPeriod := d.rget .CYC_PERIOD [], lastHello := none, rosterMiss := 0, rosterDue := false,
                                                      lastCycleTx := none, lastPace := d.now, arrivals := [], arrivedFrom := d.now } }
    if d.role = 2 then
      let d := (d.setFabState 3).rset .FAB_MGR [] d.fuses.uid
      let d := d.enterSelf.showExt.refreshMasks
      { d with fabric := { d.fabric with rosterDue := true } }
    else (d.setFabState 1).showExt.refreshMasks

/-- What the device knows of its domain is gone. -/
def Dev.fabClear (d : Dev) : Dev :=
  let d := d.memberNums.foldl (fun (d : Dev) n => (d.rset .FAB_MEMBER [n] 0).rset .FAB_MEMBER_UID [n] 0) d
  { d with fabric := { d.fabric with members := [], waitingUids := [], released := [], shedSent := [] } }

/-- FAB_CTL.EN is written 0: the device leaves the domain (R353, R366). -/
def Dev.fabDisable (d : Dev) : Dev :=
  if ! d.fabEn then d
  else
    let shed := d.fabric.shedMask
    let me := d.myNum
    let d := (d.fset F.FAB_CTL.EN [] 0).fabClear
    let d := (d.fsets [(F.FAB_STATUS.DEPUTY, 0), (F.FAB_STATUS.MYNUM, 0), (F.FAB_STATUS.UPPORT, 0), (F.FAB_STATUS.DEFICIT, 0)] []).setSize 0
    let d := (d.rset .FAB_MGR [] 0).setFabState 0
    let d : Dev := { d with fabric := { d.fabric with shedMask := 0, silent := false, lastCycleRx := none } }
    let d := if shed = 0 then d else d.raise Ev.FAB_SHED me unitDev
    d.refreshMasks

/-- A sequence number lies 1 to 2^31 − 1 ahead of another (R356). -/
def seqAbove (a last : Nat) : Bool :=
  let x := (a + 2 ^ 32 - last % 2 ^ 32) % 2 ^ 32
  decide (1 ≤ x) && decide (x < 2 ^ 31)

/-- The last SEQ accepted from an origin, unless it is forgotten. -/
def Dev.lastSeqOf (d : Dev) (o : Nat) : Option (Nat × Nat) := (findFirst (fun (x : Nat × Nat × Nat) => x.1 == o) d.fabric.lastSeq).map (·.2)

/-- The header and length of a message are valid (R354, R355). -/
def domFormatOk (m : DomRx) : Bool :=
  m.ver == 1 && decide (1 ≤ m.typ) && decide (m.typ ≤ 7) && domLenOk m.typ m.len m.payload && decide (m.len ≤ m.payload.length)

/-- An accepted message is relayed (R357). -/
def Dev.relay (d : Dev) (m : DomRx) : Dev :=
  let links := d.domainLinks
  let up := d.fget F.FAB_STATUS.UPPORT []
  let out := if m.tomgr then (if d.inCharge then [] else links.filter fun p => p == up && p != m.port) else links.filter fun p => p != m.port
  if m.hops = 0 ∨ out.isEmpty ∨ ! d.since d.fabric.releasedAt (ms 100) then d
  else Dev.domOut (d.count (Ct.FAB_RELAY_CNT 0) 1)
    { typ := m.typ, hops := m.hops - 1, tomgr := m.tomgr, origin := m.origin, term := m.term, seq := m.seq, ports := out, payload := m.payload.take m.len }

/-- A domain message arrives (R355 to R357): one that fails on format is counted, with event 362; one of another domain, repeated, or of the
device's own is discarded; an accepted one is relayed and, if it is of type `typ`, goes to `k`. -/
def Dev.domRx (d : Dev) (typ : Nat) (m : DomRx) (k : Dev → Dev) : Dev :=
  if ! d.fabEn ∨ ! d.domainLinks.contains m.port then d
  else if ! domFormatOk m then (d.count (Ct.FAB_MSG_BAD_CNT 0) 1).raiseLimited Ev.FAB_MSG_BAD 0 unitDev (ms 1)
  else if m.typ ≠ typ ∨ m.domain ≠ d.fget F.FAB_CTL.DOMAIN [] ∨ m.origin = d.uid then d
  else if ! ((d.lastSeqOf m.origin).all fun x => seqAbove m.seq x.1) then d
  else
    let now := d.now
    let rest := d.fabric.lastSeq.filter fun (x : Nat × Nat × Nat) => x.1 != m.origin
    let d : Dev := { d with fabric := { d.fabric with lastSeq := rest ++ [(m.origin, m.seq, now)] } }
    k (d.relay m)

/-- The UID of the device in charge, as this device knows it. -/
def Dev.mgrUid (d : Dev) : Nat := (d.rget .FAB_MGR []).toNat

/-- A message from a claim of charge that stands against the one this device follows or makes (R363): the higher TERM, the lower UID on equal
TERM. -/
def Dev.claimStands (d : Dev) (m : DomRx) : Bool :=
  let t := d.fget F.FAB_STATUS.TERM []
  d.mgrUid == 0 || decide (t < m.term) || (m.term == t && decide (m.origin ≤ d.mgrUid))

/-- The claim that a message carries is followed (R363): a device in charge steps down with event 363. -/
def Dev.follow (d : Dev) (m : DomRx) : Dev :=
  let was := d.inCharge
  let d := (d.fset F.FAB_STATUS.TERM [] m.term).rset .FAB_MGR [] (BitVec.ofNat 64 m.origin)
  if was then
    let d := d.raise Ev.FAB_SPLIT 0 unitDev
    let d := (d.setFabState (if d.role = 2 then 5 else 2)).fabClear
    Dev.showExt { d with cyc := { d.cyc with change := none } }
  else d

/-- A message that only the device in charge sends arrives: it acts where its claim stands. -/
def Dev.fromManager (d : Dev) (m : DomRx) (k : Dev → Dev) : Dev := if d.claimStands m then k (d.follow m) else d

/-- HELLO_SEND (R358): a worker that is not refused and not in charge sends HELLO every 10 ms. -/
def Dev.helloSend (d : Dev) : Dev :=
  if ! d.fabEn ∨ d.role ≠ 1 ∨ d.inCharge ∨ d.fabState = 6 ∨ ! (d.fabric.lastHello.all fun t => d.since t (ms 10)) then d
  else
    let d := d.domSend 1 true d.helloPayload
    let now := d.now
    { d with fabric := { d.fabric with lastHello := some now } }

/-- HELLO reaches the device in charge (R358, R362). -/
def Dev.helloRx (d : Dev) (m : DomRx) : Dev :=
  if ! d.inCharge then d
  else
    let now := d.now
    let b := fun i => (m.payload.getD i 0).toNat
    let known := d.fabric.members.any fun (x : Member) => x.uid == m.origin
    let d : Dev := if known ∨ d.fabric.waitingUids.contains m.origin then d
      else { d with fabric := { d.fabric with waitingUids := d.fabric.waitingUids ++ [m.origin] } }
    let d := d.assignNumbers
    let d : Dev := { d with fabric := { d.fabric with members := d.fabric.members.map fun (x : Member) =>
      if x.uid = m.origin then { x with lastHello := now, pri := b 1 } else x } }
    match findFirst (fun (x : Member) => x.uid == m.origin) d.fabric.members with
    | some x => (d.showMember x (b 0 % 2) (b 2 % 2) (15 - m.hops)).showDeputy
    | none => d

/-- A worker whose HELLO is missing for 50 ms is removed, and its number released (R358). -/
def Dev.memberTimeout (d : Dev) (n : Nat) : Dev :=
  match findFirst (fun (x : Member) => x.num == n && x.uid != d.uid) d.fabric.members with
  | none => d
  | some x =>
    if ! d.inCharge ∨ ! d.since x.lastHello (ms 50) then d
    else
      let now := d.now
      let d : Dev := { d with fabric := { d.fabric with members := d.fabric.members.filter fun (y : Member) => y.num != n,
                                                        released := d.fabric.released ++ [(n, now)], rosterDue := true,
                                                        shedSent := mset 0 d.fabric.shedSent n 0 } }
      let d := (d.rset .FAB_MEMBER [n] 0).rset .FAB_MEMBER_UID [n] 0
      ((d.setSize d.memberNums.length).raise Ev.FAB_MEMBER n unitDev).showDeputy

/-- One second after its release a number may be assigned again (R358). -/
def Dev.numberRelease (d : Dev) (n : Nat) : Dev :=
  if ! d.fabric.released.any fun (x : Nat × Nat) => x.1 == n && d.since x.2 (sec 1) then d
  else Dev.assignNumbers { d with fabric := { d.fabric with released := d.fabric.released.filter fun (x : Nat × Nat) => x.1 != n } }

/-- ROSTER_SEND (R358): on a change, and otherwise every 100 ms. -/
def Dev.rosterTick (d : Dev) : Dev :=
  if d.fabEn && d.inCharge && (d.fabric.rosterDue || d.since d.fabric.lastRoster (ms 100)) then d.rosterSend else d

/-- The entries of a ROSTER message: UID, number, flags (R354). -/
def rosterEntries (payload : List Byte) : List (Nat × Nat × Nat) :=
  (List.range (beNat (slice payload 2 2))).map fun i =>
    let e := slice payload (8 + 12 * i) 12
    (beNat (slice e 0 8), beNat (slice e 8 1), beNat (slice e 9 1))

/-- A device that is not in charge keeps the members that ROSTERs name, for the case that it takes charge. -/
def Dev.keepRoster (d : Dev) (start : Nat) (l : List (Nat × Nat × Nat)) : Dev :=
  let old := if start = 0 then [] else d.fabric.members
  let new : List Member := l.map fun e => { uid := e.1, num := e.2.1, lastHello := d.now, pri := 0, flags := e.2.2 }
  { d with fabric := { d.fabric with members := (old.filter fun (m : Member) => ! new.any fun (x : Member) => x.uid == m.uid) ++ new } }

/-- A worker's membership begins or ends, with event 353. -/
def Dev.joinAs (d : Dev) (n : Nat) : Dev :=
  let was := d.fabState == 2 && d.myNum == n
  if was then d
  else
    let now := d.now
    let d : Dev := { d with fabric := { d.fabric with lastCycleRx := some (d.fabric.lastCycleRx.getD now) } }
    ((d.fset F.FAB_STATUS.MYNUM [] n).setFabState 2).raise Ev.FAB_MEMBER n unitDev

/-- A member that a whole ROSTER no longer names is one no more (R358, R366). -/
def Dev.dropOut (d : Dev) : Dev :=
  let me := d.myNum
  let shed := d.fabric.shedMask
  let d := (d.fsets [(F.FAB_STATUS.MYNUM, 0), (F.FAB_STATUS.DEPUTY, 0)] []).setFabState 1
  let d := (Dev.fset { d with fabric := { d.fabric with shedMask := 0 } } F.PWR_STATUS.FORCED_FIXED [] 0).raise Ev.FAB_MEMBER me unitDev
  if shed = 0 then d else d.raise Ev.FAB_SHED me unitDev

/-- A whole ROSTER that does not name this worker has been seen (R358). -/
def Dev.rosterMissed (d : Dev) (total : Nat) : Dev :=
  if d.fabState = 2 then d.dropOut
  else if d.fabState ≠ 1 ∨ total ≠ 256 then d
  else
    let n := d.fabric.rosterMiss + 1
    let d : Dev := { d with fabric := { d.fabric with rosterMiss := n } }
    if n < 3 then d else (d.setFabState 6).raise Ev.FAB_REFUSED 0 unitDev

/-- ROSTER reaches a device that is not in charge (R358, R362, R344). -/
def Dev.rosterRx (d : Dev) (m : DomRx) : Dev :=
  let start := beNat (slice m.payload 0 2)
  let count := beNat (slice m.payload 2 2)
  let total := beNat (slice m.payload 4 2)
  let deputy := beNat (slice m.payload 6 1)
  let l := rosterEntries m.payload
  let d := d.keepRoster start l
  let seen := (start != 0 && d.fabric.rosterNamed) || l.any fun e => e.1 == d.uid
  let d : Dev := { d with fabric := { d.fabric with rosterNamed := seen } }
  let d := d.fset F.FAB_STATUS.MEMBERS [] total
  if d.role ≠ 1 then d
  else
    let d := match findFirst (fun (e : Nat × Nat × Nat) => e.1 == d.uid) l with
      | some e => if d.fabState = 6 then d else Dev.joinAs { d with fabric := { d.fabric with rosterMiss := 0 } } e.2.1
      | none => d
    let d := if start + count < total ∨ seen then d else d.rosterMissed total
    let member := d.fabState == 2
    let d := d.fset F.PWR_STATUS.FORCED_FIXED [] (if member ∧ 8 < total then 1 else 0)
    d.fset F.FAB_STATUS.DEPUTY [] (if member ∧ deputy ≠ 0 ∧ deputy = d.myNum then 1 else 0)

/-- The own grid's time, in 2^-32 ns, of boundary number n (R39). -/
def Dev.gridTime (d : Dev) (n : Nat) : Int :=
  let k : Int := ((n + 2 ^ 48 - d.cyc.gnum) % 2 ^ 48 : Nat)
  let k := if k < 2 ^ 47 then k else k - 2 ^ 48
  (d.cyc.gbase : Int) + k * d.cyc.per

/-- A base that a CYCLE carries is adopted: as the anchor of a unit in WAIT_START, and with a realignment where it lies more than 1 ns off the
own grid (R39, R360). -/
def Dev.adoptBase (d : Dev) (b n : Nat) : Dev :=
  let put := fun (d : Dev) => { d with cyc := { d.cyc with gbase := b, gnum := n } }
  if d.cycState = 1 then
    let d : Dev := put { d with cyc := { d.cyc with base := b, num := n } }
    let g := d.gridAfter (max b ((d.fab + us 1) * 65536))
    { d with cyc := { d.cyc with startAt := some g.1, startNum := g.2 } }
  else if d.cycState = 2 ∧ (65536 * 65536 < (b : Int) - d.gridTime n ∨ 65536 * 65536 < d.gridTime n - b) then put (d.realignOn b n)
  else d

/-- CYCLE reaches a device that is not in charge (R38, R360, R357): the values are kept and take effect at EFF_NUM; one that names a boundary
already passed is applied at the next one, counted, with event 357, unless it changes nothing or comes from CYCLE_IN. -/
def Dev.cycleRx (d : Dev) (m : DomRx) : Dev :=
  let x := m.payload
  let bSec := beNat (slice x 0 6)
  let bNs := beNat (slice x 6 4)
  let bFrac := beNat (slice x 10 2)
  let n := beNat (slice x 12 6)
  let pNs := beNat (slice x 18 4)
  let pFrac := beNat (slice x 22 2)
  let stretch := beNat (slice x 24 2)
  let eff := beNat (slice x 26 6)
  let src := beNat (slice x 32 1)
  let base := (sec bSec + ns bNs + bFrac) * 65536
  let now := d.now
  let up := d.fget F.FAB_STATUS.UPPORT []
  let d : Dev := { d with fabric := { d.fabric with lastCycleRx := some now, silent := false } }
  let d := d.fset F.FAB_STATUS.UPPORT [] m.port
  let d := if up = m.port then d else d.showExt
  if d.role = 1 ∧ d.cycSrc ≠ 1 then d
  else
    let old := d.rget .CYC_PERIOD []
    let d := d.fsets [(F.CYC_PERIOD.NS, pNs), (F.CYC_PERIOD.FRAC, pFrac), (F.CYC_PERIOD.STRETCH, stretch)] []
    let d := (d.fset F.CYC_ANCHOR_SEC.SEC [] bSec).fsets [(F.CYC_ANCHOR_NSF.NS, bNs), (F.CYC_ANCHOR_NSF.FRAC, bFrac)] []
    let w := d.rget .CYC_PERIOD []
    let period := periodOf w
    if d.cycState = 0 then d
    else if d.cycState = 1 then (d.setPeriod period stretch).adoptBase base n
    else
      let d := d.adoptBase base n
      let passed := cycReached d.cyc.num eff
      let same := w == old && d.cyc.change.isNone
      if same then d
      else
        let d : Dev := { d with cyc := { d.cyc with change := some { eff := eff, period := period, stretch := stretch } } }
        if passed ∧ src ≠ 2 then (d.count (Ct.FAB_LATE_CNT 0) 1).raise Ev.FAB_LATE 0 unitDev else d

/-- An epoch is armed in a slot (R361). -/
def Dev.armEpoch (d : Dev) (e : Epoch) : Dev :=
  let d : Dev := { d with cyc := { d.cyc with epochs := d.cyc.epochs ++ [e] } }
  (d.fsets [(F.FAB_EPOCH_PHASE.ID, e.id), (F.FAB_EPOCH_PHASE.PENDING, d.cyc.epochs.length)] []).raise Ev.FAB_EPOCH 0 unitDev

/-- FAB_EPOCH_CMD.GO is written 1 (R361). -/
def Dev.epochIssue (d : Dev) (cycle : Nat) : Dev :=
  let d := d.fsets [(F.FAB_EPOCH_CMD.GO, 0), (F.FAB_EPOCH_CMD.CYCLE, cycle)] []
  let ph := d.fget F.FAB_EPOCH_PHASE.PHASE []
  let groups := d.rget .FAB_EPOCH_GROUPS []
  let near := ! d.phaseValid || d.phaseReached cycle ph || decide (d.phaseTime cycle ph < d.fab + us (atLeast1 (d.fget F.FAB_CTL.LEAD [])))
  if ! d.inCharge ∨ 8 ≤ d.cyc.epochs.length ∨ near then (d.fset F.FAB_EPOCH_CMD.RESULT [] 2).raiseSev Ev.FAB_EPOCH 2 (evArg Ev.FAB_EPOCH 0) unitDev
  else
    let id := d.fabric.nextEpoch % 65536
    let d : Dev := { d with fabric := { d.fabric with nextEpoch := id + 1 } }
    let d := d.armEpoch { id := id, groups := groups, cyc := cycle, phase := ph }
    let d := d.domSend 4 false (beBytes 2 id ++ beBytes 2 0 ++ beBytes 8 groups.toNat ++ beBytes 6 cycle ++ beBytes 2 0 ++ beBytes 4 ph)
    d.fset F.FAB_EPOCH_CMD.RESULT [] 1

/-- EPOCH reaches a member (R361). -/
def Dev.epochRx (d : Dev) (m : DomRx) : Dev :=
  let e : Epoch := { id := beNat (slice m.payload 0 2), groups := BitVec.ofNat 64 (beNat (slice m.payload 4 8)), cyc := beNat (slice m.payload 12 6),
                     phase := beNat (slice m.payload 20 4) }
  if d.phaseReached e.cyc e.phase then ((d.fireEpoch e).count (Ct.FAB_LATE_CNT 0) 1).raise Ev.FAB_LATE 0 unitDev
  else if 8 ≤ d.cyc.epochs.length then d.raiseSev Ev.FAB_EPOCH 2 (evArg Ev.FAB_EPOCH 0) unitDev
  else d.armEpoch e

/-- PACE reaches the device in charge (R364, R365). -/
def Dev.paceRx (d : Dev) (m : DomRx) : Dev :=
  match findFirst (fun (x : Member) => x.uid == m.origin) d.fabric.members with
  | none => d
  | some x =>
    if ! d.inCharge then d
    else
      let v := beNat (slice m.payload 0 2)
      let old := d.fget F.FAB_MEMBER.DEFICIT [x.num]
      let d := d.fsets [(F.FAB_MEMBER.DEFICIT, v), (F.FAB_MEMBER.CUR_OP, beNat (slice m.payload 2 1)), (F.FAB_MEMBER.ACK, beNat (slice m.payload 10 2)),
                        (F.FAB_MEMBER.SHED, beNat (slice m.payload 12 2)), (F.FAB_MEMBER.HOPS, 15 - m.hops)] [x.num]
      let d := if farApart v old then d.raise Ev.FAB_PACE x.num unitDev else d
      d.pacePolicy false

/-- SHED reaches a member (R366). -/
def Dev.shedRx (d : Dev) (m : DomRx) : Dev :=
  let target := beNat (slice m.payload 0 8)
  let mask := beNat (slice m.payload 8 2)
  if target ≠ d.uid ∨ d.fabState ≠ 2 then d
  else
    let old := d.fabric.shedMask
    let d : Dev := { d with fabric := { d.fabric with shedMask := mask } }
    if (old = 0) = (mask = 0) then d else d.raise Ev.FAB_SHED d.myNum unitDev

/-- A device takes charge (R359, R362, R363): it becomes the one that the members follow, and sends TAKEOVER, ROSTER and CYCLE. -/
def Dev.takeCharge (d : Dev) (state : Nat) : Dev :=
  let old := d.mgrUid
  let d := d.fset F.FAB_STATUS.TERM [] ((d.fget F.FAB_STATUS.TERM [] + 1) % 65536)
  let d := (d.setFabState state).rset .FAB_MGR [] d.fuses.uid
  let now := d.now
  let keep := (d.fabric.members.filter fun (m : Member) => m.uid != old && m.uid != d.uid).map fun (m : Member) => { m with lastHello := now }
  let d := (if state = 3 then d.fset F.FAB_STATUS.MYNUM [] 0 else d).fabClear
  let d : Dev := { d with fabric := { d.fabric with members := keep } }
  let d := keep.foldl (fun (d : Dev) m => d.showMember m (m.flags % 2) (m.flags / 2 % 2) 0) d
  let d := d.enterSelf.showExt
  let d := d.domSend 7 false (beBytes 8 old)
  d.rosterSend

/-- The manager is silent toward this device (R362): the deputy takes charge; any other member raises event 356 and runs on. -/
def Dev.managerSilent (d : Dev) : Dev :=
  let span := max (ms 10) (3 * d.cyc.per / 65536)
  if ! d.fabEn ∨ d.fabState ≠ 2 ∨ ! (d.fabric.lastCycleRx.any fun t => d.since t span) then d
  else if d.fbit F.FAB_STATUS.DEPUTY [] then
    let d := ((d.takeCharge 4).sourceLost 5).cycleSend
    (d.fset F.FAB_STATUS.DEPUTY [] 0).raise Ev.FAB_TAKEOVER (d.fget F.FAB_STATUS.TERM []) unitDev
  else if d.fabric.silent then d
  else Dev.raise { d with fabric := { d.fabric with silent := true } } Ev.FAB_MGR_SILENT 0 unitDev

/-- FAB_CMD.RECLAIM is written 1 (R363): a strapped manager in STANDBY_MGR takes charge again; its base takes effect at the EFF_NUM of its first
CYCLE. -/
def Dev.reclaim (d : Dev) : Dev :=
  if ! d.fabEn ∨ d.fabState ≠ 5 then d
  else
    let d := d.takeCharge 3
    let w := d.rget .CYC_PERIOD []
    let d : Dev := { d with fabric := { d.fabric with sharedPeriod := w } }
    if d.cycSrc = 2 then d.cycleSend else d.announce (periodOf w) (d.fget F.CYC_PERIOD.STRETCH [])

/-- FAB_CMD.REJOIN is written 1 (R358). -/
def Dev.rejoin (d : Dev) : Dev :=
  if d.fabState ≠ 6 then d else Dev.setFabState { d with fabric := { d.fabric with rosterMiss := 0, lastHello := none } } 1

/-- The last SEQ of an origin silent for 100 ms is forgotten (R356). -/
def Dev.forget (d : Dev) (o : Nat) : Dev :=
  { d with fabric := { d.fabric with lastSeq := d.fabric.lastSeq.filter fun (x : Nat × Nat × Nat) => x.1 != o || ! d.since x.2.2 (ms 100) } }

/-- PACE_INTERVAL (R364): a member that has not reported for 100 ms sends PACE. -/
def Dev.paceInterval (d : Dev) : Dev :=
  if d.fabEn && d.fabState == 2 && d.since d.fabric.lastPace (ms 100) then d.paceSend else d

/-! Stack mode. -/

/-- The device runs stack mode (R352, R367). -/
def Dev.stkOn (d : Dev) : Bool := d.role == 3 && d.fbit F.FAB_STK.EN []

/-- The stack ports that are UP. -/
def Dev.stkPorts (d : Dev) : List Nat := d.portList.filter fun p => d.stackPort p && d.portUp p

/-- The device itself as the election sees it. -/
def Dev.stkSelf (d : Dev) : StkDev := { uid := d.uid, pri := d.fget F.FAB_STK.PRI [], num := d.fabric.stkMe, lastSeen := d.now }

/-- The stack master: the highest PRI, the lowest UID on a tie (R369). -/
def Dev.stkMaster (d : Dev) : StkDev :=
  d.fabric.stk.foldl (fun (b : StkDev) (x : StkDev) => if b.pri < x.pri ∨ (b.pri = x.pri ∧ x.uid < b.uid) then x else b) d.stkSelf

/-- The numbers claimed by the devices present, the own one included. -/
def Dev.stkClaims (d : Dev) : List Nat := (d.stkSelf :: d.fabric.stk).filterMap fun (x : StkDev) => x.num

/-- What the registers show of the election (R369): event 364 where master or membership changes. -/
def Dev.showStk (d : Dev) : Dev :=
  let m := d.stkMaster
  let mask := d.stkClaims.foldl (fun a n => a ||| 2 ^ n) 0
  let mine := m.uid == d.uid
  let st := if d.fget F.FAB_STK.STATE [] = 4 then 4 else if ! d.since d.fabric.stkSince (ms 30) then 1 else if d.fabric.stkMe.isNone then 1 else if mine then 3 else 2
  let num := m.num.getD 0
  let old := d.rget .FAB_STK []
  let d := d.fsets [(F.FAB_STK.STATE, st), (F.FAB_STK.MASTER, num), (F.FAB_STK.MEMBERS, mask), (F.FAB_STK.MYNUM, d.fabric.stkMe.getD 0)] []
  if d.rget .FAB_STK [] = old then d else d.raise Ev.STK_STATE 0 unitDev

/-- The device takes a stack number, once the devices present have been heard: the lowest that none of them claims; a fifth device is refused
(R369). -/
def Dev.stkNumber (d : Dev) : Dev :=
  if d.fabric.stkMe.isSome ∨ ! d.since d.fabric.stkSince (ms 30) ∨ d.fget F.FAB_STK.STATE [] = 4 then d
  else match findFirst (fun n => ! d.stkClaims.contains n) [0, 1, 2, 3] with
    | some n => if d.stkMaster.uid = d.uid ∨ d.stkMaster.num.isSome then { d with fabric := { d.fabric with stkMe := some n } } else d
    | none => (d.fset F.FAB_STK.STATE [] 4).raise Ev.STK_REFUSED 0 unitDev

/-- FAB_STK.EN is written (R352, R369): ignored unless the strap says stack. -/
def Dev.stkEnable (d : Dev) (on : Bool) : Dev :=
  if d.role ≠ 3 then d.fset F.FAB_STK.EN [] 0
  else if on then
    if d.fget F.FAB_STK.STATE [] ≠ 0 then d
    else
      let now := d.now
      (Dev.fset { d with fabric := { d.fabric with stk := [], stkMe := none, stkSince := now, lastStk := none } } F.FAB_STK.STATE [] 1).raise Ev.STK_STATE 0 unitDev
  else
    let d : Dev := { d with fabric := { d.fabric with stk := [], stkMe := none } }
    d.fsets [(F.FAB_STK.STATE, 0), (F.FAB_STK.MASTER, 0), (F.FAB_STK.MEMBERS, 0), (F.FAB_STK.MYNUM, 0)] []

/-- STACK_CONTROL_SEND (R369): a control frame on each stack port every 10 ms. -/
def Dev.stkSend (d : Dev) : Dev :=
  if ! d.stkOn ∨ ! (d.fabric.lastStk.all fun t => d.since t (ms 10)) then d
  else
    let d := d.stkNumber.showStk
    let me := d.fabric.stkMe
    let h := [0x21, BitVec.ofNat 8 (me.getD 0 * 64)] ++ beBytes 12 0
    let hdr := h ++ beBytes 2 (crc16 0xFFFF h)
    let body := beBytes 8 d.uid ++ beBytes 1 (d.fget F.FAB_STK.PRI []) ++ beBytes 1 (me.getD 0xFF) ++ beBytes 1 (d.fget F.FAB_STK.MEMBERS []) ++ beBytes 5 0
    let now := d.now
    let m : DomMsg := { typ := 0, hops := 0, tomgr := false, origin := d.uid, term := 0, seq := 0, ports := d.stkPorts, payload := body }
    let d : Dev := { d with fabric := { d.fabric with lastStk := some now, sent := m :: d.fabric.sent } }
    d.stkPorts.foldl (fun (d : Dev) p =>
      let i := d.buf.nextCopy
      (d.originate p d.domainQueue body).copyMod i fun (c : Copy) => { c with stk := hdr }) d

/-- A control frame arrives on stack port p (R369): `num` is the number claimed, 255 for none. -/
def Dev.stkRx (d : Dev) (p uid pri num : Nat) : Dev :=
  if ! d.stkOn ∨ ! d.stackPort p ∨ uid = d.uid then d
  else
    let x : StkDev := { uid := uid, pri := pri, num := if num < 4 then some num else none, lastSeen := d.now }
    let known := d.fabric.stk.any fun (y : StkDev) => y.uid == uid
    let l := if known then d.fabric.stk.map fun (y : StkDev) => if y.uid = uid then x else y else d.fabric.stk ++ [x]
    let d : Dev := { d with fabric := { d.fabric with stk := l } }
    let me := d.stkSelf
    let loses := x.num.isSome && x.num == me.num && (decide (me.pri < x.pri) || (me.pri == x.pri && decide (x.uid < me.uid)))
    let d : Dev := if loses then { d with fabric := { d.fabric with stkMe := none } } else d
    d.stkNumber.showStk

/-- A device that has sent no control frame for 30 ms is removed (R369). -/
def Dev.stkTimeout (d : Dev) (uid : Nat) : Dev :=
  if ! d.stkOn ∨ ! (d.fabric.stk.any fun (x : StkDev) => x.uid == uid && d.since x.lastSeen (ms 30)) then d
  else Dev.showStk { d with fabric := { d.fabric with stk := d.fabric.stk.filter fun (x : StkDev) => x.uid != uid } }

end Sys2Proof.Machine
end

