-- ==== Sys2Proof/Machine/Run.lean ====
section
/-! DEFINITION. How a meaning answers: a change of the device becomes a next state. What only certain commands can reach is given
back by the runner itself: no command changes the queue; only a fuse command changes the fuses (R124, R129); and only the commands
that reach table memory (chapter 08, register writes and sequencer stores, image loads, patches, repairs and power) change the
exact-match memory. -/

namespace Sys2Proof.Machine

/-- What a command answers. -/
abbrev Out := Host.Outcome State Fault Refusal

/-- A command that reaches neither the fuses nor the exact-match memory. -/
def State.run (s : State) (f : Dev → Dev) : Out :=
  .next { s with dev := { f s.dev with fuses := s.dev.fuses, tmem := s.dev.tmem } }

/-- A command that may write the exact-match memory and does not reach the fuses. -/
def State.runTables (s : State) (f : Dev → Dev) : Out :=
  .next { s with dev := { f s.dev with fuses := s.dev.fuses } }

/-- A command that may blow fuses and does not reach the exact-match memory. -/
def State.runFuses (s : State) (f : Dev → Dev) : Out :=
  .next { s with dev := { f s.dev with tmem := s.dev.tmem } }

end Sys2Proof.Machine
end

