-- ==== Sys2Proof/Machine/FabCmds.lean ====
section
/-! DEFINITION. The commands of fabric domains and stack mode (rows 275 to 294 and 314). -/

namespace Sys2Proof.Machine

set_option cleanup.letToHave false

/-- A command of the domain engine, in timing unit 1, at instant t. -/
def Dev.fab' (d : Dev) (t : Nat) (f : Dev → Dev) : Dev := let d := d.advanceTo t; if d.up then f d else d

/-- FAB_ENABLE (R353): FAB_CTL.EN is written 1. -/
def execFabEnable (t : Nat) (s : State) : Out := s.run fun d => d.fab' t fun d => d.fabEnable

/-- HELLO_SEND (R358). -/
def execHelloSend (t : Nat) (s : State) : Out := s.run fun d => d.fab' t fun d => d.helloSend

/-- HELLO_RX (R355 to R358). -/
def execHelloRx (t : Nat) (m : DomRx) (s : State) : Out := s.run fun d => d.fab' t fun d => d.domRx 1 m fun d => d.helloRx m

/-- MEMBER_TIMEOUT (R358). -/
def execMemberTimeout (t n : Nat) (s : State) : Out := s.run fun d => d.fab' t fun d => d.memberTimeout n

/-- NUMBER_RELEASE (R358). -/
def execNumberRelease (t n : Nat) (s : State) : Out := s.run fun d => d.fab' t fun d => d.numberRelease n

/-- ROSTER_SEND (R358). -/
def execRosterSend (t : Nat) (s : State) : Out := s.run fun d => d.fab' t fun d => d.rosterTick

/-- ROSTER_RX (R355 to R358, R363). -/
def execRosterRx (t : Nat) (m : DomRx) (s : State) : Out :=
  s.run fun d => d.fab' t fun d => d.domRx 2 m fun d => d.fromManager m fun d => d.rosterRx m

/-- CYCLE_MSG_RX (R355 to R357, R360, R363). -/
def execCycleMsgRx (t : Nat) (m : DomRx) (s : State) : Out :=
  s.run fun d => d.fab' t fun d => d.domRx 3 m fun d => d.fromManager m fun d => d.cycleRx m

/-- EPOCH_ISSUE (R361): FAB_EPOCH_CMD is written with GO = 1 and CYCLE. -/
def execEpochIssue (t cycle : Nat) (s : State) : Out := s.run fun d => d.fab' t fun d => if d.role = 0 then d else d.epochIssue (cycle % 2 ^ 48)

/-- EPOCH_RX (R355 to R357, R361). -/
def execEpochRx (t : Nat) (m : DomRx) (s : State) : Out :=
  s.run fun d => d.fab' t fun d => d.domRx 4 m fun d => d.fromManager m fun d => d.epochRx m

/-- PACE_RX (R355 to R357, R364, R365). -/
def execPaceRx (t : Nat) (m : DomRx) (s : State) : Out := s.run fun d => d.fab' t fun d => d.domRx 5 m fun d => d.paceRx m

/-- SHED_RX (R355 to R357, R366). -/
def execShedRx (t : Nat) (m : DomRx) (s : State) : Out :=
  s.run fun d => d.fab' t fun d => d.domRx 6 m fun d => d.fromManager m fun d => d.shedRx m

/-- MANAGER_SILENT (R362). -/
def execManagerSilent (t : Nat) (s : State) : Out := s.run fun d => d.fab' t fun d => d.managerSilent

/-- TAKEOVER_RX (R355 to R357, R363). -/
def execTakeoverRx (t : Nat) (m : DomRx) (s : State) : Out := s.run fun d => d.fab' t fun d => d.domRx 7 m fun d => d.fromManager m id

/-- ORIGIN_FORGET (R356). -/
def execOriginForget (t o : Nat) (s : State) : Out := s.run fun d => d.fab' t fun d => d.forget o

/-- FAB_RECLAIM (R363). -/
def execFabReclaim (t : Nat) (s : State) : Out := s.run fun d => d.fab' t fun d => d.reclaim

/-- FAB_REJOIN (R358). -/
def execFabRejoin (t : Nat) (s : State) : Out := s.run fun d => d.fab' t fun d => d.rejoin

/-- STACK_CONTROL_SEND (R369). -/
def execStackControlSend (t : Nat) (s : State) : Out := s.run fun d => d.fab' t fun d => d.stkSend

/-- STACK_CONTROL_RX (R369). -/
def execStackControlRx (t p uid pri num : Nat) (s : State) : Out := s.run fun d => d.fab' t fun d => d.stkRx p uid pri num

/-- STACK_MEMBER_TIMEOUT (R369). -/
def execStackMemberTimeout (t uid : Nat) (s : State) : Out := s.run fun d => d.fab' t fun d => d.stkTimeout uid

/-- PACE_INTERVAL (R364). -/
def execPaceInterval (t : Nat) (s : State) : Out := s.run fun d => d.fab' t fun d => d.paceInterval

end Sys2Proof.Machine
end

