-- ==== Sys2Proof/Machine/ParseCmds.lean ====
section
/-! DEFINITION. The commands of chapter 06: frames at the MAC, the parse words, the pattern scanner. -/

namespace Sys2Proof.Machine

set_option cleanup.letToHave false

/-- A change of the data path, which runs in Active (R332), at instant t. -/
def Dev.path (d : Dev) (t : Nat) (f : Dev → Dev) : Dev :=
  let d := d.advanceTo t
  if d.active then f d else d

/-- A change of the data path now. -/
def Dev.pathNow (d : Dev) (f : Dev → Dev) : Dev := if d.active then f d else d

/-- A codeword with a block of data ends the freeze of a port's lanes (R300). -/
def Dev.unfreeze (d : Dev) (p : Nat) : Dev :=
  let now := d.now
  let d := d.portMod p fun x => { x with lastRx := now }
  (d.portLaneList p).foldl (fun (d : Dev) n => d.fset F.LN_STATUS.FROZEN [n] 0) d

/-- FRAME_RECEIVE (R291): the first bytes of a frame at the MAC of port p, or with `fresh` false more bytes of the frame that arrives. -/
def execFrameReceive (t p : Nat) (fresh : Bool) (bytes : List Byte) (s : State) : Out :=
  s.run fun d => d.path t fun d =>
    if ! d.portUp p then d
    else if fresh then (if (d.arriving p).isSome then d else (d.unfreeze p).frameStart p bytes)
    else d.moreArrives p bytes

/-- FRAME_TAIL_ARRIVE (R141): the last bytes of the frame that arrives on port p; `err` 1 for a code error, 6 for a lost link. -/
def execFrameTailArrive (t p err : Nat) (bytes : List Byte) (s : State) : Out := s.run fun d => d.path t fun d => d.tailArrives p bytes err

/-- FRAME_BIND (R132). -/
def execFrameBind (f : Nat) (s : State) : Out := s.run fun d => d.pathNow fun d => Dev.afterBind d (d.frameBind f)

/-- EXT (R139); `ue` here and below: the read of the parse word finds an uncorrectable error (R137). -/
def execExt (f : Nat) (ue : Bool) (s : State) : Out := s.run fun d => d.pathNow fun d => d.parseStep f 1 ue parseExt

/-- EXTF (R139). -/
def execExtf (f : Nat) (ue : Bool) (s : State) : Out := s.run fun d => d.pathNow fun d => d.parseStep f 2 ue parseExtf

/-- ADV (R140). -/
def execAdv (f : Nat) (ue : Bool) (s : State) : Out := s.run fun d => d.pathNow fun d => d.parseStep f 3 ue parseAdv

/-- SEL (R140). -/
def execSel (f : Nat) (ue : Bool) (s : State) : Out := s.run fun d => d.pathNow fun d => d.parseStep f 4 ue parseSel

/-- CHK_LENGTH (R141). -/
def execChkLength (f : Nat) (ue : Bool) (s : State) : Out :=
  s.run fun d => d.pathNow fun d => d.parseStep f 5 ue fun x w nx => parseChk 0 w (parseChkLength x w nx)

/-- CHK_CSUM (R141). -/
def execChkCsum (f : Nat) (ue : Bool) (s : State) : Out :=
  s.run fun d => d.pathNow fun d => d.parseStep f 5 ue fun x w nx => parseChk 1 w (parseChkCsum x w nx)

/-- CHK_OPTION (R141). -/
def execChkOption (f : Nat) (ue : Bool) (s : State) : Out :=
  s.run fun d => d.pathNow fun d =>
    d.parseStep f 5 ue fun x w nx => parseChk 2 w (parseChkOption (d.portSlice x.port) x w nx)

/-- SCAN (R139). -/
def execScan (f : Nat) (ue : Bool) (s : State) : Out := s.run fun d => d.pathNow fun d => d.parseStep f 6 ue parseScan

/-- PARSE_WAIT_BYTES (R140). -/
def execParseWaitBytes (f : Nat) (ue : Bool) (s : State) : Out := s.run fun d => d.pathNow fun d => d.parseStep f 7 ue parseWaitBytes

/-- PARSE_WAIT_SCAN (R140). -/
def execParseWaitScan (f : Nat) (ue : Bool) (s : State) : Out := s.run fun d => d.pathNow fun d => d.parseStep f 7 ue parseWaitScan

/-- PARSE_SET (R139). -/
def execParseSet (f : Nat) (ue : Bool) (s : State) : Out := s.run fun d => d.pathNow fun d => d.parseStep f 8 ue parseSet

/-- PARSE_HASH (R139). -/
def execParseHash (f : Nat) (ue : Bool) (s : State) : Out := s.run fun d => d.pathNow fun d => d.parseStep f 9 ue parseHash

/-- END (R134). -/
def execEnd (f : Nat) (ue : Bool) (s : State) : Out := s.run fun d => d.pathNow fun d => d.parseStep f 10 ue fun x w _ => parseEnd x w

/-- PARSE_BUDGET_EXCEEDED (R133). -/
def execParseBudgetExceeded (f : Nat) (s : State) : Out :=
  s.run fun d => d.pathNow fun d =>
    match d.frame? f with
    | some x => if x.loc = .bound ∧ ¬ x.parse.ended ∧ x.parse.budget ≤ x.parse.slots then d.parseMalf (d.portSlice x.port) x 4 else d
    | none => d

/-- SCAN_COMPLETE (R144). -/
def execScanComplete (f : Nat) (s : State) : Out := s.run fun d => d.pathNow fun d => d.scanNow f

/-- HV_RELEASE (R134). -/
def execHvRelease (f : Nat) (s : State) : Out := s.run fun d => d.pathNow fun d => d.hvRelease f

/-- A pattern command of operation `op` in slice sl. -/
def Dev.patternOp (d : Dev) (sl op i : Nat) : Dev := if sl < 32 ∧ i < 4096 then d.patCmd sl op i else d

/-- PATTERN_WRITE (R145). -/
def execPatternWrite (sl i : Nat) (s : State) : Out := s.run fun d => d.sw fun d => d.patternOp sl 0 i

/-- PATTERN_READ (R145). -/
def execPatternRead (sl i : Nat) (s : State) : Out := s.run fun d => d.sw fun d => d.patternOp sl 1 i

/-- PATTERN_INVALIDATE (R145). -/
def execPatternInvalidate (sl i : Nat) (s : State) : Out := s.run fun d => d.sw fun d => d.patternOp sl 2 i

end Sys2Proof.Machine
end

