-- ==== Sys2Proof/Machine/BufCmds.lean ====
section
/-! DEFINITION. The commands of chapters 09 and 10: the shared buffer and spill memory. -/

namespace Sys2Proof.Machine

set_option cleanup.letToHave false

/-- ADMISSION (R204): the first cell of frame f reaches admission. -/
def execAdmission (f : Nat) (s : State) : Out := s.run fun d => d.pathNow fun d => d.admission f

/-- CELL_CHARGE (R205): the cell that crossed first is written at the free pointer `ptr`, or its frame is truncated. -/
def execCellCharge (ptr : Nat) (s : State) : Out := s.run fun d => d.pathNow fun d => d.cellCharge ptr

/-- CROSSBAR_MATCH (R213): one cell slot. -/
def execCrossbarMatch (s : State) : Out := s.run fun d => d.pathNow fun d => d.crossbar

/-- ENQUEUE (R209). -/
def execEnqueue (c : Nat) (s : State) : Out := s.run fun d => d.pathNow fun d => d.enqueue c

/-- CELL_RETURN (R198): the unit that frees is an egress slice 0–31, the auditor 32, or a spill controller 33–36. -/
def execCellReturn (ptr unit : Nat) (s : State) : Out :=
  s.run fun d => d.pathNow fun d => if cellPtrOk ptr then d.cellReturn ptr unit else d

/-- PFC_REPEAT (R207). -/
def execPfcRepeat (t p g : Nat) (s : State) : Out := s.run fun d => d.path t fun d => d.pfcRepeat p g

/-- PFC_FRAME_RX (R208): the priority-enable vector and the eight timers. -/
def execPfcFrameRx (t p mask : Nat) (timers : List Nat) (s : State) : Out :=
  s.run fun d => d.path t fun d => if d.portUp p then d.pfcRx p mask timers else d

/-- PFC_TIMER_EXPIRE (R208). -/
def execPfcTimerExpire (t p pri : Nat) (s : State) : Out := s.run fun d => d.path t fun d => if pri < 8 then d.pfcExpire p pri else d

/-- PAUSE_FRAME_RX (chapter 09, Priority flow control). -/
def execPauseFrameRx (t p : Nat) (s : State) : Out :=
  s.run fun d => d.path t fun d => if d.portUp p then d.count (Ct.BUF_PAUSE_RX_CNT p) 1 else d

/-- QUEUE_AGE_VISIT (R210). -/
def execQueueAgeVisit (t p q : Nat) (s : State) : Out := s.run fun d => d.path t fun d => if q < 20 then d.queueAge p q else d

/-- BUFFER_AUDIT_CHECK (R211). -/
def execBufferAuditCheck (t : Nat) (s : State) : Out := s.run fun d => d.path t fun d => d.auditCheck

/-- AUDIT_WALK_START (R211): WALK = 1 is written. -/
def execAuditWalkStart (s : State) : Out := s.run fun d => d.sw fun d => d.walkStart

/-- AUDIT_WALK_DONE (R212). -/
def execAuditWalkDone (t : Nat) (s : State) : Out := s.run fun d => d.path t fun d => d.walkDone

/-- BUF_HOLD_RELEASE (R202): HOLD of port p, or of the device with p = 1,024, is written 0. -/
def execBufHoldRelease (p : Nat) (s : State) : Out := s.run fun d => d.sw fun d => if p ≤ 1024 then d.holdRelease p else d

/-- SPILL_FRAME (R226): copy c is written to the pages that the device allocates for it. -/
def execSpillFrame (c : Nat) (pages : List Nat) (s : State) : Out := s.run fun d => d.pathNow fun d => d.spillFrame c pages

/-- SPILL_WRITE_DONE (R228): `perr` are the pages whose write reported a parity error, `pages` those that reissues take. -/
def execSpillWriteDone (c : Nat) (perr pages : List Nat) (s : State) : Out := s.run fun d => d.pathNow fun d => d.spillDone c perr pages

/-- RETURN_FRAME (R227). -/
def execReturnFrame (p q : Nat) (s : State) : Out := s.run fun d => d.pathNow fun d => if q < 16 then d.returnFrame p q else d

/-- RETURN_READ_DONE (R227): the free cells that take the frame, and what the reads found. -/
def execReturnReadDone (c : Nat) (ptrs ue corr : List Nat) (lost : Bool) (s : State) : Out :=
  s.run fun d => d.pathNow fun d => d.returnDone c ptrs ue corr lost

/-- REFRESH (R234): a bank set of stack k is refreshed. -/
def execRefresh (k b : Nat) (s : State) : Out := s.run fun d => d.pathNow fun d => if k < 4 then d.refresh k b else d

/-- SPILL_TRAIN_STEP (R237). -/
def execSpillTrainStep (t k c margin : Nat) (fails : Bool) (s : State) : Out :=
  s.run fun d => d.path t fun d => if k < 4 ∧ c < 32 then d.trainStep k c margin fails else d

/-- SR_ENTER (R238). -/
def execSrEnter (t k : Nat) (s : State) : Out := s.run fun d => d.path t fun d => d.srEnter k

/-- SR_ENTRY_DONE (R238). -/
def execSrEntryDone (t k : Nat) (s : State) : Out := s.run fun d => d.path t fun d => d.srEntered k

/-- SR_EXIT_REQUEST (R239): a request arrives, or with `off` SR_EN is written 0. -/
def execSrExitRequest (t k : Nat) (off : Bool) (s : State) : Out :=
  s.run fun d => d.path t fun d => if k < 4 then (if off then d.srDisable k else d.srRequest k) else d

/-- SR_EXIT_DONE (R238). -/
def execSrExitDone (t k : Nat) (s : State) : Out := s.run fun d => d.path t fun d => d.srExited k

/-- SR_LAT_CLEAR (R239). -/
def execSrLatClear (k : Nat) (s : State) : Out := s.run fun d => d.sw fun d => if k < 4 then d.fset F.SPL_SR_LAT.MAX [k] 0 else d

/-- SPILL_AUDIT_CHECK (R242). -/
def execSpillAuditCheck (t k : Nat) (s : State) : Out := s.run fun d => d.path t fun d => if k < 4 then d.pageCheck k else d

/-- SPILL_WALK_START (R242): WALK = 1 is written. -/
def execSpillWalkStart (k : Nat) (s : State) : Out := s.run fun d => d.sw fun d => if k < 4 then d.pageWalk k else d

/-- SPILL_WALK_DONE (R242). -/
def execSpillWalkDone (t k : Nat) (s : State) : Out := s.run fun d => d.path t fun d => d.pageWalkDone k

/-- PAGE_RETURN (R240). -/
def execPageReturn (page : Nat) (s : State) : Out := s.run fun d => d.pathNow fun d => d.pageReturn page

/-- PAGE_CACHE_REFILL (R240). -/
def execPageCacheRefill (k : Nat) (s : State) : Out := s.run fun d => d.pathNow fun d => if k < 4 then d.cacheRefill k else d

/-- SPL_Q_ENABLE (R229): EN of SPL_Q[p][q] is written 1; it is a quiesce field. -/
def execSplQEnable (p q : Nat) (s : State) : Out :=
  s.run fun d => d.sw fun d =>
    if 1024 ≤ p ∨ 16 ≤ q then d
    else if d.qAccepts .SPL_Q [p, q] then (d.fset F.SPL_Q.EN [p, q] 1).splQCheck p q
    else if d.fbit F.SPL_Q.EN [p, q] then d.splQCheck p q
    else d.qviol (RegName.addr .SPL_Q [p, q]) 0 0

/-- PSEUDO_CHANNEL_RETIRE (R243): SPL_RETIRE.GO is written for pseudo-channel c. -/
def execPseudoChannelRetire (k c : Nat) (s : State) : Out :=
  s.run fun d => d.sw fun d => if k < 4 ∧ c < 32 then (d.fset F.SPL_RETIRE.PC [k] c).retireAsk k c else d

/-- PC_READ_TIMEOUT (R243). -/
def execPcReadTimeout (t k c : Nat) (s : State) : Out := s.run fun d => d.path t fun d => if k < 4 ∧ c < 32 then d.readTimeout k c else d

/-- RETIREMENT_DONE (R244); `golden` as for retireDone. -/
def execRetirementDone (t k : Nat) (golden : Bool) (s : State) : Out := s.run fun d => d.path t fun d => d.retireDone k golden

/-- ROW_OPEN_TIME_EXPIRY (R233): the row that bank set b of stack k holds open is closed. -/
def execRowOpenTimeExpiry (k b : Nat) (s : State) : Out := s.run fun d => d.pathNow fun d => if k < 4 then d.rowClose k b else d

end Sys2Proof.Machine
end

