-- ==== Sys2Proof/Machine/TimeCmds.lean ====
section
/-! DEFINITION. The commands of chapter 02: fabric time, the DPLL, the cycle and the phase table. -/

namespace Sys2Proof.Machine

set_option cleanup.letToHave false

/-- A time-placed change while the timing units are powered: Standby and Active (R332). -/
def Dev.timed (d : Dev) (t : Nat) (f : Dev → Dev) : Dev :=
  let d := d.advanceTo t
  if d.up then f d else d

/-- A load of TIM_NOW_SEC (R26): SEC to the context's register, NS and FRAC of that instant latched for the context. -/
def Dev.loadNowSec (d : Dev) (sq c rd : Nat) : Dev :=
  d.ctxMod sq c fun x => { x with g := x.g.set rd (BitVec.ofNat 64 (tSec d.fab)),
                                  nsf := BitVec.ofNat 64 (tNs d.fab * 65536 + tFrac d.fab) }

/-- A load of CYC_NOW_NUM (R26): the number to the context's register, phase and its validity latched for the context. -/
def Dev.loadNowNum (d : Dev) (sq c rd : Nat) : Dev :=
  let ph := if d.phaseValid then d.phase else 2 ^ 32
  d.ctxMod sq c fun x => { x with g := x.g.set rd (BitVec.ofNat 64 d.cycNum), phase := BitVec.ofNat 64 ph }

/-- READ_TIM_NOW_SEC (R26). -/
def execReadTimNowSec (sq c rd : Nat) (s : State) : Out := s.run fun d => d.sw fun d => d.loadNowSec sq c rd

/-- READ_CYC_NOW_NUM (R26). -/
def execReadCycNowNum (sq c rd : Nat) (s : State) : Out := s.run fun d => d.sw fun d => d.loadNowNum sq c rd

/-- SERVO_DISABLE (R31). -/
def execServoDisable (s : State) : Out := s.run fun d => d.sw fun d => d.servoDisable

/-- SOURCE_QUALIFIES (R30): a source of this kind has been continuously available for 10 s. -/
def execSourceQualifies (t kind : Nat) (s : State) : Out := s.run fun d => d.timed t fun d => d.sourceQualifies kind

/-- WAIT_TO_RESTORE_EXPIRY (R30). -/
def execWaitToRestoreExpiry (t : Nat) (s : State) : Out := s.run fun d => d.timed t fun d => d.waitToRestore

/-- SOURCE_LOST (R30, R31). -/
def execSourceLost (t kind : Nat) (s : State) : Out := s.run fun d => d.timed t fun d => d.sourceLost kind

/-- PPS_IN_EDGE (R29): an integer second of fabric time for the servo, where the phase list selects PPS. -/
def execPpsInEdge (t : Nat) (s : State) : Out :=
  s.run fun d => d.timed t fun d =>
    let i := d.fget F.TIM_STATUS.PSEL []
    if i < 4 ∧ d.phaseEntry i = 4 then d.measured d.secondOffset else d

/-- DPLL_LOCK (R31): 10 s in ACQUIRE within the limits, with the frequency correction `adj` that the loop has reached. -/
def execDpllLock (t adj : Nat) (s : State) : Out :=
  s.run fun d => d.timed t fun d =>
    let off := sext 32 (d.fget F.TIM_STATUS.OFFSET [])
    if d.fget F.TIM_STATUS.DPLL_STATE [] = 1 ∧ d.since d.tim.dpllSince (sec 10) ∧
        (d.fget F.TIM_STATUS.PSEL [] = 7 ∨ off.natAbs < 25600) then
      (d.fset F.TIM_FREQ.ADJ [] adj).setDpll 2
    else d

/-- DPLL_OFFSET_LOSS (R31). -/
def execDpllOffsetLoss (t : Nat) (s : State) : Out :=
  s.run fun d => d.timed t fun d =>
    if d.fget F.TIM_STATUS.DPLL_STATE [] = 2 ∧ (d.tim.offSince.any fun t0 => d.since t0 (sec 1)) then d.setDpll 1 else d

/-- HOLDOVER_HISTORY_VALID (R30): LOCKED for 60 s since the DPLL last left FREERUN. -/
def execHoldoverHistoryValid (t : Nat) (s : State) : Out :=
  s.run fun d => d.timed t fun d =>
    if d.fget F.TIM_STATUS.DPLL_STATE [] = 2 ∧ sec 60 ≤ d.tim.lockedTotal + (d.now - d.tim.dpllSince) then
      d.fset F.TIM_STATUS.HISTORY [] 1
    else d

/-- TIM_ADJ_GO (R32). -/
def execTimAdjGo (mode off : Nat) (s : State) : Out := s.run fun d => d.sw fun d => d.timAdjGo mode off

/-- SLEW_END (R32). -/
def execSlewEnd (t : Nat) (s : State) : Out :=
  s.run fun d => d.timed t fun d =>
    if d.tim.slew = some 0 then Dev.fset { d with tim := { d.tim with slew := none } } F.TIM_ADJ.GO [] 0 else d

/-- PTP_MESSAGE_RX (R28): a message directed to the engine; `best` is the state that the best master clock algorithm gives the port
on an Announce; answers go out on queue q. -/
def execPtpMessageRx (t p q best : Nat) (msg : List Byte) (s : State) : Out := s.run fun d => d.timed t fun d => d.ptpRx p q best msg

/-- PTP_MESSAGE_TX (R28): message kind 0 Sync, 1 Delay_Req, 2 Pdelay_Req or 11 Announce, on queue q. -/
def execPtpMessageTx (t p q kind : Nat) (s : State) : Out := s.run fun d => d.timed t fun d => d.ptpTx p q kind

/-- CALIBRATION_STEP (R35): in Precision, 4 ms after the slice's last step, the next lane's correction departs `dev` ps from its test
value. -/
def execCalibrationStep (t sl : Nat) (dev : Int) (s : State) : Out :=
  s.run fun d => d.timed t fun d =>
    if ! d.precision || ! ((mget? d.tim.calAt sl).all fun t0 => d.since t0 (ms 4)) then d
    else
      let lane := mget 0 d.tim.calLane sl
      let tim := { d.tim with calAt := mins d.tim.calAt sl d.now, calLane := mset 0 d.tim.calLane sl ((lane + 1) % 32) }
      if dev.natAbs ≤ 100 then
        Dev.fset { d with tim := { tim with calCorr := mset 0 tim.calCorr (sl * 32 + lane) dev } } F.TIM_STATUS.CALVALID [] 1
      else (Dev.fset { d with tim := tim } F.TIM_STATUS.CALVALID [] 0).raise Ev.TIM_CAL_RANGE 0 unitDev

/-- PPS_OUT_PULSE (R36): fabric time less PPS_COMP passes an integer second. -/
def execPpsOutPulse (t : Nat) (s : State) : Out :=
  s.run fun d => d.timed t fun d =>
    let n := (((d.fab : Int) - sext 24 (d.fget F.TIM_CTL.PPS_COMP []) * 256).toNat) / sec 1
    if d.fbit F.TIM_CTL.PPS_OUT_EN [] ∧ d.tim.ppsSec < n then
      { d with tim := { d.tim with ppsSec := n, ppsUntil := d.now + us (2 ^ min 18 (d.fget F.TIM_CTL.PPS_WIDTH [])) } }
    else d

/-- CYCLE_RUN (R41). -/
def execCycleRun (s : State) : Out := s.run fun d => d.sw fun d => d.cycleRun

/-- CYCLE_STOP (R41). -/
def execCycleStop (s : State) : Out := s.run fun d => d.sw fun d => d.cycleStop

/-- CYCLE_BOUNDARY (R39). -/
def execCycleBoundary (t : Nat) (s : State) : Out := s.run fun d => d.timed t fun d => d.cycleBoundary

/-- REALIGN (R43): in RUN. -/
def execRealign (s : State) : Out := s.run fun d => d.sw fun d => if d.cycState = 2 then d.realign else d

/-- CYCLE_IN_EDGE (R42). -/
def execCycleInEdge (t : Nat) (s : State) : Out := s.run fun d => d.timed t fun d => d.cycleInEdge

/-- CYCLE_IN_MISS (R42). -/
def execCycleInMiss (t : Nat) (s : State) : Out := s.run fun d => d.timed t fun d => d.cycleInMiss

/-- FLYWHEEL_BOUNDARY (R42). -/
def execFlywheelBoundary (t : Nat) (s : State) : Out := s.run fun d => d.timed t fun d => d.flywheel

/-- PHASE_ENTRY_FIRE (R45, R47): the tick at instant t. -/
def execPhaseEntryFire (t : Nat) (s : State) : Out := s.run fun d => d.timed t fun d => d.fireTick

/-- PHASE_TABLE_COMMIT (R48). -/
def execPhaseTableCommit (s : State) : Out := s.run fun d => d.sw fun d => d.ptCommit

/-- PHASE_TABLE_CHECK_DONE (R48). -/
def execPhaseTableCheckDone (t : Nat) (s : State) : Out := s.run fun d => d.timed t fun d => d.ptCheckDone

/-- PHASE_TABLE_ENTRY_WRITE (R48): a write of entry n < 4,096, or of LEN (n = 4,096). -/
def execPhaseTableEntryWrite (n : Nat) (w : Word) (s : State) : Out :=
  s.run fun d => d.sw fun d => if n < 4096 then d.ptEntryWrite n w else d.ptLenWrite (wbits w 12 0)

end Sys2Proof.Machine
end

