-- ==== Sys2Proof/Machine/Clocks.lean ====
section
/-! DEFINITION. Clock generation (chapter 14): the crystal and the references, the PLLs and muxes, the voltage/frequency sequencer and the
frequency measurement. -/

namespace Sys2Proof.Machine

set_option cleanup.letToHave false

/-- The image selects aligned-division mode (R328): GLB_PROFILE.CLKMODE. -/
def Dev.aligned (d : Dev) : Bool := d.fbit F.GLB_PROFILE.LOADED [] && d.fget F.GLB_PROFILE.CLKMODE [] == 1

/-- REFk_OK. -/
def Dev.refOk (d : Dev) (k : Nat) : Bool := if k = 0 then d.fbit F.CLK_STATUS.REF0_OK [] else d.fbit F.CLK_STATUS.REF1_OK []

/-- REFk_OK is set to v. -/
def Dev.setRef (d : Dev) (k v : Nat) : Dev := d.fset (if k = 0 then F.CLK_STATUS.REF0_OK else F.CLK_STATUS.REF1_OK) [] v

/-- Bit i of LOCK and of COAST. -/
def Dev.setPll (d : Dev) (i : Nat) (lock coast : Bool) : Dev :=
  let put := fun (old : Nat) (b : Bool) => if b then old ||| 2 ^ i else old &&& (255 - 2 ^ i)
  d.fsets [(F.CLK_STATUS.LOCK, put (d.fget F.CLK_STATUS.LOCK []) lock), (F.CLK_STATUS.COAST, put (d.fget F.CLK_STATUS.COAST []) coast)] []

/-- PLL i coasts. -/
def Dev.coasting (d : Dev) (i : Nat) : Bool := bitN (d.fget F.CLK_STATUS.COAST []) i

/-- The PLLs that take the selected reference (R321): CPLL is off in aligned-division mode, RPLL outside it. -/
def Dev.refPlls (d : Dev) : List Nat := (if d.aligned then [1, 2] else [0, 1]) ++ [4, 5, 6, 7]

/-- A PLL coasts (R322): event 114; a spill stack enters self-refresh. -/
def Dev.pllCoast (d : Dev) (i : Nat) : Dev :=
  if d.coasting i then d
  else
    let d := (d.setPll i false true).raise Ev.CLK_PLL_COAST i unitDev
    if 4 ≤ i then d.srForce (i - 4) else d

/-- Muxes are asked to switch (R323). -/
def Dev.muxAsk (d : Dev) (l : List Nat) : Dev :=
  { d with clk := { d.clk with switching := d.clk.switching ++ l.filter fun m => ! d.clk.switching.contains m } }

/-- The muxes that take the selected reference (R319, R321). -/
def Dev.refMuxes (d : Dev) : List Nat := (if d.aligned then [1, 2] else [0, 1]) ++ [3, 4] ++ (if d.fbit F.CLK_STATUS.XO_LOST [] then [5] else [])

/-- The selected reference changes, and every reference mux switches (R320). -/
def Dev.selectRef (d : Dev) (k : Nat) : Dev :=
  if d.fget F.CLK_STATUS.REFSEL [] = k then d else (d.fset F.CLK_STATUS.REFSEL [] k).muxAsk d.refMuxes

/-- The oscillator that TIMMUX takes is the crystal (R322). -/
def Dev.timXo (d : Dev) : Bool := d.fbit F.CLK_CTL.TIMREF [] != d.clk.timAlt

/-- The oscillator of the timing DPLL is lost: TIMMUX switches to the other (R322). -/
def Dev.timSwitch (d : Dev) : Dev := Dev.muxAsk { d with clk := { d.clk with timAlt := ! d.clk.timAlt } } [7]

/-- A forced switch of a mux (R324). -/
def Dev.muxForced (d : Dev) (m : Nat) : Dev :=
  (d.fset F.CLK_SWFORCED.MUX [] (d.fget F.CLK_SWFORCED.MUX [] ||| 2 ^ m)).raise Ev.CLK_SWFORCED m unitDev

/-- The crystal is lost (R319): the control-port and transom muxes are forced to their alternates. -/
def Dev.xoLost (d : Dev) : Dev :=
  if d.fbit F.CLK_STATUS.XO_LOST [] then d
  else
    let d := (d.fsets [(F.CLK_STATUS.XO_LOST, 1), (F.CLK_STATUS.TRN_RO, 1)] []).raise Ev.CLK_XO_LOST 0 unitDev
    let d := (d.muxForced 5).muxForced 6
    if d.timXo then d.timSwitch else d

/-- The crystal is good again (R319): both muxes switch back. -/
def Dev.xoRestored (d : Dev) : Dev :=
  if d.fbit F.CLK_STATUS.XO_LOST [] then (d.fset F.CLK_STATUS.XO_LOST [] 0).muxAsk [5, 6] else d

/-- Reference k is lost (R320, R322): its PLLs coast, and the muxes switch to the other reference, provided that it is good. -/
def Dev.refLost (d : Dev) (k : Nat) : Dev :=
  let now := d.now
  let sel := d.fget F.CLK_STATUS.REFSEL [] == k
  let d : Dev := { d with clk := { d.clk with refGood := mins d.clk.refGood k now } }
  let d := (d.setRef k 0).raise Ev.CLK_REF_LOST k unitDev
  let d := if k = 0 ∧ ! d.timXo then d.timSwitch else d
  if ! sel then d
  else
    let d := d.refPlls.foldl (fun (d : Dev) i => d.pllCoast i) d
    if d.refOk (1 - k) then d.selectRef (1 - k) else d

/-- Since when a reference has had no loss. -/
def Dev.refSince (d : Dev) (k : Nat) : Nat := mget 0 d.clk.refGood k

/-- Reference k has had no loss for 10 s, or the primary has been good for 10 s more and REVERT = 1 (R320). -/
def Dev.refGoodAt (d : Dev) (k : Nat) : Dev :=
  if ! d.since (d.refSince k) (sec 10) then d
  else
    let d := d.setRef k 1
    let sel := d.fget F.CLK_STATUS.REFSEL []
    let back := d.fbit F.CLK_CTL.REVERT [] && d.fget F.CLK_CTL.REF_PRI [] == k && d.since (d.refSince k) (sec 20)
    if ! d.refOk sel || back then d.selectRef k else d

/-- The reference of a PLL is there: its mux has switched to a reference that is good. -/
def Dev.refThere (d : Dev) (i : Nat) : Bool :=
  let m := if i = 0 then 0 else if i = 1 then 1 else if i = 2 then 2 else 3
  d.refOk (d.fget F.CLK_STATUS.REFSEL []) && ! d.clk.switching.contains m

/-- A PLL is at its output frequency (R322): event 117 where it coasted; a spill stack leaves self-refresh. -/
def Dev.pllRelock (d : Dev) (i : Nat) : Dev :=
  if 8 ≤ i then d
  else if d.coasting i then
    if ! d.refThere i then d
    else
      let d := (d.setPll i true false).raise Ev.CLK_PLL_RELOCK i unitDev
      if 4 ≤ i then d.srLet (i - 4) else d
  else d.setPll i true false

/-- What a completed switch of a mux brings (R319, R322): TRNMUX back on the crystal; TIMMUX on its new oscillator, with the correction
rebased by the measured ratio, in 2^-16 ppb. -/
def Dev.muxDone (d : Dev) (m : Nat) (ratio : Int) : Dev :=
  let d : Dev := { d with clk := { d.clk with switching := d.clk.switching.filter (· != m) } }
  if m = 6 ∧ ! d.fbit F.CLK_STATUS.XO_LOST [] then d.fset F.CLK_STATUS.TRN_RO [] 0
  else if m = 7 then d.fset F.TIM_FREQ.ADJ [] (unsext 40 (sext 40 (d.fget F.TIM_FREQ.ADJ []) + ratio))
  else d

/-- A mux completes its switch, without a glitch or, after 64 new cycles without an old edge, by force (R323, R324). -/
def Dev.muxSwitch (d : Dev) (m : Nat) (ratio : Int) (forced : Bool) : Dev :=
  if ! d.clk.switching.contains m then d
  else
    let d := if forced then d.muxForced m else d
    d.muxDone m ratio

/-- CLK_DVFS.CUR (R325). -/
def Dev.curOp (d : Dev) : Nat := d.fget F.CLK_DVFS.CUR []

/-- VNOM + VADJ of an operating point in mV (R325). -/
def Dev.opVolt (d : Dev) (i : Nat) : Nat := d.fget F.CLK_OP.VNOM [i] + d.fget F.CLK_OP.VADJ [i]

/-- A step's stage begins, STATE showing it: 0 idle, 1 V_WAIT, 2 F_UP, 3 F_DOWN. -/
def Dev.stepStage (d : Dev) (st : Nat) (x : Option DvfsStep) : Dev :=
  let now := d.now
  Dev.fset { d with clk := { d.clk with step := x.map fun y => { y with since := now } } } F.CLK_DVFS.STATE [] st

/-- A step ends, and is counted. -/
def Dev.stepEnd (d : Dev) : Dev := (d.stepStage 0 none).count (Ct.CLK_STEP_CNT 0) 1

/-- A voltage is commanded (R325, R339). -/
def Dev.command (d : Dev) (mv : Nat) : Dev := { d with clk := { d.clk with voltage := mv } }

/-- The voltage of CUR is commanded alone (R327, R347). -/
def Dev.voltStep (d : Dev) : Dev := (d.command (d.opVolt d.curOp)).stepStage 1 (some { up := false, target := d.curOp, waitV := true, voltOnly := true })

/-- The operating point to which the next step leads, if one is due (R325 to R327, R337); in warm-up the pipelines run at OP5 (R336). -/
def Dev.nextOp (d : Dev) : Option Nat :=
  let cur := d.curOp
  let target := if d.clk.uvForced || d.fbit F.PWR_STATE.WARMING [] then 5 else d.fget F.CLK_DVFS.TARGET []
  let next := if d.fbit F.CLK_OP.RETIRED [cur] then cur + 1 else if cur < target then cur + 1 else if target < cur then cur - 1 else cur
  let onlyDown := d.fbit F.CLK_DVFS.VREG_LOST [] || d.clk.uvForced
  if next = cur ∨ 5 < next ∨ d.fbit F.CLK_OP.RETIRED [next] ∨ (onlyDown ∧ next < cur) then none else some next

/-- The sequencer starts a step (R325, R328). -/
def Dev.stepStart (d : Dev) : Dev :=
  if d.aligned || d.clk.step.isSome || d.coasting 0 then d
  else match d.nextOp with
    | none => d
    | some n =>
      if n < d.curOp then (d.command (d.opVolt n)).stepStage 1 (some { up := true, target := n, waitV := true })
      else d.stepStage 3 (some { up := false, target := n, waitV := false, freqOnly := d.fbit F.CLK_DVFS.VREG_LOST [] || d.clk.uvForced })

/-- CPLL's ramp of 1 µs ends (R325, R327). -/
def Dev.rampDone (d : Dev) : Dev :=
  match d.clk.step with
  | some x =>
    if x.waitV || ! d.since x.since (us 1) then d
    else
      let d := d.fset F.CLK_DVFS.CUR [] x.target
      if x.up || x.freqOnly then d.stepEnd else (d.command (d.opVolt x.target)).stepStage 1 (some { x with waitV := true })
  | none => d

/-- The VCORE regulator reports that it has settled (R325 to R327): it also answers after a missing report. -/
def Dev.settled (d : Dev) : Dev :=
  if d.fbit F.CLK_DVFS.VREG_LOST [] then
    let d := d.fset F.CLK_DVFS.VREG_LOST [] 0
    if d.clk.step.isNone && ! d.aligned then d.voltStep else d
  else match d.clk.step with
    | some x =>
      if ! x.waitV then d
      else if x.voltOnly then d.stepStage 0 none
      else if ! x.up then d.stepEnd
      else if d.coasting 0 then (d.fset F.CLK_DVFS.CUR [] x.target).stepEnd
      else d.stepStage 2 (some { x with waitV := false })
    | none => d

/-- No settling report has come (R327): the step ends with CUR as it stands. -/
def Dev.vregLost (d : Dev) : Dev :=
  let d := (d.fset F.CLK_DVFS.VREG_LOST [] 1).raise Ev.CLK_DVFS_TMO 0 unitDev
  match d.clk.step with
  | some x => if ! x.waitV then d else if x.voltOnly then d.stepStage 0 none else d.stepEnd
  | none => d

/-- SETTLE_TMO expires (R327). -/
def Dev.settleTimeout (d : Dev) : Dev :=
  match d.clk.step with
  | some x => if x.waitV && d.since x.since (us (atLeast1 (d.fget F.CLK_DVFS.SETTLE_TMO []))) then d.vregLost else d
  | none => d

/-- CLK_FMEAS_CTL.GO is written 1 (R329). -/
def Dev.measureStart (d : Dev) : Dev :=
  let now := d.now
  Dev.fset (Dev.fset { d with clk := { d.clk with measure := some now } } F.CLK_FMEAS_RES.VALID [] 0) F.CLK_FMEAS_CTL.GO [] 1

/-- A measurement ends with a count of target cycles (R329): the clocks 56 to 63 count 0. -/
def Dev.measureEnd (d : Dev) (count timeout : Nat) : Dev :=
  let n := if 56 ≤ d.fget F.CLK_FMEAS_CTL.TGT [] then 0 else count
  let d : Dev := { d with clk := { d.clk with measure := none } }
  (d.fsets [(F.CLK_FMEAS_RES.COUNT, n), (F.CLK_FMEAS_RES.TIMEOUT, timeout), (F.CLK_FMEAS_RES.VALID, 1)] []).fset F.CLK_FMEAS_CTL.GO [] 0

/-- A clock event at time t, while the chips' clocks run: in Standby or Active. -/
def Dev.clkAt (d : Dev) (t : Nat) (f : Dev → Dev) : Dev := d.timed t f

/-- XO_LOST (R319). -/
def execXoLost (t : Nat) (s : State) : Out := s.run fun d => d.clkAt t fun d => d.xoLost

/-- XO_RESTORED (R319). -/
def execXoRestored (t : Nat) (s : State) : Out := s.run fun d => d.clkAt t fun d => d.xoRestored

/-- REF_LOST (R320). -/
def execRefLost (t k : Nat) (s : State) : Out := s.run fun d => d.clkAt t fun d => if k < 2 then d.refLost k else d

/-- REF_GOOD (R320). -/
def execRefGood (t k : Nat) (s : State) : Out := s.run fun d => d.clkAt t fun d => if k < 2 then d.refGoodAt k else d

/-- PLL_RELOCK (R322). -/
def execPllRelock (t i : Nat) (s : State) : Out := s.run fun d => d.clkAt t fun d => d.pllRelock i

/-- MUX_SWITCH (R323): `ratio` is the measured ratio of the two oscillators for TIMMUX, in 2^-16 ppb (R322). -/
def execMuxSwitch (t m : Nat) (ratio : Int) (s : State) : Out := s.run fun d => d.clkAt t fun d => d.muxSwitch m ratio false

/-- MUX_FORCED_SWITCH (R324). -/
def execMuxForcedSwitch (t m : Nat) (ratio : Int) (s : State) : Out := s.run fun d => d.clkAt t fun d => d.muxSwitch m ratio true

/-- DVFS_STEP_START (R325). -/
def execDvfsStepStart (t : Nat) (s : State) : Out := s.run fun d => d.clkAt t fun d => d.stepStart

/-- CPLL_RAMP_DONE (R325). -/
def execCpllRampDone (t : Nat) (s : State) : Out := s.run fun d => d.clkAt t fun d => d.rampDone

/-- SETTLING_REPORT (R325). -/
def execSettlingReport (t : Nat) (s : State) : Out := s.run fun d => d.clkAt t fun d => d.settled

/-- SETTLE_TIMEOUT (R327). -/
def execSettleTimeout (t : Nat) (s : State) : Out := s.run fun d => d.clkAt t fun d => d.settleTimeout

/-- FREQ_MEASURE_START (R329). -/
def execFreqMeasureStart (s : State) : Out := s.run fun d => d.sw fun d => d.measureStart

/-- FREQ_MEASURE_DONE (R329): the gate ends with `count` target cycles. -/
def execFreqMeasureDone (t count : Nat) (s : State) : Out :=
  s.run fun d => d.clkAt t fun d => if d.clk.measure.isSome then d.measureEnd count 0 else d

/-- FREQ_MEASURE_TIMEOUT (R329). -/
def execFreqMeasureTimeout (t count : Nat) (s : State) : Out :=
  s.run fun d => d.clkAt t fun d =>
    if d.clk.measure.any fun x => d.since x (ms (atLeast1 (d.fget F.CLK_FMEAS_CTL.TMO []))) then d.measureEnd count 1 else d

end Sys2Proof.Machine
end

