-- ==== Sys2Proof/Machine/Export.lean ====
section
/-! DEFINITION. The export buffer (R77): BULK frames, and the ageing history on stream 15 (R349). -/

namespace Sys2Proof.Machine

set_option cleanup.letToHave false

/-- The size of the export buffer (R77). -/
def exportSize : Nat := 262144

/-- The largest payload of a frame that the device sends (R61). -/
def maxPayload : Nat := 1280

/-- The frame number that a stream of a session takes next; the spec names no first one: a free value (log entry 2). -/
def Dev.takeSseq (d : Dev) (n stream : Nat) : Dev × Nat :=
  match mget? (d.session n).streams stream with
  | some k => (d.sessionMod n fun s => { s with streams := mins s.streams stream ((k + 1) % 2 ^ 32) }, k)
  | none =>
    let k := d.freeNow.toNat % 2 ^ 32
    (d.drawn.sessionMod n fun s => { s with streams := mins s.streams stream ((k + 1) % 2 ^ 32) }, k)

/-- A BULK frame of cnt records goes into the export buffer (R77). -/
def Dev.bulkPut (d : Dev) (n stream kind cnt : Nat) (recs : List Byte) : Dev :=
  if cnt = 0 then d
  else
    let (d, k) := d.takeSseq n stream
    let payload := beBytes 1 stream ++ beBytes 1 kind ++ beBytes 2 cnt ++ beBytes 4 k ++ recs
    let f : CpFrame := { port := 0, typ := 6, code := 0, sid := n, payload := payload }
    let d : Dev := { d with ctl := { d.ctl with exportUsed := d.ctl.exportUsed + payload.length } }
    d.sessionMod n fun s => { s with bulkq := s.bulkq ++ [f] }

/-- The frame that an export fills: session, stream, kind, records so far and their bytes. -/
structure XFrame where
  n : Nat
  stream : Nat
  kind : Nat
  cnt : Nat := 0
  recs : List Byte := []

/-- The frame is put into the buffer, and an empty one follows. -/
def XFrame.flush (f : XFrame) (d : Dev) : Dev × XFrame := (d.bulkPut f.n f.stream f.kind f.cnt f.recs, { f with cnt := 0, recs := [] })

/-- A record of the ageing history (R349). -/
def historyRecord (typ code unit value sec : Nat) : List Byte :=
  beBytes 1 typ ++ beBytes 1 code ++ beBytes 2 unit ++ beBytes 4 value ++ beBytes 6 sec ++ beBytes 2 0

/-- The records of the ageing history, oldest first, and its end (R349). SEC of a milestone is the start of its day; CODE of a summary, which the
spec does not give, is a free value (log entry 2). -/
def Dev.historyRecords (d : Dev) : List (List Byte) :=
  (d.ageRec.map fun w => historyRecord 0 (wbits w 62 56) (wbits w 55 40) (wbits w 39 24) (wbits w 23 0 * 86400)) ++
    (d.pwr.summaries.map fun (s : Summary) =>
      historyRecord 1 (d.freeNow.toNat % 256) s.lane (s.shift * 65536 + s.laneMargin % 256 * 256 + s.pcMargin % 256) s.sec) ++
    [historyRecord 0xFF 0 0 0 0]

/-- The ageing history goes into the export buffer as soon as it has room there (R77, R349). -/
def Dev.historyPut (d : Dev) (n : Nat) : Dev :=
  let recs := d.historyRecords
  let total := 16 * recs.length + 8 * (recs.length / 79 + 1)
  if ! (d.session n).history || (mget? (d.session n).streams 15).isSome || decide (exportSize < d.ctl.exportUsed + total) then d
  else
    let d := d.drawn
    (List.range (recs.length / 79 + 1)).foldl (fun (d : Dev) i =>
      let part := (recs.drop (79 * i)).take 79
      d.bulkPut n 15 2 part.length part.flatten) d

end Sys2Proof.Machine
end

