-- ==== Sys2Proof/Machine/Control.lean ====
section
/-! DEFINITION. The control ports and the TVX exchange (chapter 03): MACsec, sending and receiving, sessions, COMMAND and REPLY, events
on the wire, BULK and HEARTBEAT. -/

namespace Sys2Proof.Machine

set_option cleanup.letToHave false

/-- The index of the boot ROM's IMAGE exchange beside the sessions 0 to 7. -/
def bootSess : Nat := 8

/-- Session n, or the boot ROM's IMAGE exchange. -/
def Dev.sess (d : Dev) (n : Nat) : Session := if n < 8 then d.session n else d.ctl.boot

/-- Session n, or the boot ROM's IMAGE exchange, changed by f. -/
def Dev.sessMod (d : Dev) (n : Nat) (f : Session → Session) : Dev :=
  if n < 8 then d.sessionMod n f else { d with ctl := { d.ctl with boot := f d.ctl.boot } }

/-- Control port k has link. -/
def Dev.cpLink (d : Dev) (k : Nat) : Bool := d.fbit F.CTL_CP.LINK [k]

/-- Control port k can send: it has link and MACsec has not stopped it (R58, R70). -/
def Dev.cpUsable (d : Dev) (k : Nat) : Bool := d.cpLink k && ! d.ctl.stopped.contains k

/-- The current port of a session (R70), and the port of the boot ROM's exchange. -/
def Dev.sessPort (d : Dev) (n : Nat) : Nat := if n < 8 then d.fget F.TVX_SESSION.PORT [n] else d.ctl.lastPort

/-- CTL_CP[k].ACTIVE shows whether port k is the current port of an open session. -/
def Dev.showActive (d : Dev) : Dev :=
  (List.range 2).foldl (fun (d : Dev) k =>
    d.fset F.CTL_CP.ACTIVE [k] (if (List.range 8).any (fun n => d.sessionOpen n && d.fget F.TVX_SESSION.PORT [n] == k) then 1 else 0)) d

/-- An image is loaded: the load has reached STANDBY (R115). -/
def Dev.imageLoaded (d : Dev) : Bool := d.img.boot == .standby

/-- The device state as ADVERTISE and HEARTBEAT code it (R62): 0 boot ROM, 1 image loading, 2 Standby, 3 Active. -/
def Dev.stateCode (d : Dev) : Nat :=
  match d.img.boot with
  | .reset | .xoCheck | .advertising => 0
  | .receiving | .verify | .load => 1
  | .standby => if d.active then 3 else 2

/-- The discovery address (R55). -/
def discoveryMac : Nat := 0x034C58000001

/-- The index of a security association slot: port, direction (0 transmit, 1 receive), slot. -/
def saIx (k dir slot : Nat) : Nat := 4 * k + 2 * dir + slot

/-- A security association slot (R56, R58). -/
def Dev.sa (d : Dev) (k dir slot : Nat) : Sa := (mget? d.ctl.sas (saIx k dir slot)).getD {}

/-- A security association slot set; CTL_MSEC_STAT shows which slots hold keys. -/
def Dev.saSet (d : Dev) (k dir slot : Nat) (x : Sa) : Dev :=
  let d := { d with ctl := { d.ctl with sas := mins d.ctl.sas (saIx k dir slot) x } }
  let bits := fun dir => (if (d.sa k dir 1).valid then 2 else 0) + (if (d.sa k dir 0).valid then 1 else 0)
  d.fsets [(F.CTL_MSEC_STAT.TXVALID, bits 0), (F.CTL_MSEC_STAT.RXVALID, bits 1),
           (F.CTL_MSEC_STAT.TXPN, (d.sa k 0 (d.fgetB F.CTL_MSEC.TXSA [k])).pn % 2 ^ 32)] [k]

/-- A transmit association can send: it is valid and PN 0xFFFF_FFFF has not been sent on it (R58). -/
def Sa.usable (x : Sa) : Bool := x.valid && decide (x.pn < 2 ^ 32)

/-- The bytes that a device frame takes on a control port's wire, gap included (R59, worked example of chapter 03). -/
def Dev.cpWireBytes (d : Dev) (k payload : Nat) : Nat :=
  8 + 12 + 2 + 24 + payload + 4 + 12 + (if d.fbit F.CTL_MSEC.TXEN [k] then 32 else 0)

/-- The unacknowledged frames of a session that R69 and R70 send again: BULK frames never are (R77). -/
def Session.again (s : Session) : List CpFrame := s.unacked.filter fun f => f.typ != 6

/-- A frame leaves a control port (R59): with TXEN the association in TXSA protects it and its PN advances, with events 72 and 73
as R58 gives. A port without link, a stopped port and a port whose association cannot send emit nothing. -/
def Dev.cpEmit (d : Dev) (f : CpFrame) : Dev :=
  let k := f.port
  if ! d.cpUsable k then d
  else
    let d := (d.applyB .CTL_MSEC [k]).applyB .CTL_MAC [k]
    let log := fun (d : Dev) => { d with ctl := { d.ctl with sent := f :: d.ctl.sent } }
    if ! d.fbit F.CTL_MSEC.TXEN [k] then log d
    else
      let slot := d.fget F.CTL_MSEC.TXSA [k]
      let x := d.sa k 0 slot
      if ! x.usable then d
      else
        let d := (log d).saSet k 0 slot { x with pn := x.pn + 1 }
        let d := if x.pn + 1 = 0xC0000000 then d.raise Ev.CTL_PN_LOW 0 unitDev else d
        if x.pn = 0xFFFFFFFF then
          if (d.sa k 0 (1 - slot)).usable then
            Dev.raiseSev (Dev.saSet (d.fset F.CTL_MSEC.TXSA [k] (1 - slot)) k 0 (1 - slot) (d.sa k 0 (1 - slot))) Ev.CTL_PN_END 1 (evArg Ev.CTL_PN_END 0) unitDev
          else Dev.raiseSev { d with ctl := { d.ctl with stopped := d.ctl.stopped ++ [k] } } Ev.CTL_PN_END 2 (evArg Ev.CTL_PN_END 0) unitDev
        else d

/-- A frame of a session leaves with the acknowledgement of R69, on port k. -/
def Dev.sessEmit (d : Dev) (n k : Nat) (f : CpFrame) : Dev :=
  let s := d.sess n
  let dst := if n < 8 then d.fget F.TVX_SESSION.HOST [n] else d.img.bound.getD discoveryMac
  let d := d.cpEmit { f with port := k, sid := if n < 8 then n else 0xFF, ackv := true, ack := s.rxNext, dst := dst }
  d.sessMod n fun s => { s with ackDue := none, lastTx := d.now }

/-- The initial retransmission timeout (TVX_CTL.RTO). -/
def Dev.rto0 (d : Dev) : Nat := us (atLeast1 (d.fget F.TVX_CTL.RTO []))

/-- A numbered frame is sent for the first time (R68): it takes the next SEQ, waits for its acknowledgement, and starts the timeout. -/
def Dev.sendNumbered (d : Dev) (n : Nat) (f : CpFrame) : Dev :=
  let s := d.sess n
  let f := { f with seq := s.txNext }
  let start := f.typ != 6 && s.rto == 0
  let d := d.sessMod n fun s =>
    { s with txNext := (s.txNext + 1) % 2 ^ 32, unacked := s.unacked ++ [f],
             rto := if start then d.rto0 else s.rto, rtoStart := if start then d.now else s.rtoStart }
  d.sessEmit n (d.sessPort n) f

/-- The window of session n is open (R68). -/
def Dev.windowOpen (d : Dev) (n : Nat) : Bool := decide ((d.sess n).unacked.length < (d.sess n).hostWin)

/-- The waiting REPLYs of a session go out while its window is open and its current port can send (R68, R74). -/
def Dev.pump (d : Dev) (n : Nat) : Dev :=
  iter (d.sess n).outq.length (fun (d : Dev) =>
    match (d.sess n).outq with
    | f :: rest =>
      if d.windowOpen n && d.cpUsable (d.sessPort n) then Dev.sendNumbered (d.sessMod n fun s => { s with outq := rest }) n f else d
    | [] => d) d

/-- The unacknowledged frames of a session are sent again on port k, with RETX set (R69, R70). -/
def Dev.resend (d : Dev) (n k : Nat) : Dev :=
  (d.sess n).again.foldl (fun (d : Dev) f => d.sessEmit n k { f with retx := true }) d

/-- Every session on port k, and the boot ROM's exchange, move to the other port while that can send (R70). -/
def Dev.failover (d : Dev) (k : Nat) : Dev :=
  let o := 1 - k
  if ! d.cpUsable o then d
  else
    let who := (List.range 8).filter fun n => d.sessionOpen n && d.fget F.TVX_SESSION.PORT [n] == k
    let d := who.foldl (fun (d : Dev) n => (Dev.resend (d.fset F.TVX_SESSION.PORT [n] o) n o).pump n) d
    let d := if d.ctl.lastPort = k then Dev.resend { d with ctl := { d.ctl with lastPort := o } } bootSess o else d
    let d := d.showActive
    if who.isEmpty then d else (d.raise Ev.CTL_FAILOVER 0 unitDev).recovered 8 k 0 0 d.now

/-- After a send: a port that MACsec has just stopped hands its sessions over (R58, R70). -/
def Dev.settlePorts (d0 d : Dev) : Dev :=
  (List.range 2).foldl (fun (d : Dev) k => if d.ctl.stopped.contains k && ! d0.ctl.stopped.contains k then d.failover k else d) d

/-- The payload of a REPLY (R72). -/
def replyPayload (status faultPc icount fab : Nat) (g : List Word) : List Byte :=
  beBytes 2 status ++ beBytes 2 0 ++ beBytes 4 faultPc ++ beBytes 8 icount ++ beBytes 12 (t96 fab) ++ beBytes 4 0 ++
    (List.range 8).flatMap fun i => beBytes 8 (g.getD i 0).toNat

/-- A REPLY of session n (R72): it waits for the window and the port as any numbered frame. FAULT_PC of a REPLY for which R71 and R109
give none is a free value (log entry 2). -/
def Dev.reply (d : Dev) (n tag status : Nat) (faultPc : Option Nat) (icount : Nat) (g : List Word) : Dev :=
  let pc := faultPc.getD d.freeNow.toNat
  let d := if faultPc.isNone then d.drawn else d
  let f : CpFrame := { port := 0, typ := 4, code := status, sid := n, tag := tag, payload := replyPayload status pc icount d.fab g }
  (d.sessMod n fun s => { s with outq := s.outq ++ [f] }).pump n

/-- The sequencer of a session's context (R64). -/
def Dev.sessSeq (d : Dev) (n : Nat) : Nat := d.fget F.TVX_SESSION.SEQ [n]

/-- The 16 B payload of a HEARTBEAT (R78). -/
def Dev.heartbeatPayload (d : Dev) (state : Nat) : List Byte :=
  beBytes 12 (t96 d.fab) ++ beBytes 1 state ++ beBytes 1 (d.fget F.TIM_STATUS.DPLL_STATE []) ++ beBytes 2 0

/-- A HEARTBEAT of a session: CODE 0, or 1 for an acknowledgement only (R69, R78). -/
def Dev.sessHeartbeat (d : Dev) (n code : Nat) : Dev :=
  d.sessEmit n (d.sessPort n) { port := 0, typ := 7, code := code, sid := n, seq := (d.sess n).txNext, payload := d.heartbeatPayload d.stateCode }

/-- A HEARTBEAT with SID 0xFF on port k (R78, R335). -/
def Dev.portHeartbeat (d : Dev) (k state : Nat) : Dev :=
  d.cpEmit { port := k, typ := 7, code := 0, sid := 0xFF, dst := discoveryMac, payload := d.heartbeatPayload state }

/-- The payload of ADVERTISE (R62). -/
def Dev.advertisePayload (d : Dev) : List Byte :=
  beBytes 8 (d.rget .GLB_ID []).toNat ++ beBytes 8 d.uid ++ beBytes 8 (d.rget .GLB_PROFILE []).toNat ++
    beBytes 8 (d.rget .GLB_VERSION []).toNat ++ beBytes 6 (d.ctlMac 0) ++ beBytes 6 (d.ctlMac 1) ++
    beBytes 1 ((List.range 8).filter fun n => ! d.sessionOpen n).length ++ beBytes 1 d.stateCode

/-- ADVERTISE to an address on port k (R63). -/
def Dev.advertise (d : Dev) (k dst : Nat) : Dev :=
  d.cpEmit { port := k, typ := 1, code := 1, sid := 0xFF, dst := dst, payload := d.advertisePayload }

/-- ADVERTISE to the discovery address on every port with link (R63). -/
def Dev.advertiseAll (d : Dev) : Dev := (List.range 2).foldl (fun (d : Dev) k => d.advertise k discoveryMac) d

/-- The routine of a context stops: its state is idle and nothing of a WAIT, an access or an XPORT remains. -/
def Ctx.stop (x : Ctx) (st : CtxState) : Ctx :=
  { x with st := st, wait := none, xport := none, resumeDeadline := none, aborts := [], ending := false }

/-- The routine of a context ends (R71, R72): its COMMAND has a REPLY with this status, then each ABORT that waited its own with OK; a
routine whose session has ended has none (R67). A ring that it was draining is free for another XPORT (R268). -/
def Dev.routineEnd (d : Dev) (sq c : Nat) (st : CtxState) (status : Nat) (pc : Option Nat) : Dev :=
  let x := d.ctx sq c
  let d := d.ctxMod sq c fun x => x.stop st
  let d : Dev := { d with que := { d.que with draining := d.que.draining.filter fun y => y.1 != ctxIx sq c } }
  if x.ending then d
  else
    let d := d.reply x.sid x.tag status pc x.icount x.g
    x.aborts.reverse.foldl (fun (d : Dev) tag => d.reply x.sid tag 0 (some 0) 0 x.g) d

/-- A context ends an aborted routine at a safe point (R71, R95). -/
def Dev.abortNow (d : Dev) (sq c : Nat) : Dev := d.routineEnd sq c .idle 5 none

/-- A context runs a routine. -/
def Ctx.running (x : Ctx) : Bool := x.st == .ready || x.st == .waiting || x.st == .inAccess

/-- A context is at a safe point while it waits in a WAIT (R93); between its instructions the safe points of R93 are met by the
instructions themselves. -/
def Ctx.inWait (x : Ctx) : Bool := x.st == .waiting

/-- An abort is asked of a context: at once while it waits, else at its next safe point (R95). -/
def Dev.abortContext (d : Dev) (sq c : Nat) (f : Ctx → Ctx) : Dev :=
  let d := d.ctxMod sq c f
  if (d.ctx sq c).inWait then d.abortNow sq c else d

/-- A session ends (R67): its registers, subscriptions, streams and queued frames are cleared, its armed ATs cancelled (R105), its
routine aborted at its next safe point; `ev` is the event raised, if any. -/
def Dev.endSession (d : Dev) (n : Nat) (ev : Option Nat) : Dev :=
  if ! d.sessionOpen n then d
  else
    let sq := d.sessSeq n
    let used := ((d.session n).bulkq.map fun f => f.payload.length).sum
    let d := (d.rset .TVX_SESSION [n] 0).rset .TVX_EVT_SUB [n] 0
    let d := d.sessionMod n fun _ => {}
    let d := { d with ctl := { d.ctl with exportUsed := d.ctl.exportUsed - used } }
    let d := d.ctxMod sq n fun x => { x with groups := 0 }
    let d := d.cancelAts fun a => a.sid == n
    let d : Dev := { d with img := { d.img with staging := (d.img.staging.filter fun (x : Staging) => x.applying || x.sid != n).map fun (x : Staging) =>
      if x.sid = n then { x with sid := 0xFF } else x } }
    let d := if (d.ctx sq n).running then d.abortContext sq n fun x => { x with ending := true } else d
    let d := d.showActive
    match ev with
    | some e => d.raise e n unitDev
    | none => d

/-- CLOSE sent by the device, when TVX_SESSION[n].CLOSE ends a session (R62, R67). -/
def Dev.sendClose (d : Dev) (n : Nat) : Dev :=
  d.cpEmit { port := d.sessPort n, typ := 1, code := 4, sid := n, seq := (d.sess n).txNext, dst := d.fget F.TVX_SESSION.HOST [n] }

/-- TVX_SESSION[n].CLOSE is written 1 (R67). -/
def Dev.closeWrite (d : Dev) (n : Nat) : Dev :=
  if d.sessionOpen n then (d.sendClose n).endSession n (some Ev.TVX_SESSION) else d

/-- The receive association that validates a frame: valid, of its AN and SCI (R56). -/
def Dev.rxSaSlot (d : Dev) (f : TvxRx) : Option Nat :=
  findFirst (fun i => let x := d.sa f.port 1 i; x.valid && x.an == f.an && x.sci == f.sci) [0, 1]

/-- The lowest PN that replay protection accepts (R56). -/
def Dev.rxLow (d : Dev) (k : Nat) (x : Sa) : Nat := max x.low (x.pn - d.fget F.CTL_MSEC.WINDOW [k])

/-- A frame fails MACsec validation or requirement (R56, R57). -/
def Dev.msecFails (d : Dev) (f : TvxRx) : Bool :=
  if f.sec = 0 then d.fbit F.CTL_MSEC.REQUIRE [f.port]
  else d.fbit F.CTL_MSEC.RXEN [f.port] &&
    (f.sec != 1 ||
      match d.rxSaSlot f with
      | none => true
      | some i => decide (f.pn < d.rxLow f.port (d.sa f.port 1 i)))

/-- A validated frame moves its association's window (R56). -/
def Dev.msecAccept (d : Dev) (f : TvxRx) : Dev :=
  if f.sec = 0 then d
  else match d.rxSaSlot f with
    | none => d
    | some i =>
      let x := d.sa f.port 1 i
      d.saSet f.port 1 i { x with pn := max x.pn (f.pn + 1) }

/-- A frame arrives that the port can take: link, a destination of R55, and a protected frame only with RXEN (R57). -/
def Dev.cpTakes (d : Dev) (f : TvxRx) : Bool :=
  decide (f.port < 2) && d.cpLink f.port && (f.dst == discoveryMac || f.dst == d.ctlMac f.port) &&
    (f.sec == 0 || d.fbit F.CTL_MSEC.RXEN [f.port])

/-- The SID of a frame names something that R60 lets it name. -/
def Dev.sidOk (d : Dev) (f : TvxRx) : Bool :=
  f.typ == 1 || d.sessionOpen f.sid || (f.sid == 0xFF && (f.typ == 7 || (f.typ == 2 && ! d.imageLoaded)))

/-- A DISCOVER frame that R60 discards. -/
def badDiscover (f : TvxRx) : Bool :=
  f.typ == 1 && (! (f.code == 0 || f.code == 2 || f.code == 4) || (f.code == 2 && decide (f.len < 16)))

/-- A frame that R60 discards. -/
def Dev.malformed (d : Dev) (f : TvxRx) : Bool :=
  f.ver != 1 || ! (decide (1 ≤ f.typ) && decide (f.typ ≤ 7)) || decide (8192 < f.len) || decide (f.payload.length < f.len) ||
    ! d.sidOk f || f.typ == 4 || f.typ == 5 || f.typ == 6 || badDiscover f

/-- A malformed frame is discarded, counted, and event 75 (R60). -/
def Dev.discardMalformed (d : Dev) : Dev := (d.count (Ct.TVX_RX_DISCARD 0) 1).raise Ev.TVX_MALFORMED 0 unitDev

/-- A frame arrives (R53 to R60): filtered, validated and screened; what passes goes to `k`. -/
def Dev.rxTvx (d : Dev) (f : TvxRx) (k : Dev → Dev) : Dev :=
  let d := if f.port < 2 then (d.applyB .CTL_MSEC [f.port]).applyB .CTL_MAC [f.port] else d
  if ! d.cpTakes f then d
  else if d.msecFails f then (d.count (Ct.CTL_MSEC_DROP 0) 1).raise Ev.CTL_MSEC_DROP 0 unitDev
  else
    let d := d.msecAccept f
    if d.malformed f then d.discardMalformed else k d

/-- The number a comes before b on the circle of 2^32. -/
def seqBefore (a b : Nat) : Bool := decide (0 < (b + 2 ^ 32 - a % 2 ^ 32) % 2 ^ 32) && decide ((b + 2 ^ 32 - a % 2 ^ 32) % 2 ^ 32 < 2 ^ 31)

/-- An acknowledgement arrives (R68, R69). -/
def Dev.ackRx (d : Dev) (n ack : Nat) : Dev :=
  let s := d.sess n
  let rest := s.unacked.filter fun x => ! seqBefore x.seq ack
  if rest.length = s.unacked.length then d
  else d.sessMod n fun s =>
    let live := rest.any fun x => x.typ != 6
    { s with unacked := rest, retries := 0, otherPort := false, rto := if live then d.rto0 else 0, rtoStart := d.now }

/-- What every frame of a session does on arrival: it keeps the session alive, moves the host's window and may acknowledge. -/
def Dev.rxLive (d : Dev) (n : Nat) (f : TvxRx) : Dev :=
  let d := d.sessMod n fun s => { s with lastRx := d.now, hostWin := f.win }
  let d := if f.ackv then d.ackRx n f.ack else d
  d.pump n

/-- A numbered frame of a session (R68): only the expected SEQ is accepted, and makes its port the session's current port (R70); any
other is discarded, counted and answered with an acknowledgement. -/
def Dev.rxNumbered (d : Dev) (n : Nat) (f : TvxRx) (k : Dev → Dev) : Dev :=
  let d := d.rxLive n f
  if f.seq ≠ (d.sess n).rxNext then (d.count (Ct.TVX_RX_OOS 0) 1).sessHeartbeat n 1
  else
    let d := d.sessMod n fun s =>
      { s with rxNext := (s.rxNext + 1) % 2 ^ 32, otherPort := false, ackDue := if s.ackDue.isSome then s.ackDue else some (d.now + us 20) }
    let d := if n < 8 then (d.fset F.TVX_SESSION.PORT [n] f.port).showActive else { d with ctl := { d.ctl with lastPort := f.port } }
    (k d).pump n

/-- The TVX_AUTH entry that matches a source address (R64). -/
def Dev.authEntry (d : Dev) (mac : Nat) : Option Nat :=
  findFirst (fun i => d.fbit F.TVX_AUTH.VALID [i] && d.fget F.TVX_AUTH.MAC [i] == mac) (List.range 16)

/-- ANON_PRIV, 3 acting as 0. -/
def Dev.anonPriv (d : Dev) : Nat := let v := d.fget F.TVX_CTL.ANON_PRIV []; if v = 3 then 0 else v

/-- MAXPRIV of an entry, 3 acting as 0; of no entry, the privilege that ANON_PRIV gives. -/
def Dev.maxPriv (d : Dev) (e : Option Nat) : Nat :=
  match e with
  | some i => let v := d.fget F.TVX_AUTH.MAXPRIV [i]; if v = 3 then 0 else v
  | none => d.anonPriv - 1

/-- A sequencer is in service: not stopped by a sequencer fault, nor awaiting or undergoing repair (R64, R406). -/
def Dev.seqInService (d : Dev) (sq : Nat) : Bool := ! d.csq.faulted.contains sq && ! d.csq.repairing.contains sq

/-- The reason for which an OPEN is refused, 0 where it is granted (R62 to R64). -/
def Dev.openRefusal (d : Dev) (f : TvxRx) : Nat :=
  let priv := (f.payload.getD 0 0).toNat
  let sq := (f.payload.getD 1 0).toNat
  let e := d.authEntry f.src
  if ! d.imageLoaded then 4
  else if (List.range 8).all d.sessionOpen then 1
  else if e.isNone && d.anonPriv == 0 then 2
  else if d.maxPriv e < priv then 3
  else if (e.any fun i => d.fbit F.TVX_AUTH.NEEDSEC [i]) && ! (f.sec == 1 && wbits f.sci 63 16 == f.src) then 2
  else if d.precision && (decide (1 < sq) || ! d.seqInService sq) then 5
  else 0

/-- A context is cleared when its session opens (R81). -/
def Ctx.openClear (x : Ctx) : Ctx :=
  { x with g := List.replicate 32 0, p := 1, rstack := [], handler := 0, hen := false, inh := none, groups := 0, evq := [], evLost := false }

/-- A granted OPEN (R64). -/
def Dev.grant (d : Dev) (f : TvxRx) : Dev × CpFrame :=
  let n := (findFirst (fun n => ! d.sessionOpen n) (List.range 8)).getD 0
  let priv := (f.payload.getD 0 0).toNat
  let sq := if d.precision then (f.payload.getD 1 0).toNat else d.primary
  let seq0 := d.freeNow.toNat % 2 ^ 32
  let d := d.drawn
  let d := d.fsets [(F.TVX_SESSION.OPEN, 1), (F.TVX_SESSION.PRIV, priv), (F.TVX_SESSION.PORT, f.port), (F.TVX_SESSION.SEQ, sq),
                    (F.TVX_SESSION.SECURE, if f.sec = 1 then 1 else 0), (F.TVX_SESSION.HOST, f.src)] [n]
  let d := d.fset F.TVX_EVT_SUB.GROUPS [n] (beNat (slice f.payload 8 8))
  let history := priv == 2 && ! d.img.historyDone
  let d := if history then { d with img := { d.img with historyDone := true } } else d
  let d := d.sessionMod n fun _ =>
    { rxNext := beNat (slice f.payload 4 4), txNext := seq0, hostWin := beNat (slice f.payload 2 2), lastRx := d.now, lastTx := d.now, history := history }
  let d := (d.ctxMod sq n Ctx.openClear).historyPut n
  let ans : CpFrame := { port := f.port, typ := 1, code := 3, sid := n, seq := seq0, tag := f.tag, dst := f.src,
                         payload := beBytes 1 n ++ beBytes 1 priv ++ beBytes 2 32 ++ beBytes 4 seq0 }
  (d, ans)

/-- OPEN (R64): a repeated TAG of the same source within 1 s gets its earlier answer; otherwise granted or refused. -/
def Dev.openRx (d : Dev) (f : TvxRx) : Dev :=
  let d := { d with ctl := { d.ctl with opens := d.ctl.opens.filter fun (o : OpenAnswer) => ! d.since o.time (sec 1) } }
  match findFirst (fun (o : OpenAnswer) => o.mac == f.src && o.tag == f.tag) d.ctl.opens with
  | some o => d.cpEmit { o.answer with port := f.port }
  | none =>
    let r := d.openRefusal f
    let keep := fun (d : Dev) (a : CpFrame) =>
      let o : OpenAnswer := { mac := f.src, tag := f.tag, time := d.now, answer := a }
      { d with ctl := { d.ctl with opens := d.ctl.opens ++ [o] } }
    if r = 0 then
      let g := d.grant f
      let d := (keep g.1 g.2).cpEmit g.2
      (d.showActive).raise Ev.TVX_SESSION g.2.sid unitDev
    else
      let a : CpFrame := { port := f.port, typ := 1, code := 5, sid := 0xFF, tag := f.tag, dst := f.src, payload := beBytes 1 r }
      ((keep d a).cpEmit a).raise Ev.TVX_OPEN_REFUSED 0 unitDev

/-- The first word and the length of a context's region (R82). -/
def Dev.regionBase (d : Dev) (sq c : Nat) : Nat := d.fget F.CSQ_REGION.BASE [sq, c]
def Dev.regionLen (d : Dev) (sq c : Nat) : Nat := d.fget F.CSQ_REGION.LEN [sq, c]

/-- A word of a sequencer's store is written; while shadowing, the shadow's copy too (R82, R111). -/
def Dev.storeWord (d : Dev) (sq a : Nat) (w : Word) : Dev :=
  let both := ! d.precision && d.fget F.CSQ_STATUS.STATE [] == 0
  let st := mset 0 d.csq.store (sq * 65536 + a % 65536) w
  { d with csq := { d.csq with store := if both then mset 0 st ((1 - sq) * 65536 + a % 65536) w else st } }

/-- A context starts a routine (R71, R81). -/
def Dev.startRoutine (d : Dev) (sq n entry : Nat) (g0 g1 : Word) (tag : Nat) : Dev :=
  (d.retired sq).ctxMod sq n fun x =>
    { x with st := .ready, pc := BitVec.ofNat 16 (d.regionBase sq n + entry), g := (x.g.set 0 g0).set 1 g1, rstack := [], hen := false,
             inh := none, since := 0, icount := 0, tag := tag, sid := n, priv := d.fget F.TVX_SESSION.PRIV [n], wait := none,
             resumeDeadline := none, xport := none, aborts := [], ending := false }

/-- The n-th 64-bit word of a byte string, most significant byte first. -/
def beWord (l : List Byte) (n : Nat) : Word := BitVec.ofNat 64 (beNat (slice l (8 * n) 8))

/-- A whole COMMAND is handled (R71): SEQ_FAULT for a sequencer out of service in Precision (R406), then BUSY, RANGE and BADCMD in the order in which R71 lists them; an ABORT loads and runs nothing. -/
def Dev.commandDone (d : Dev) (n : Nat) (bytes : List Byte) (more : Bool) (tag : Nat) : Dev :=
  let sq := d.sessSeq n
  let x := d.ctx sq n
  let rej := fun (d : Dev) (st : Nat) => d.reply n tag st (if st = 0 then some 0 else none) 0 x.g
  if d.precision && ! d.seqInService sq then rej d 6
  else if bytes.length < 32 then rej d 7
  else
    let op := (bytes.getD 0 0).toNat
    let entry := beNat (slice bytes 4 4)
    let loadAt := beNat (slice bytes 8 4)
    let nwords := beNat (slice bytes 12 4)
    let broken := more || bytes.length != 32 + 8 * nwords
    if op ≠ 2 ∧ x.running then rej d 1
    else if op < 2 ∧ (d.regionLen sq n < loadAt + nwords ∨ d.regionLen sq n ≤ entry) then rej d 3
    else if 2 < op ∨ broken then rej d 7
    else if op = 2 then
      if x.running then d.abortContext sq n fun x => { x with aborts := tag :: x.aborts } else rej d 0
    else
      let d := if op = 0 then
          (List.range nwords).foldl (fun (d : Dev) i => d.storeWord sq (d.regionBase sq n + loadAt + i) (beWord (bytes.drop 32) i)) d
        else d
      d.startRoutine sq n entry (beWord bytes 2) (beWord bytes 3) tag

/-- The COMMAND that a frame of a session belongs to begins with this operation code; a frame that begins one carries it (R71). -/
def Dev.commandOp (d : Dev) (f : TvxRx) : Nat := (((d.session f.sid).cmdBytes ++ f.payload.take f.len).getD 0 0xFF).toNat

/-- A frame of a COMMAND (R71): it continues an incomplete COMMAND or begins one; the last frame, or the 64th, ends it. -/
def Dev.commandRx (d : Dev) (f : TvxRx) : Dev :=
  d.rxNumbered f.sid f fun d =>
    let s := d.session f.sid
    let bytes := s.cmdBytes ++ f.payload.take f.len
    let tag := if s.cmdFrames = 0 then f.tag else s.cmdTag
    if f.more && decide (s.cmdFrames + 1 < 64) then
      d.sessionMod f.sid fun s => { s with cmdBytes := bytes, cmdFrames := s.cmdFrames + 1, cmdTag := tag }
    else
      Dev.commandDone (d.sessionMod f.sid fun s => { s with cmdBytes := [], cmdFrames := 0, cmdTag := 0 }) f.sid bytes f.more tag

/-- An event record as the wire carries it (R73). -/
def EvRec.wire (r : EvRec) : List Byte :=
  beBytes 24 (r.id * 2 ^ 181 + r.sev * 2 ^ 179 + (if r.lost then 2 ^ 178 else 0) + r.rep * 2 ^ 170 + r.arg * 2 ^ 152 + t96 r.time)

/-- Queued records of a session leave in one EVENT frame of at most 32 (R73, R74); each record sent more than 2 µs after its raise is
counted and raises event 70, at most once per 1 ms. -/
def Dev.eventSend (d : Dev) (n : Nat) : Dev :=
  let s := d.session n
  let rs := s.evq.take 32
  if ! d.sessionOpen n || rs.isEmpty || ! d.windowOpen n || ! d.cpUsable (d.sessPort n) then d
  else
    let d1 := d.sessionMod n fun s => { s with evq := s.evq.drop 32 }
    let d1 := d1.sendNumbered n { port := 0, typ := 5, code := 0, sid := n, payload := rs.flatMap EvRec.wire }
    (rs.filter fun r => decide (r.raised + us 2 < d.now)).foldl (fun (d : Dev) _ =>
      (d.count (Ct.TVX_EVT_LATE 0) 1).raiseLimited Ev.TVX_EVT_LATE 0 unitDev (ms 1)) d1

/-- A BULK frame leaves the export buffer within the port's BULK share (R77); with its last frame the ageing history ends (R349). -/
def Dev.bulkSend (d : Dev) (n : Nat) : Dev :=
  let d := d.historyPut n
  let k := d.sessPort n
  match (d.session n).bulkq with
  | f :: rest =>
    if ! d.sessionOpen n || ! d.windowOpen n || ! d.cpUsable k || decide (d.now < d.ctl.bulkNext.getD k 0) then d
    else
      let t := ns (d.cpWireBytes k f.payload.length * 8) / 10
      let share := atLeast1 (d.fget F.TVX_CTL.BULK_SHARE [])
      let ended := f.payload.getD 1 0 == 2 && ! rest.any fun (x : CpFrame) => x.payload.getD 1 0 == 2
      let d1 := d.sessionMod n fun s => { s with bulkq := rest, history := s.history && ! ended }
      let d1 := { d1 with ctl := { d1.ctl with exportUsed := d1.ctl.exportUsed - f.payload.length,
                                               bulkNext := d1.ctl.bulkNext.set k (d.now + t * 16 / share) } }
      d1.sendNumbered n f
  | [] => d

/-- The heartbeat interval (TVX_CTL.HB_INT). -/
def Dev.hbInt (d : Dev) : Nat := us (100 * atLeast1 (d.fget F.TVX_CTL.HB_INT []))

/-- The retransmission timeout of a session expires (R69): the frames are sent again, alternating between the ports while the other
has link; after RETRIES timeouts in a row the session is lost, and the boot ROM's exchange abandons its frames. -/
def Dev.retransmit (d : Dev) (n : Nat) : Dev :=
  let s := d.sess n
  if s.rto = 0 ∨ ¬ d.since s.rtoStart s.rto ∨ s.again.isEmpty then d
  else if atLeast1 (d.fget F.TVX_CTL.RETRIES []) ≤ s.retries + 1 then
    if n < 8 then d.endSession n (some Ev.TVX_SESSION_LOST)
    else d.sessMod n fun s => { s with unacked := [], retries := 0, rto := 0 }
  else
    let cur := d.sessPort n
    let swap := ! s.otherPort && d.cpUsable (1 - cur)
    let d := d.sessMod n fun s => { s with retries := s.retries + 1, rto := min (us 6400) (2 * s.rto), rtoStart := d.now, otherPort := swap }
    d.resend n (if swap then 1 - cur else cur)

/-- A control port gains block lock (R54, R63): its mode, event 64, one ADVERTISE. -/
def Dev.cpLinkUp (d : Dev) (k : Nat) (fec : Bool) : Dev :=
  if 2 ≤ k ∨ d.cpLink k ∨ ¬ d.fbit F.CTL_CP.EN [k] then d
  else
    let m := d.fget F.CTL_CP.MODE [k]
    let mode := if m = 1 ∨ m = 2 then m else if d.ctl.inKr.getD k true then 1 else 2
    let d := d.fsets [(F.CTL_CP.LINK, 1), (F.CTL_CP.CUR_MODE, mode),
      (F.CTL_CP.FEC_ACT, if mode = 1 ∧ d.fbit F.CTL_CP.FEC [k] ∧ fec then 1 else 0)] [k]
    let d := { d with ctl := { d.ctl with hbAt := d.ctl.hbAt.set k d.now } }
    let d := (d.raise Ev.CTL_LINK k unitDev).advertise k discoveryMac
    (List.range 9).foldl (fun (d : Dev) n => if d.sessPort n = k then d.pump n else d) d

/-- A control port loses block lock, or its PHY is put in reset (R54, R70): its sessions move, or both ports are down. -/
def Dev.cpLinkDown (d : Dev) (k : Nat) : Dev :=
  if 2 ≤ k ∨ ¬ d.cpLink k then d
  else
    let d := d.fsets [(F.CTL_CP.LINK, 0), (F.CTL_CP.CUR_MODE, 0), (F.CTL_CP.FEC_ACT, 0)] [k]
    let d := { d with ctl := { d.ctl with inKr := d.ctl.inKr.set k true, modeSince := d.ctl.modeSince.set k d.now } }
    let d := d.raise Ev.CTL_LINK k unitDev
    if d.cpLink (1 - k) then d.failover k else d.raise Ev.CTL_BOTH_DOWN 0 unitDev

/-- The mode search of a port begins again in KR (R54). -/
def Dev.cpSearch (d : Dev) (k : Nat) : Dev :=
  { d with ctl := { d.ctl with inKr := d.ctl.inKr.set k true, modeSince := d.ctl.modeSince.set k d.now } }

/-- A write of CTL_CP[k] (R54, R80): EN written 1 or MODE written AUTO restarts the search; EN = 0 takes the link down. -/
def Dev.cpWrite (d : Dev) (sq c k : Nat) (v m : Word) : Dev :=
  let en := m.getLsbD 63
  let auto := (wbits m 62 61 == 3) && (wbits v 62 61 == 0 || wbits v 62 61 == 3) && d.storeAccepted .CTL_CP [k] v m
  let wasDown := ! d.fbit F.CTL_CP.EN [k]
  let d := d.storeReg sq c .CTL_CP [k] v m
  if en && ! v.getLsbD 63 then d.cpLinkDown k
  else if ! d.cpLink k && ((en && v.getLsbD 63 && wasDown) || auto || (en && v.getLsbD 63)) then d.cpSearch k
  else d

/-- CTL_SAK_CMD is written with GO = 1 (R58): the staged key goes into the slot, or the slot is invalidated; GO then reads 0 and the
key registers are cleared. A port that MACsec had stopped runs again once its transmitting slot can send. -/
def Dev.sakGo (d : Dev) : Dev :=
  let k := d.fget F.CTL_SAK_CMD.PORT []
  let dir := d.fget F.CTL_SAK_CMD.DIR []
  let slot := d.fget F.CTL_SAK_CMD.SA []
  let pn := d.fget F.CTL_SAK_CMD.PN []
  let x : Sa :=
    if d.fbit F.CTL_SAK_CMD.CLEAR [] then {}
    else { valid := true, an := d.fget F.CTL_SAK_CMD.AN [], pn := pn, low := pn, sci := if dir = 1 then d.rget .CTL_SAK_SCI [] else 0,
           key := (List.range 4).map fun w => d.rget .CTL_SAK_KEY [w] }
  let d := (List.range 4).foldl (fun (d : Dev) w => d.rset .CTL_SAK_KEY [w] 0) d
  let d := (d.fset F.CTL_SAK_CMD.GO [] 0).saSet k dir slot x
  let d := if dir = 0 ∧ (d.sa k 0 (d.fgetB F.CTL_MSEC.TXSA [k])).usable then
      { d with ctl := { d.ctl with stopped := d.ctl.stopped.filter (· != k) } } else d
  (List.range 9).foldl (fun (d : Dev) n => if d.sessPort n = k then d.pump n else d) d

end Sys2Proof.Machine
end

