-- ==== Sys2Proof/Machine/CtlCmds.lean ====
section
/-! DEFINITION. The commands of chapter 03: the control ports, discovery, sessions, MACsec keys and COMMANDs. -/

namespace Sys2Proof.Machine

set_option cleanup.letToHave false

/-- A change while the control-port pair is powered, at instant t; a port that MACsec stops hands its sessions over (R58). -/
def Dev.ctl' (d : Dev) (t : Nat) (f : Dev → Dev) : Dev :=
  let d := d.advanceTo t
  if d.up then Dev.settlePorts d (f d) else d

/-- A frame of type and code given, past the screens of the port, on to `k`. -/
def Dev.rxType (d : Dev) (f : TvxRx) (p : Bool) (k : Dev → Dev) : Dev := d.rxTvx f fun d => if p then k d else d

/-- CP_LINK_UP (R54, R63); `fec` says that the partner asks for Clause 74 FEC. -/
def execCpLinkUp (t k : Nat) (fec : Bool) (s : State) : Out := s.run fun d => d.ctl' t fun d => d.cpLinkUp k fec

/-- CP_LINK_LOSS (R70). -/
def execCpLinkLoss (t k : Nat) (s : State) : Out := s.run fun d => d.ctl' t fun d => d.cpLinkDown k

/-- CP_MODE_ALTERNATE (R54). -/
def execCpModeAlternate (t k : Nat) (s : State) : Out :=
  s.run fun d => d.ctl' t fun d =>
    let m := d.fget F.CTL_CP.MODE [k]
    if k < 2 ∧ d.fbit F.CTL_CP.EN [k] ∧ ¬ d.cpLink k ∧ (m = 0 ∨ m = 3) ∧ d.since (d.ctl.modeSince.getD k 0) (ms 500) then
      { d with ctl := { d.ctl with inKr := lmod d.ctl.inKr k (!·), modeSince := d.ctl.modeSince.set k d.now } }
    else d

/-- CP_CONFIG_WRITE (R54, R80). -/
def execCpConfigWrite (sq c k : Nat) (v : Word) (s : State) : Out :=
  s.run fun d => d.sw fun d => if k < 2 then Dev.settlePorts d (d.cpWrite sq c k v allOnes) else d

/-- CP_FRAME_DISCARD (R53): a MAC control frame, or one of more than 9,000 B of MAC client data. -/
def execCpFrameDiscard (k : Nat) (control : Bool) (len : Nat) (s : State) : Out :=
  s.run fun d => d.sw fun d =>
    if k < 2 ∧ d.cpLink k ∧ (control ∨ 9000 < len) then d.count (Ct.TVX_RX_DISCARD 0) 1 else d

/-- TVX_MALFORMED (R60). -/
def execTvxMalformed (t : Nat) (f : TvxRx) (s : State) : Out := s.run fun d => d.ctl' t fun d => d.rxTvx f id

/-- DISCOVER_SOLICIT (R63). -/
def execDiscoverSolicit (t : Nat) (f : TvxRx) (s : State) : Out :=
  s.run fun d => d.ctl' t fun d => d.rxType f (f.typ == 1 && f.code == 0) fun d => d.advertise f.port f.src

/-- DISCOVER_OPEN (R64). -/
def execDiscoverOpen (t : Nat) (f : TvxRx) (s : State) : Out :=
  s.run fun d => d.ctl' t fun d => d.rxType f (f.typ == 1 && f.code == 2) fun d => d.openRx f

/-- DISCOVER_CLOSE (R67). -/
def execDiscoverClose (t : Nat) (f : TvxRx) (s : State) : Out :=
  s.run fun d => d.ctl' t fun d => d.rxType f (f.typ == 1 && f.code == 4) fun d => d.endSession f.sid (some Ev.TVX_SESSION)

/-- HEARTBEAT_RX (R78). -/
def execHeartbeatRx (t : Nat) (f : TvxRx) (s : State) : Out :=
  s.run fun d => d.ctl' t fun d => d.rxType f (f.typ == 7) fun d =>
    if f.sid < 8 then d.rxLive f.sid f else if d.imageLoaded then d else d.rxLive bootSess f

/-- ADVERTISE_TIMER (R63). -/
def execAdvertiseTimer (t : Nat) (s : State) : Out :=
  s.run fun d => d.ctl' t fun d =>
    if d.img.boot = .advertising ∧ (d.img.advAt.all fun t0 => d.since t0 (ms 100)) then
      Dev.advertiseAll { d with img := { d.img with advAt := some d.now } }
    else d

/-- ACK_HEARTBEAT (R69). -/
def execAckHeartbeat (t n : Nat) (s : State) : Out :=
  s.run fun d => d.ctl' t fun d => if (d.sess n).ackDue.any fun a => decide (a ≤ d.now) then d.sessHeartbeat n 1 else d

/-- TVX_RETRANSMIT (R69). -/
def execTvxRetransmit (t n : Nat) (s : State) : Out := s.run fun d => d.ctl' t fun d => d.retransmit n

/-- SESSION_HEARTBEAT_MISS (R67). -/
def execSessionHeartbeatMiss (t n : Nat) (s : State) : Out :=
  s.run fun d => d.ctl' t fun d =>
    if d.since (d.session n).lastRx (d.hbInt * atLeast1 (d.fget F.TVX_CTL.HB_MISS [])) then d.endSession n (some Ev.TVX_SESSION_LOST) else d

/-- SESSION_CLOSE_WRITE (R67). -/
def execSessionCloseWrite (n : Nat) (s : State) : Out := s.run fun d => d.ctl' d.now fun d => d.closeWrite n

/-- HEARTBEAT_SEND (R78): of session n, or with SID 0xFF on port n − 8. -/
def execHeartbeatSend (t n : Nat) (s : State) : Out :=
  s.run fun d => d.ctl' t fun d =>
    if n < 8 then
      if d.sessionOpen n ∧ d.since (d.session n).lastTx d.hbInt then d.sessHeartbeat n 0 else d
    else if n < 10 ∧ d.cpLink (n - 8) ∧ d.since (d.ctl.hbAt.getD (n - 8) 0) d.hbInt then
      Dev.portHeartbeat { d with ctl := { d.ctl with hbAt := d.ctl.hbAt.set (n - 8) d.now } } (n - 8) d.stateCode
    else d

/-- EVENT_RECORD_SEND (R74). -/
def execEventRecordSend (t n : Nat) (s : State) : Out := s.run fun d => d.ctl' t fun d => d.eventSend n

/-- BULK_FRAME_SEND (R77). -/
def execBulkFrameSend (t n : Nat) (s : State) : Out := s.run fun d => d.ctl' t fun d => d.bulkSend n

/-- CTL_SAK_CMD is written (R58). -/
def Dev.sakWrite (d : Dev) (w : Word) : Dev :=
  let d := d.storeReg 0 0 .CTL_SAK_CMD [] w allOnes
  if w.getLsbD 63 then d.sakGo else d

/-- SAK_INSTALL (R58). -/
def execSakInstall (w : Word) (s : State) : Out :=
  s.run fun d => d.ctl' d.now fun d => if w.getLsbD 63 ∧ ¬ w.getLsbD 57 then d.sakWrite w else d

/-- SAK_CLEAR (R58). -/
def execSakClear (w : Word) (s : State) : Out :=
  s.run fun d => d.ctl' d.now fun d => if w.getLsbD 63 ∧ w.getLsbD 57 then d.sakWrite w else d

/-- LOAD_RUN (R71): a COMMAND frame whose COMMAND has OP 0, or an OP that R71 does not list. -/
def execLoadRun (t : Nat) (f : TvxRx) (s : State) : Out :=
  s.run fun d => d.ctl' t fun d =>
    d.rxType f (f.typ == 3 && d.commandOp f != 1 && d.commandOp f != 2) fun d => d.commandRx f

/-- RUN (R71). -/
def execRun (t : Nat) (f : TvxRx) (s : State) : Out :=
  s.run fun d => d.ctl' t fun d => d.rxType f (f.typ == 3 && d.commandOp f == 1) fun d => d.commandRx f

/-- ABORT (R71). -/
def execAbort (t : Nat) (f : TvxRx) (s : State) : Out :=
  s.run fun d => d.ctl' t fun d => d.rxType f (f.typ == 3 && d.commandOp f == 2) fun d => d.commandRx f

end Sys2Proof.Machine
end

