-- ==== Sys2Proof/Machine/LaneCmds.lean ====
section
/-! DEFINITION. The commands of chapter 13: bring-up, lane care, sparing and the fault injector (R312 to R315). -/

namespace Sys2Proof.Machine

set_option cleanup.letToHave false

/-- A change of a port's state while the device is in Active; ports beyond 1,023 do not exist. -/
def Dev.portAt (d : Dev) (t p : Nat) (f : Dev → Dev) : Dev := d.path t fun d => if p < 1024 then f d else d

/-- A change of a lane's state while the device is in Active; the device has 1,056 lanes. -/
def Dev.laneAt (d : Dev) (t n : Nat) (f : Dev → Dev) : Dev := d.path t fun d => if n < 1056 then f d else d

/-- PORT_ENABLE (R292); `bad` are the rows that the self-test of a domain now powered on finds failing (R405). -/
def execPortEnable (p : Nat) (bad : List Nat) (s : State) : Out := s.run fun d => d.sw fun d => if p < 1024 then d.portEnable p bad else d

/-- PORT_DISABLE (R293). -/
def execPortDisable (p : Nat) (s : State) : Out := s.run fun d => d.sw fun d => if p < 1024 then d.portDisable p else d

/-- AN_COMPLETE (R294). -/
def execAnComplete (t p : Nat) (rates : List Nat) (fec : Nat) (lpi : Bool) (rec' : List Nat) (s : State) : Out :=
  s.run fun d => d.portAt t p fun d => d.anComplete p rates fec lpi rec'

/-- AN_RESTART (R293). -/
def execAnRestart (t p : Nat) (s : State) : Out := s.run fun d => d.portAt t p fun d => d.anRestart p

/-- TRAIN_COMPLETE (R293). -/
def execTrainComplete (t p : Nat) (margins inv : List Nat) (theirs : Nat) (s : State) : Out :=
  s.run fun d => d.portAt t p fun d => d.trainComplete p margins inv theirs

/-- TRAIN_TIMEOUT (R295): `failed` are the lanes that did not train. -/
def execTrainTimeout (t p : Nat) (failed : List Nat) (s : State) : Out := s.run fun d => d.portAt t p fun d => d.trainTimeout p failed

/-- RETRAIN_DELAY (R295). -/
def execRetrainDelay (t p : Nat) (s : State) : Out := s.run fun d => d.portAt t p fun d => d.retryDue p

/-- ASYM_MEASURED (R299). -/
def execAsymMeasured (t p rx tx : Nat) (s : State) : Out := s.run fun d => d.portAt t p fun d => d.asymMeasured p rx tx

/-- ALIGN_COMPLETE (R293). -/
def execAlignComplete (t p : Nat) (rev perm : Bool) (inv : List Nat) (s : State) : Out :=
  s.run fun d => d.portAt t p fun d => d.alignComplete p rev perm inv

/-- ALIGN_TIMEOUT (R293). -/
def execAlignTimeout (t p : Nat) (s : State) : Out := s.run fun d => d.portAt t p fun d => d.alignTimeout p

/-- LINK_LOSS (R296): `lost` are the lanes that lost signal or lock. -/
def execLinkLoss (t p : Nat) (lost : List Nat) (s : State) : Out := s.run fun d => d.portAt t p fun d => d.linkLoss p lost

/-- PORT_RETRAIN (R293): LN_PCTL.RETRAIN is written 1. -/
def execPortRetrain (p : Nat) (s : State) : Out := s.run fun d => d.sw fun d => if p < 1024 then d.retrain p else d

/-- LOOP_SET (R302): LN_PCTL.LOOP is written v ≠ 0. -/
def execLoopSet (p v : Nat) (s : State) : Out := s.run fun d => d.sw fun d => if p < 1024 ∧ v % 4 ≠ 0 then d.loopWrite p v else d

/-- LOOP_CLEAR (R302). -/
def execLoopClear (p : Nat) (s : State) : Out := s.run fun d => d.sw fun d => if p < 1024 then d.loopWrite p 0 else d

/-- DORMANT_SET (R305). -/
def execDormantSet (p : Nat) (s : State) : Out := s.run fun d => d.sw fun d => if p < 1024 then d.dormantWrite p 1 else d

/-- DORMANT_EXIT (R305). -/
def execDormantExit (p : Nat) (s : State) : Out := s.run fun d => d.sw fun d => if p < 1024 then d.dormantWrite p 0 else d

/-- ADAPT_FREEZE (R300). -/
def execAdaptFreeze (t p : Nat) (s : State) : Out := s.run fun d => d.portAt t p fun d => d.freeze p

/-- ADAPT_SNAPSHOT (R301). -/
def execAdaptSnapshot (t n : Nat) (s : State) : Out := s.run fun d => d.laneAt t n fun d => d.snapshot n

/-- MARGIN_MEASURE (R301): lane n measures the margin m. -/
def execMarginMeasure (t n m : Nat) (s : State) : Out := s.run fun d => d.laneAt t n fun d => d.marginMeasure n (m % 256)

/-- SYMBOL_TRIGGER (R309): `cnt` symbols of lane n were corrected within 1 s. -/
def execSymbolTrigger (t n cnt : Nat) (inj : Bool) (s : State) : Out := s.run fun d => d.laneAt t n fun d => d.symbolTrigger n cnt inj

/-- TX_QUIET_ENTER (R303). -/
def execTxQuietEnter (t p : Nat) (s : State) : Out := s.run fun d => d.portAt t p fun d => d.txQuiet p

/-- TX_QUIET_EXIT (R303). -/
def execTxQuietExit (t p : Nat) (s : State) : Out := s.run fun d => d.portAt t p fun d => d.txQuietExit p

/-- QUIET_WAKE_BEFORE_OPENING (R304). -/
def execQuietWakeBeforeOpening (t p : Nat) (s : State) : Out := s.run fun d => d.portAt t p fun d => d.wakeBefore p

/-- LPI_REFRESH (R303). -/
def execLpiRefresh (t p : Nat) (s : State) : Out := s.run fun d => d.portAt t p fun d => d.lpiRefresh p

/-- RX_QUIET_ENTER (R303). -/
def execRxQuietEnter (t p : Nat) (s : State) : Out := s.run fun d => d.portAt t p fun d => d.rxQuiet p true

/-- RX_QUIET_EXIT (R303). -/
def execRxQuietExit (t p : Nat) (s : State) : Out := s.run fun d => d.portAt t p fun d => d.rxQuiet p false

/-- LANE_GROUP_POWER_ON_DONE (R306). -/
def execLaneGroupPowerOnDone (t g : Nat) (s : State) : Out := s.run fun d => d.path t fun d => if g < 66 then d.groupDone g else d

/-- LANE_FAULT (R307). -/
def execLaneFault (t n k : Nat) (s : State) : Out := s.run fun d => d.laneAt t n fun d => d.laneFault n k

/-- LANE_FAULT_CLEAR (R307). -/
def execLaneFaultClear (t n k : Nat) (s : State) : Out := s.run fun d => d.laneAt t n fun d => d.laneFaultClear n k

/-- LANE_SPARE_GO (R309): LN_SPARE[sl] is written with GO = 1 and TARGET = i. -/
def execLaneSpareGo (sl i : Nat) (s : State) : Out :=
  s.run fun d => d.sw fun d => if sl < 32 then (d.fset F.LN_SPARE.TARGET [sl] i).spareGo sl else d

/-- SPARE_TRAIN_DONE (R309). -/
def execSpareTrainDone (t sl : Nat) (ok : Bool) (s : State) : Out := s.run fun d => d.path t fun d => d.spareTrained sl ok

/-- SPARE_SWITCH (R309). -/
def execSpareSwitch (t sl : Nat) (s : State) : Out := s.run fun d => d.path t fun d => d.spareSwitch sl

/-- The port runs a Reed-Solomon FEC (R290, R314). -/
def Dev.portRs (d : Dev) (p : Nat) : Bool := decide (2 ≤ (d.port p).fec)

/-- INJ_CTL.EN is written 1 (R312, R314, R129). -/
def Dev.injEnable (d : Dev) (p : Nat) : Dev :=
  let s := d.portSlice p
  let mode := d.fget F.INJ_CTL.MODE [p]
  if d.fuses.deadbolt then d.raise Ev.IMG_DEADBOLT_DENY 0 unitDev
  else if d.fbit F.INJ_CTL.EN [p] then d
  else if (d.portList.any fun q => q != p && d.fbit F.INJ_CTL.EN [q] && d.portSlice q == s) || decide (6 ≤ mode) || (mode == 5 && ! d.portRs p) then
    d.raise Ev.LN_CFGERR p (d.unitPort p)
  else (d.fset F.INJ_CTL.EN [p] 1).portMod p id

/-- The frames that the injector of a port holds are released in a given order (R314, R315). -/
def Dev.injRelease (d : Dev) (p : Nat) (l : List Nat) : Dev :=
  let d := l.foldl (fun (d : Dev) i => d.copyMod i fun (c : Copy) => { c with held := false, injDone := true }) d
  d.portMod p fun x => { x with held := [], heldUntil := none, release := x.release ++ l }

/-- The injector of a port stops (R315): held frames are released in arrival order. -/
def Dev.injDisable (d : Dev) (p : Nat) : Dev := (d.fset F.INJ_CTL.EN [p] 0).injRelease p (d.port p).held

/-- The copy that stands at the injector of a port whose mode is m. -/
def Dev.atInjector (d : Dev) (p m : Nat) : Option Copy :=
  match d.outstanding p with
  | some c => if d.fbit F.INJ_CTL.EN [p] && d.fget F.INJ_CTL.MODE [p] == m && decide (12 ≤ c.estage) && ! c.injDone && ! d.fuses.deadbolt then some c else none
  | none => none

/-- The 8 bytes of the pattern are there, or the frame has ended. -/
def Dev.injReady (d : Dev) (p : Nat) (c : Copy) : Bool := c.ended || decide (d.fget F.INJ_CTL.MOFF [p] + 8 ≤ c.full.length)

/-- A frame matches the pattern, or PEN is 0 (R313); a frame too short to hold the pattern does not. -/
def Dev.injMatch (d : Dev) (p : Nat) (c : Copy) : Bool :=
  let b := slice c.full (d.fget F.INJ_CTL.MOFF [p]) 8
  ! d.fbit F.INJ_CTL.PEN [p] || (b.length == 8 && (BitVec.ofNat 64 (beNat b) &&& d.rget .INJ_MATCH_M [p]) == (d.rget .INJ_MATCH_V [p] &&& d.rget .INJ_MATCH_M [p]))

/-- A frame at the injector is judged (R313): `act` on a selected frame, which is counted; any other passes. -/
def Dev.inject (d : Dev) (p m : Nat) (act : Dev → Copy → Dev) : Dev :=
  match d.atInjector p m with
  | none => d
  | some c =>
    if ! d.injReady p c || (m == 4 && (d.port p).held == [c.id]) then d
    else
      let hit := d.injMatch p c
      let (d, drawn) := if hit then d.chance (d.fget F.INJ_CTL.K [p]) else (d, false)
      if drawn then act (d.count (Ct.INJ_CNT p) 1) c else d.copyMod c.id fun (x : Copy) => { x with injDone := true }

/-- DROP (R314): the frame is not sent, and its cells are freed. -/
def Dev.injDrop (d : Dev) (p : Nat) : Dev := d.inject p 1 fun d c => d.copyGone c.id

/-- CORRUPT (R314): XMASK 0 acts as 0xFF. -/
def Dev.injCorrupt (d : Dev) (p : Nat) : Dev :=
  d.inject p 2 fun d c =>
    let x := d.fget F.INJ_CTL.XMASK [p]
    let at' := d.fget F.INJ_CTL.MOFF [p] + d.fget F.INJ_CTL.OFF [p]
    let fcsv := d.fbit F.INJ_CTL.FCSV [p]
    d.copyMod c.id fun (y : Copy) => { y with corrupt := some (at', if x = 0 then 0xFF else x, fcsv), injDone := true }

/-- N of REORDER: 2 to 16 (INJ_CTL). -/
def Dev.injN (d : Dev) (p : Nat) : Nat := max 2 (min 16 (d.fget F.INJ_CTL.N [p]))

/-- The bytes that the slice store of a port's injector holds. -/
def Dev.injHeld (d : Dev) (p : Nat) : Nat := (((d.port p).held.filterMap d.copy?).map fun (c : Copy) => c.full.length + 4).sum

/-- A frame joins those that REORDER holds; the N-th releases them in reverse order (R314). -/
def Dev.injHold (d : Dev) (p : Nat) (c : Copy) : Dev :=
  let now := d.now
  let held := (d.port p).held ++ [c.id]
  let d := d.copyMod c.id fun (x : Copy) => { x with held := true }
  let d := d.portMod p fun x => { x with held := held, heldUntil := if x.heldUntil.isSome then x.heldUntil else some (now + us 64) }
  if d.injN p ≤ held.length then d.injRelease p held.reverse else d

/-- REORDER (R314): a frame for which the 256 KiB slice store has no room releases the held ones in reverse order. -/
def Dev.injReorder (d : Dev) (p : Nat) : Dev :=
  if (d.port p).held.isEmpty then d.inject p 3 fun d c => d.injHold p c
  else match d.atInjector p 3 with
    | none => d
    | some c =>
      if 262144 < d.injHeld p + c.full.length + 4 then d.injRelease p (d.port p).held.reverse
      else Dev.injHold (d.count (Ct.INJ_CNT p) 1) p c

/-- The 64 µs of REORDER have passed (R314). -/
def Dev.injTimeout (d : Dev) (p : Nat) : Dev :=
  match (d.port p).heldUntil with
  | some t => if t ≤ d.now && d.fget F.INJ_CTL.MODE [p] == 3 && ! (d.port p).held.isEmpty then d.injRelease p (d.port p).held.reverse else d
  | none => d

/-- DELAY (R314): the frame's hold starts; later frames of the port wait behind it. -/
def Dev.injDelay (d : Dev) (p : Nat) : Dev :=
  d.inject p 4 fun d c =>
    let t := d.now + ns (16 * d.fget F.INJ_CTL.DELAY [p])
    d.portMod p fun x => { x with held := [c.id], heldUntil := some t }

/-- A delayed frame's hold has ended and the whole frame is present (R314). -/
def Dev.injDelayEnd (d : Dev) (p : Nat) : Dev :=
  match (d.port p).heldUntil, d.atInjector p 4 with
  | some t, some c =>
    if t ≤ d.now && c.ended && (d.port p).held == [c.id] then
      (d.copyMod c.id fun (x : Copy) => { x with injDone := true }).portMod p fun x => { x with held := [], heldUntil := none }
    else d
  | _, _ => d

/-- SYMBOL (R314): a codeword of the lane is drawn with probability 2^-K and takes its errors. -/
def Dev.injSymbol (d : Dev) (p : Nat) : Dev :=
  if ! d.fbit F.INJ_CTL.EN [p] || d.fget F.INJ_CTL.MODE [p] != 5 || ! d.portUp p || d.fuses.deadbolt then d
  else
    let (d, drawn) := d.chance (d.fget F.INJ_CTL.K [p])
    if drawn then d.count (Ct.INJ_CNT p) 1 else d

/-- INJECTOR_ENABLE (R312). -/
def execInjectorEnable (p : Nat) (s : State) : Out := s.run fun d => d.sw fun d => if p < 1024 then d.injEnable p else d

/-- INJECTOR_DISABLE (R315, R129). -/
def execInjectorDisable (p : Nat) (s : State) : Out :=
  s.run fun d => d.sw fun d => if 1024 ≤ p then d else if d.fuses.deadbolt then d.raise Ev.IMG_DEADBOLT_DENY 0 unitDev else d.injDisable p

/-- INJECT_DROP (R314). -/
def execInjectDrop (p : Nat) (s : State) : Out := s.run fun d => d.pathNow fun d => d.injDrop p

/-- INJECT_CORRUPT (R314). -/
def execInjectCorrupt (p : Nat) (s : State) : Out := s.run fun d => d.pathNow fun d => d.injCorrupt p

/-- INJECT_REORDER (R314). -/
def execInjectReorder (t p : Nat) (s : State) : Out := s.run fun d => d.path t fun d => d.injReorder p

/-- REORDER_TIMEOUT (R314). -/
def execReorderTimeout (t p : Nat) (s : State) : Out := s.run fun d => d.path t fun d => d.injTimeout p

/-- INJECT_DELAY (R314). -/
def execInjectDelay (t p : Nat) (s : State) : Out := s.run fun d => d.path t fun d => d.injDelay p

/-- DELAY_RELEASE (R314). -/
def execDelayRelease (t p : Nat) (s : State) : Out := s.run fun d => d.path t fun d => d.injDelayEnd p

/-- INJECT_SYMBOL (R314): one codeword on the lane of INJ_SYM.LANE. -/
def execInjectSymbol (p : Nat) (s : State) : Out := s.run fun d => d.pathNow fun d => d.injSymbol p

end Sys2Proof.Machine
end

