-- ==== Sys2Proof/Machine/MatchCmds.lean ====
section
/-! DEFINITION. The commands of chapters 07 and 08 and the flowlet flush of R410: stages, sash swaps, the table command path, the table
engine's own work, multicast groups and the bad-entry log. -/

namespace Sys2Proof.Machine

set_option cleanup.letToHave false

/-- MATCH_STAGE (R149): frame, or with `eg` copy, f passes its next stage; `bad` are the 16 B units of table memory whose read in it
finds an uncorrectable error, `ue` says that the read of the action word does. -/
def execMatchStage (eg : Bool) (f : Nat) (bad : List Nat) (ue : Bool) (s : State) : Out :=
  s.runTables fun d => d.pathNow fun d => if eg then d.egressStage f bad ue else d.ingressStage f bad ue

/-- A swap of group g is triggered by a write of MAI_SWAP[sl] (R163). -/
def Dev.swapGo (d : Dev) (sl scope g : Nat) : Dev :=
  let d := d.fsets [(F.MAI_SWAP.GO, 0), (F.MAI_SWAP.SCOPE, scope), (F.MAI_SWAP.GROUP, g)] [sl]
  if scope = 1 then d.swapAll (g % 64) else d.swapOne sl (g % 64)

/-- SASH_SWAP_TRIGGER (R163): a write of MAI_SWAP[sl] with GO = 1. -/
def execSashSwapTrigger (sl scope g : Nat) (s : State) : Out :=
  s.run fun d => d.sw fun d => if sl < 32 ∧ d.sliceOn sl then d.swapGo sl (scope % 2) (g % 64) else d

/-- SASH_SWAP_TAKES_EFFECT (R164): a packet boundary of slice sl, at which no frame need be bound while its stages hold no vector. -/
def execSashSwapTakesEffect (sl : Nat) (s : State) : Out :=
  s.run fun d => d.pathNow fun d => if d.sliceOn sl then d.swapsNow sl else d

/-- SASH_SETTLE_END (R165). -/
def execSashSettleEnd (sl : Nat) (s : State) : Out := s.runTables fun d => d.pathNow fun d => d.settleEnd sl

/-- A write of TBL_CMD[sl] with operation op (R176). -/
def Dev.tblRow (d : Dev) (sl op t sash idx : Nat) : Dev :=
  if sl < 32 then
    d.tblStore sl (BitVec.ofNat 64 (op * 2 ^ 28 + t % 64 * 2 ^ 22 + sash % 2 * 2 ^ 21 + idx % 2 ^ 20))
  else d

/-- TBL_INSERT (R179). -/
def execTblInsert (sl t sash idx : Nat) (s : State) : Out := s.runTables fun d => d.sw fun d => d.tblRow sl 1 t sash idx

/-- TBL_DELETE (R179). -/
def execTblDelete (sl t sash idx : Nat) (s : State) : Out := s.runTables fun d => d.sw fun d => d.tblRow sl 2 t sash idx

/-- TBL_UPDATE (R179). -/
def execTblUpdate (sl t sash idx : Nat) (s : State) : Out := s.runTables fun d => d.sw fun d => d.tblRow sl 3 t sash idx

/-- TBL_LOOKUP (R179). -/
def execTblLookup (sl t sash idx : Nat) (s : State) : Out := s.runTables fun d => d.sw fun d => d.tblRow sl 4 t sash idx

/-- TBL_READ (R179); `bad` as for MATCH_STAGE. -/
def execTblRead (sl t sash idx : Nat) (bad : List Nat) (s : State) : Out :=
  s.runTables fun d => d.sw fun d => (d.markBad sl bad).tblRow sl 5 t sash idx

/-- TBL_WRITE (R179). -/
def execTblWrite (sl t sash idx : Nat) (s : State) : Out := s.runTables fun d => d.sw fun d => d.tblRow sl 6 t sash idx

/-- TBL_AGE (R188). -/
def execTblAge (sl t sash idx : Nat) (s : State) : Out := s.runTables fun d => d.sw fun d => d.tblRow sl 7 t sash idx

/-- TBL_WDATA (R179). -/
def execTblWdata (sl t sash idx : Nat) (s : State) : Out := s.runTables fun d => d.sw fun d => d.tblRow sl 8 t sash idx

/-- TBL_RDATA (R179); `bad` as for MATCH_STAGE. -/
def execTblRdata (sl t sash idx : Nat) (bad : List Nat) (s : State) : Out :=
  s.runTables fun d => d.sw fun d => (d.markBad sl bad).tblRow sl 9 t sash idx

/-- LEARN_APPLY (R184). -/
def execLearnApply (sl : Nat) (s : State) : Out := s.runTables fun d => d.pathNow fun d => d.learnApply sl

/-- LEARN_RING_MESSAGE (R186). -/
def execLearnRingMessage (sl : Nat) (s : State) : Out := s.runTables fun d => d.pathNow fun d => d.ringApply sl

/-- AGEING_PASS_START (R187): unit a of slice sl at instant t. -/
def execAgeingPassStart (t sl a : Nat) (s : State) : Out := s.runTables fun d => d.path t fun d => if sl < 32 ∧ a < 4 then d.ageStart sl a else d

/-- AGEING_STEP (R181). -/
def execAgeingStep (sl a : Nat) (s : State) : Out := s.runTables fun d => d.pathNow fun d => d.ageStepNow sl a

/-- MCG_WRITE (R189). -/
def execMcgWrite (g : Nat) (prune : Bool) (s : State) : Out :=
  s.run fun d => d.sw fun d => if g < 65536 then Dev.mcgWrite (d.fset F.XFS_MCG_CMD.PRUNE [] (if prune then 1 else 0)) g else d

/-- MCG_READ (R189). -/
def execMcgRead (g : Nat) (s : State) : Out := s.run fun d => d.sw fun d => if g < 65536 then d.mcgRead g else d

/-- BADLOG_CLEAR (R191). -/
def execBadlogClear (sl : Nat) (s : State) : Out := s.run fun d => d.sw fun d => if sl < 32 then d.badlogClear sl else d

/-- Every flowlet entry of a slice is cleared (R410). -/
def Dev.flowletFlush (d : Dev) (sl : Nat) : Dev :=
  Dev.fset { d with mat := { d.mat with flowlets := d.mat.flowlets.filter fun (x : Nat × Nat × Nat) => x.1 / 16384 != sl } } F.MAI_FLOWLET.FLUSH [sl] 0

/-- FLOWLET_FLUSH (R410). -/
def execFlowletFlush (sl : Nat) (s : State) : Out := s.run fun d => d.sw fun d => if sl < 32 then d.flowletFlush sl else d

end Sys2Proof.Machine
end

