-- ==== Sys2Proof/Machine/Power.lean ====
section
/-! DEFINITION. The power controller (chapter 15): device states, rails, the capping loop, hints, thermal control and ageing. -/

namespace Sys2Proof.Machine

set_option cleanup.letToHave false

/-- The device enters a state of R334; event 320 at each change. -/
def Dev.setState (d : Dev) (st : DevState) : Dev :=
  let cur := match st with | .active => 2 | .standby => 1 | _ => 0
  Dev.raise (Dev.fset { d with pwr := { d.pwr with dev := st } } F.PWR_STATE.CUR [] cur) Ev.PWR_STATE 0 unitDev

/-- REQ: 3 acts as 1. -/
def Dev.req (d : Dev) : Nat := let v := d.fget F.PWR_STATE.REQ []; if v = 3 then 1 else v

/-- WARM_T in 1/8 °C, held to −40 to 25 °C. -/
def Dev.warmT (d : Dev) : Int := 8 * max (-40) (min 25 (sext 8 (d.fget F.PWR_THERM.WARM_T [])))

/-- A junction sensor in 1/8 °C. -/
def Dev.sensor (d : Dev) (j : Nat) : Int := sext 12 (d.fget F.PWR_TSENS.TEMP [j])

/-- Every junction sensor and every stack reads at least WARM_T (R336). -/
def Dev.warm (d : Dev) : Bool :=
  ((List.range 64).all fun j => decide (d.warmT ≤ d.sensor j)) && (List.range 4).all fun k => decide (d.warmT ≤ 8 * (d.stack k).temp)

/-- The device enters Active (R334, R336): its domains and lane groups are powered, and its enabled ports start bring-up. -/
def Dev.enterActive (d : Dev) (bad : List Nat) : Dev :=
  let d := Dev.fset { d with pwr := { d.pwr with warmSince := none, reqHeld := false } } F.PWR_STATE.WARMING [] 0
  let d := ((d.setState .active).refreshDomains bad).refreshAllGroups
  d.portList.foldl (fun (d : Dev) p => if d.fbit F.LN_PORT.EN [p] then d.bringUp p else d) d

/-- REQ = 2 acts (R334, R336): it is held until an image is loaded, and warm-up comes first where a reading is below WARM_T. -/
def Dev.activate (d : Dev) (bad : List Nat) : Dev :=
  if d.pwr.dev ≠ .standby then d
  else if ! d.fbit F.GLB_PROFILE.LOADED [] then { d with pwr := { d.pwr with reqHeld := true } }
  else if d.fbit F.PWR_STATE.WARMING [] then d
  else if d.warm then d.enterActive bad
  else
    let now := d.now
    (Dev.fset { d with pwr := { d.pwr with warmSince := some now, reqHeld := false } } F.PWR_STATE.WARMING [] 1).refreshDomains bad

/-- The device starts to leave Active (R334): every BUF_PORT[p].HOLD is set. -/
def Dev.drainStart (d : Dev) : Dev :=
  if d.pwr.dev ≠ .active ∨ d.pwr.drainSince.isSome then d
  else
    let now := d.now
    let d : Dev := { d with pwr := { d.pwr with drainSince := some now } }
    (List.range 1024).foldl (fun (d : Dev) p => if d.fbit F.BUF_PORT.HOLD [p] then d else (d.fset F.BUF_PORT.HOLD [p] 1).showBufPort p) d

/-- Warm-up ends without entering Active. -/
def Dev.warmStop (d : Dev) : Dev :=
  (Dev.fset { d with pwr := { d.pwr with warmSince := none, reqHeld := false } } F.PWR_STATE.WARMING [] 0).refreshDomains []

/-- PWR_STATE.REQ is written (R334): 2 Active, 1 Standby, 0 Rest. -/
def Dev.reqWrite (d : Dev) (v : Nat) (bad : List Nat) : Dev :=
  let d := d.fset F.PWR_STATE.REQ [] v
  let d : Dev := { d with pwr := { d.pwr with restAfter := d.req == 0 } }
  if d.req = 2 then d.activate bad else if d.pwr.dev = .active then d.drainStart else d.warmStop

/-- What remains in the data path is discarded (R334): frames not admitted and copies are counted in PWR_STATE_DROP_CNT with event 335, and
every cell and page is free. -/
def Dev.flushPath (d : Dev) : Dev :=
  let left := (d.prs.frames.filter fun (f : Frame) => f.loc != .gone && f.loc != .admitted).length + d.buf.copies.length
  let d := d.buf.copies.foldl (fun (d : Dev) (c : Copy) => d.copyGone c.id) d
  let n := d.buf.cells.length
  let free := fun (k : Nat) => (d.spl.pages.filter fun (x : Nat × PageSt) => pageStack x.1 == k).length
  let d := (List.range 4).foldl (fun (d : Dev) k => d.fsets [(F.SPL_POOL.FREE, d.fget F.SPL_POOL.FREE [k] + free k), (F.SPL_POOL.INFLIGHT, 0)] [k]) d
  let d := d.fsets [(F.BUF_FREE.FREE, d.fget F.BUF_FREE.FREE [] + n), (F.BUF_FREE.INFLIGHT, 0)] []
  let d : Dev := { d with prs := { d.prs with frames := [] },
                          buf := { d.buf with cells := [], voq := [], crossed := [], walk := none },
                          spl := { d.spl with pages := [], fill := [], running := [] } }
  let d := (d.showBuf).showGpool
  let d := (List.range 4).foldl (fun (d : Dev) k => d.showStack k) d
  if left = 0 then d else (d.count (Ct.PWR_STATE_DROP_CNT 0) left).raise Ev.PWR_STATE_DROP 0 unitDev

/-- No frame remains in the data path. -/
def Dev.pathEmpty (d : Dev) : Bool := d.buf.copies.isEmpty && d.prs.frames.all fun (f : Frame) => f.loc == .gone || f.loc == .admitted

/-- The device enters Standby from Active (R334): what remains is discarded, the ports leave UP, and the domains that Standby does not use go
off; entry to Standby asks for a re-plan (R347). -/
def Dev.drainEnd (d : Dev) : Dev :=
  if ! d.pwr.drainSince.any (fun t => d.pathEmpty || d.since t (ms 10)) then d
  else
    let d := d.portList.foldl (fun (d : Dev) p => if d.fbit F.LN_PORT.EN [p] then (d.leaveUp p).bringUp p else d) d
    let d := d.flushPath
    let d : Dev := { d with pwr := { d.pwr with drainSince := none, replanDue := true } }
    let d := ((d.setState .standby).refreshDomains []).refreshAllGroups
    if d.req = 2 then d.activate [] else d

/-- What a device in Rest or tripped still holds of its sessions: nothing, and no CLOSE is sent (R67, R334). -/
def Dev.endAllQuiet (d : Dev) : Dev :=
  let d := (List.range 8).foldl (fun (d : Dev) n => d.rset .TVX_SESSION [n] 0) d
  { d with ctl := { d.ctl with sessions := List.replicate 8 {}, opens := [] }, csq := { d.csq with ctxs := List.replicate 16 {}, ats := [] } }

/-- The HEARTBEAT of R335 on each control port with link: SID 0xFF, CODE 0, device state 4. -/
def Dev.restHeartbeat (d : Dev) : Dev := (List.range 2).foldl (fun (d : Dev) k => d.portHeartbeat k 4) d

/-- The device enters Rest (R334, R335): with KEEP_SPILL the stacks enter self-refresh; every switched domain goes off, the HEARTBEAT leaves,
the sessions end and the control ports lose their links. -/
def Dev.enterRest (d : Dev) : Dev :=
  let d := if d.fbit F.TRN_CTL.KEEP_SPILL [] then (List.range 4).foldl (fun (d : Dev) k => d.srForce k) d else d
  let d : Dev := { d with pwr := { d.pwr with restAfter := false, drainSince := none, warmSince := none, reqHeld := false } }
  let d := d.restHeartbeat.endAllQuiet
  let d := (List.range 2).foldl (fun (d : Dev) k => d.fsets [(F.CTL_CP.LINK, 0), (F.CTL_CP.CUR_MODE, 0), (F.CTL_CP.FEC_ACT, 0)] [k]) d
  ((d.setState .rest).refreshDomains []).refreshAllGroups

/-- Entry to Rest from Standby completes (R334, R335). -/
def Dev.restComplete (d : Dev) : Dev := if d.pwr.dev = .standby ∧ d.pwr.restAfter then d.enterRest else d

/-- A thermal trip (R345, R348): THERMTRIP_N is asserted, VCORE is commanded off, every switched domain goes off, and the device is in Rest,
tripped; frames are discarded as on leaving Active (R334). -/
def Dev.trip (d : Dev) (hot : Int) : Dev :=
  if ! d.up then d
  else
    let d : Dev := { d with pins := { d.pins with thermtripN := false }, clk := { d.clk with voltage := 0, step := none } }
    let d := d.milestone 6 0 (hot / 8).toNat
    let d := if d.active then (d.portList.foldl (fun (d : Dev) p => d.leaveUp p) d).flushPath else d
    let d := d.fsets [(F.TRN_WAKE.TRIPPED, 1), (F.TRN_WAKE.TRIPS, min 511 (d.fget F.TRN_WAKE.TRIPS [] + 1))] []
    d.enterRest

/-- THROT_T in °C, held to 90 to 110. -/
def Dev.throtT (d : Dev) : Int := ((max 90 (min 110 (d.fgetB F.PWR_THERM.THROT_T [])) : Nat) : Int)

/-- HOT in 1/8 °C. -/
def Dev.hot (d : Dev) : Int := sext 12 (d.fget F.PWR_THERM.HOT [])

/-- OP0 is open to the device as a ceiling (R326, R344). -/
def Dev.op0Open (d : Dev) : Bool := ! d.fixedMode && ! d.fbit F.CLK_OP.RETIRED [0]

/-- The operating point of a hint class: 6 and 7 act as 5, and in FIXED mode, or with OP0 retired, OP0 acts as OP1 (R343). -/
def Dev.hintOp (d : Dev) (k : Nat) : Nat :=
  let v := min 5 (d.fgetB F.PWR_HCLASS.OP [k])
  if v = 0 ∧ ! d.op0Open then 1 else v

/-- The hints in force. -/
def Dev.liveHints (d : Dev) : List Hint := d.pwr.hints.filter fun (h : Hint) => h.stop.isSome

/-- The ceiling: OP0 where boost holds, else OP1; at least as fast as the hints ask; no faster than the thermal limit (R343 to R345). -/
def Dev.ceilingNow (d : Dev) (boost : Bool) : Nat :=
  let base := if boost && d.op0Open && decide (d.hot < 8 * (d.fgetB F.PWR_THERM.BOOST_T [] : Int)) then 0 else 1
  max d.pwr.thermal (d.liveHints.foldl (fun c (h : Hint) => min c (d.hintOp h.cls)) base)

/-- TARGET is set, never faster than the thermal limit (R342, R345); in aligned-division mode it stays 1 (R328). -/
def Dev.setTarget (d : Dev) (i : Nat) : Dev := if d.aligned then d else d.fset F.CLK_DVFS.TARGET [] (max d.pwr.thermal (min 5 i))

/-- HINT_START: the hints whose start less LEAD has come take effect (R343). -/
def Dev.hintsStart (d : Dev) : Dev :=
  Dev.showHints { d with pwr := { d.pwr with hints := d.pwr.hints.map fun (h : Hint) => d.hintStep h } }

/-- HINT_END: the hints whose end has come are withdrawn (R343). -/
def Dev.hintsEnd (d : Dev) : Dev :=
  Dev.showHints { d with pwr := { d.pwr with hints := d.pwr.hints.filter fun (h : Hint) => ! h.stop.any fun t => decide (t ≤ d.fab) } }

/-- The enabled rails (R339). -/
def Dev.rails (d : Dev) : List Nat := (List.range 16).filter fun r => d.fbit F.PWR_RAIL.EN [r]

/-- EFF follows CAP, at 70 % while a rail is lost (R340). -/
def Dev.showCap (d : Dev) : Dev :=
  let lost := d.rails.any fun r => d.fbit F.PWR_RAIL.LOST [r]
  let cap := max 450 (min 1250 (d.fgetB F.PWR_CAP.CAP []))
  (d.fset F.PWR_STATUS.RAIL_LOST [] (if lost then 1 else 0)).fset F.PWR_CAP.EFF [] (if lost then cap * 7 / 10 else cap)

/-- One rail's read of READ_POUT (R340): `v` in 0.1 W, 65,536 for a read that failed, more for a rail not read in this round. -/
def Dev.railRead (d : Dev) (r v : Nat) : Dev :=
  if 65536 < v then d
  else if v < 65536 then
    let good := min 3 (mget 0 d.pwr.railGood r + 1)
    let d : Dev := { d with pwr := { d.pwr with railMiss := mdel d.pwr.railMiss r, railGood := mins d.pwr.railGood r good } }
    let d := d.fset F.PWR_RAIL.POUT [r] v
    if good = 3 then d.fset F.PWR_RAIL.LOST [r] 0 else d
  else
    let miss := mget 0 d.pwr.railMiss r + 1
    let d : Dev := { d with pwr := { d.pwr with railMiss := mins d.pwr.railMiss r miss, railGood := mdel d.pwr.railGood r } }
    if miss ≠ 3 ∨ d.fbit F.PWR_RAIL.LOST [r] then d
    else
      let d := (d.fset F.PWR_RAIL.LOST [r] 1).raise Ev.PWR_RAIL_LOST r unitDev
      let vcore := findFirst (fun i => d.fbit F.PWR_RAIL.VCORE [i]) (List.range 16)
      if vcore = some r then d.vregLost else d

/-- A PMBus round (R339 to R341): `reads` are the rails' readings, `status` their STATUS_WORDs, read every eighth round, `est` the estimate
of each rail in 0.1 W, and `avg` the estimate averaged over the round. -/
def Dev.pmbusRound (d : Dev) (reads status est : List Nat) (avg : Nat) : Dev :=
  let d : Dev := { d with pwr := { d.pwr with round := (d.pwr.round + 1) % 8 } }
  let d := d.rails.foldl (fun (d : Dev) r => d.railRead r (reads.getD r 65537)) d
  let d := if d.pwr.round = 0 then d.rails.foldl (fun (d : Dev) r => d.fset F.PWR_RAIL.STATUS [r] (status.getD r 0)) d else d
  let m := (d.rails.map fun r => if d.fbit F.PWR_RAIL.LOST [r] then est.getD r 0 else d.fget F.PWR_RAIL.POUT [r]).sum
  let d := (d.fset F.PWR_STATUS.MEAS [] (min 65535 m)).showCap
  let g := d.fget F.PWR_STATUS.GAIN []
  let ideal : Int := if avg = 0 then g else ((g * m / avg : Nat) : Int)
  let far := decide (15 * m < 100 * (max m avg - min m avg))
  let d := d.fset F.PWR_STATUS.DISAGREE [] (if far then 1 else 0)
  let put := fun (d : Dev) (v : Int) => d.fset F.PWR_STATUS.GAIN [] (max 0 (min 4095 v)).toNat
  if ! far then put { d with pwr := { d.pwr with disagree := 0 } } ((g : Int) + (ideal - g) / 8)
  else if d.pwr.disagree < 15 then { d with pwr := { d.pwr with disagree := d.pwr.disagree + 1 } }
  else (put { d with pwr := { d.pwr with disagree := 0 } } ideal).raise Ev.PWR_DISAGREE 0 unitDev

/-- The hint credit over 10 µs at power p, in 0.1 W (R343): spent above EFF, regained below it while no hint is active. -/
def Dev.creditStep (d : Dev) (p : Nat) : Dev :=
  let eff := 10 * d.fget F.PWR_CAP.EFF []
  let top := 1000 * d.fgetB F.PWR_CAP.CREDIT_MAX []
  let old := d.pwr.creditRem
  let hold := decide (8 * (d.throtT - 5) ≤ d.hot)
  let new := if eff < p then (if hold then old else old - (p - eff)) else if d.liveHints.isEmpty then min top (old + (eff - p)) else old
  let d : Dev := { d with pwr := { d.pwr with creditRem := new } }
  let d := d.fset F.PWR_CAP.CREDIT [] (new / 1000)
  if 0 < old ∧ new = 0 then d.raise Ev.PWR_CREDIT_OUT 0 unitDev else d

/-- The budget in 0.1 W (R342, R343). -/
def Dev.budget (d : Dev) : Nat :=
  let extra := if d.pwr.creditRem = 0 ∨ 8 * (d.throtT - 5) ≤ d.hot then 0
    else d.liveHints.foldl (fun m (h : Hint) => max m (d.fgetB F.PWR_HCLASS.EXTRA [h.cls])) 0
  10 * (d.fget F.PWR_CAP.EFF [] + extra)

/-- What the capping loop measures in an iteration, in 0.1 W unless said otherwise (R342): the estimate before calibration, the power of the
links and of control, that of pipelines and buffer per operating point, the nominal p(0) of boost; and over the last 100 µs, the bits into
spill, and per slice the frames enqueued and their cells with descriptors. -/
structure CapInput where
  raw : Nat
  links : Nat
  control : Nat
  compute : List Nat
  p0 : Nat
  spill : Nat
  frames : List Nat
  cells : List Nat
  deriving DecidableEq, Repr

/-- 16 Tb/s over 100 µs, in bits (R342). -/
def spillMax : Nat := 1600000000

/-- The spill rate predicted at operating point i, in bits per 100 µs (R342). -/
def Dev.spillAt (d : Dev) (x : CapInput) (i : Nat) : Nat :=
  let starts := 200 * d.fget F.CLK_OP.FREQ [i]
  x.spill + ((List.range 32).map fun s =>
    let f := x.frames.getD s 0
    if f = 0 then 0 else (f - starts) * x.cells.getD s 0 * 2048 / f).sum

/-- The power predicted at operating point i with b bits of spill per 100 µs, in units of 0.1 W ÷ 2,000,000 (R342). -/
def CapInput.power (x : CapInput) (i b : Nat) : Nat := (x.links + x.control + x.compute.getD i 0 + 400) * 2000000 + min b spillMax

/-- The operating point that the loop chooses, at most as fast as `top` (R342): the fastest whose power and spill fit; otherwise, of those
whose spill fits, the one with the lowest power; otherwise the fastest. -/
def Dev.chooseOp (d : Dev) (x : CapInput) (top budget : Nat) : Nat :=
  let last := max top (min 5 (d.fgetB F.PWR_CTL.OPMIN []))
  let l := (rangeFrom top (last + 1 - top)).filter fun i => ! d.fbit F.CLK_OP.RETIRED [i]
  let ok := l.filter fun i => decide (d.spillAt x i ≤ spillMax)
  let p := fun i => x.power i (d.spillAt x i)
  match findFirst (fun i => decide (p i ≤ budget * 2000000)) ok with
  | some i => i
  | none => ok.foldl (fun best i => if p i < p best then i else best) (ok.headD (l.headD last))

/-- The largest THROTTLE that meets the budget at operating point i; 0 where none does (R230, R342). -/
def Dev.chooseThrottle (d : Dev) (x : CapInput) (i budget : Nat) : Nat :=
  let meets := fun (t : Nat) => decide (x.power i (min (d.spillAt x i) ((t + 1) * 100000000)) ≤ budget * 2000000)
  (((List.range 16).filter meets).getLast?).getD 0

/-- THROTTLE of every stack is set, at most 3 on a stack held for its temperature (R342, R345). -/
def Dev.setThrottle (d : Dev) (t : Nat) : Dev :=
  (List.range 4).foldl (fun (d : Dev) k => d.fset F.SPL_CTL.THROTTLE [k] (if d.pwr.hotStacks.contains k then min t 3 else t)) d

/-- LIMIT changes; event 321 at info when a cut beyond compute begins (R342). -/
def Dev.setLimit (d : Dev) (v : Nat) : Dev :=
  let old := d.fget F.PWR_STATUS.LIMIT []
  let d := d.fset F.PWR_STATUS.LIMIT [] v
  if 2 ≤ v ∧ old < v then d.raiseSev Ev.PWR_CAP_LIMIT 0 (evArg Ev.PWR_CAP_LIMIT 0) unitDev else d

/-- Cut 3: ports without a selection for LQIDLE enter quiet, whatever QTX_EN is (R342). -/
def Dev.cutLinks (d : Dev) : Dev :=
  d.portList.foldl (fun (d : Dev) p =>
    if d.mayQuiet p && d.since (d.port p).lastSel (ns (100 * atLeast1 (d.fgetB F.PWR_CTL.LQIDLE []))) then
      d.quietEnter p
    else d) d

/-- The cuts, in order, each only as far as needed (R342). -/
def Dev.cut (d : Dev) (x : CapInput) (top budget : Nat) : Dev :=
  let i := d.chooseOp x top budget
  let t := d.chooseThrottle x i budget
  let fits := decide (x.power i (min (d.spillAt x i) ((t + 1) * 100000000)) ≤ budget * 2000000)
  let t := if decide (x.power i (d.spillAt x i) ≤ budget * 2000000) then 15 else t
  let d : Dev := { d with pwr := { d.pwr with belowSince := none } }
  if fits then
    let d : Dev := { d with pwr := { d.pwr with linkCut := false, deeper := 0 } }
    ((d.setTarget i).setThrottle t).setLimit (if t < 15 then 2 else 1)
  else
    let opmin := max top (min 5 (d.fgetB F.PWR_CTL.OPMIN []))
    let all := d.pwr.linkCut
    let deeper := if all && decide (i + d.pwr.deeper < opmin) then d.pwr.deeper + 1 else d.pwr.deeper
    let d : Dev := { d with pwr := { d.pwr with linkCut := true, deeper := deeper } }
    let d := (((d.setTarget (min opmin (i + deeper))).setThrottle t).setLimit 3).cutLinks
    if all then d.raiseSev Ev.PWR_CAP_LIMIT 2 (evArg Ev.PWR_CAP_LIMIT 0) unitDev else d

/-- One step of undoing the cuts, in reverse order (R342). -/
def Dev.uncut (d : Dev) (top : Nat) : Dev :=
  let now := d.now
  let d : Dev := { d with pwr := { d.pwr with belowSince := some now } }
  if d.pwr.linkCut then Dev.setLimit { d with pwr := { d.pwr with linkCut := false, deeper := 0 } } 2
  else
    let t := (List.range 4).foldl (fun m k => if d.pwr.hotStacks.contains k then m else min m (d.fget F.SPL_CTL.THROTTLE [k])) 15
    let target := d.fget F.CLK_DVFS.TARGET []
    if t < 15 then (d.setThrottle (t + 1)).setLimit (if t + 1 < 15 then 2 else 1)
    else if top < target then (d.setTarget (target - 1)).setLimit (if top < target - 1 then 1 else 0)
    else d.setLimit 0

/-- An iteration of the capping loop (R342 to R345, R350). -/
def Dev.capLoop (d : Dev) (x : CapInput) : Dev :=
  let d := d.applyBSpan 0x0400000000 0x1000000
  let d := d.showCap
  let e := x.raw * d.fget F.PWR_STATUS.GAIN [] / 1024
  let d := d.fset F.PWR_STATUS.EST [] (min 65535 e)
  let p := if d.fbit F.PWR_STATUS.DISAGREE [] then max e (d.fget F.PWR_STATUS.MEAS []) else e
  let d := d.creditStep p
  let b := d.budget
  let top := d.ceilingNow (decide (x.p0 ≤ b))
  let d := d.fset F.PWR_STATUS.BOOST [] (if top = 0 then 1 else 0)
  if ! d.fbit F.PWR_CTL.LOOP_EN [] then d.setTarget (d.fget F.CLK_DVFS.TARGET [])
  else if b < p then d.cut x top b
  else if d.fget F.PWR_STATUS.LIMIT [] = 0 then
    let i := d.chooseOp x top b
    (d.setTarget i).setLimit (if top < i then 1 else 0)
  else
    let hyst := max 1 (min 20 (d.fgetB F.PWR_CTL.HYST []))
    let d := if d.fget F.CLK_DVFS.TARGET [] < top then d.setTarget top else d
    if 100 * p < b * (100 - hyst) then
      match d.pwr.belowSince with
      | none => let now := d.now; { d with pwr := { d.pwr with belowSince := some now } }
      | some t => if d.since t (ms 1) then d.uncut top else d
    else { d with pwr := { d.pwr with belowSince := none } }

/-- The sensors are read (R345): `temps` in 1/8 °C, the stacks' reports in °C. HOT and its sensor; the stacks held for heat; a sensor at 130 °C
trips the device. -/
def Dev.sensorRead (d : Dev) (temps stacksT : List Int) : Dev :=
  let d := (List.range 64).foldl (fun (d : Dev) j =>
    match temps[j]? with
    | some v =>
      let d := d.fset F.PWR_TSENS.TEMP [j] (unsext 12 v)
      if sext 12 (d.fget F.PWR_TSENS.MAX [j]) < v then d.fset F.PWR_TSENS.MAX [j] (unsext 12 v) else d
    | none => d) d
  let idx := (List.range 64).foldl (fun best j => if d.sensor best < d.sensor j then j else best) 0
  let d := d.fsets [(F.PWR_THERM.HOT, unsext 12 (d.sensor idx)), (F.PWR_THERM.HOTIDX, idx)] []
  let d := (List.range 4).foldl (fun (d : Dev) k =>
    match stacksT[k]? with
    | some v =>
      let d := d.stackMod k fun (x : StackSt) => { x with temp := v }
      let was := d.pwr.hotStacks.contains k
      if 95 ≤ v ∧ ! was then
        Dev.fset { d with pwr := { d.pwr with hotStacks := d.pwr.hotStacks ++ [k] } } F.SPL_CTL.THROTTLE [k] (min 3 (d.fget F.SPL_CTL.THROTTLE [k]))
      else if v < 90 ∧ was then { d with pwr := { d.pwr with hotStacks := d.pwr.hotStacks.filter (· != k) } }
      else d
    | none => d) d
  let now := d.now
  let cool := decide (d.hot < 8 * (d.throtT - 3))
  let d : Dev := { d with pwr := { d.pwr with coolSince := if cool then (if d.pwr.coolSince.isSome then d.pwr.coolSince else some now) else none } }
  if 1040 ≤ d.hot then d.trip d.hot else d

/-- The thermal limit moves (R345): one operating point slower every 100 µs while HOT ≥ THROT_T, with event 324 on entry; one faster every 1 ms
once HOT has been below THROT_T − 3 °C for 1 ms. -/
def Dev.throttleStep (d : Dev) : Dev :=
  let now := d.now
  let tl := d.pwr.thermal
  let move := fun (d : Dev) (v : Nat) =>
    let d : Dev := { d with pwr := { d.pwr with thermal := v, throttleAt := now } }
    let d := d.fset F.PWR_STATUS.THROT [] (if v = 0 then 0 else 1)
    if d.fget F.CLK_DVFS.TARGET [] < v then d.setTarget v else d
  if 8 * d.throtT ≤ d.hot then
    if tl = 0 then (move d (min 5 (d.ceilingNow true + 1))).raise Ev.PWR_THROTTLE (d.fget F.PWR_THERM.HOTIDX []) unitDev
    else if d.since d.pwr.throttleAt (us 100) then move d (min 5 (tl + 1))
    else d
  else if tl ≠ 0 ∧ (d.pwr.coolSince.any fun t => d.since t (ms 1)) ∧ d.since d.pwr.throttleAt (ms 1) then move d (if tl ≤ 1 then 0 else tl - 1)
  else d

/-- KV_i: mV per 1 % of slowdown (R347). -/
def kv (i : Nat) : Nat := 8 + i

/-- VADJ of an operating point rises to v (R347, R348): event 330, and a milestone at each multiple of 10 mV not recorded before. -/
def Dev.raiseVadj (d : Dev) (i v : Nat) : Dev :=
  let old := d.fget F.CLK_OP.VADJ [i]
  if v ≤ old then d
  else
    let d := (d.fset F.CLK_OP.VADJ [i] v).raise Ev.AGE_REPLAN i unitDev
    (List.range 5).foldl (fun (d : Dev) j =>
      let mv := 10 * j
      if old < mv ∧ mv ≤ v ∧ ! d.ageRec.any fun w => wbits w 62 56 == 1 && wbits w 55 40 == i && wbits w 39 24 == mv then d.milestone 1 i mv else d) d

/-- One operating point of a re-plan (R347). -/
def Dev.replanOp (d : Dev) (shift i : Nat) (standby : Bool) : Dev :=
  let auto := d.fbit F.AGE_CTL.AUTO []
  let need := ceilDiv (shift * kv i) 50000 * 5
  let past := if standby then d.ageRec.foldl (fun m w => if wbits w 62 56 = 1 ∧ wbits w 55 40 = i then max m (wbits w 39 24) else m) 0 else 0
  let d := if auto then d.raiseVadj i (max past (min need 40)) else d
  if need ≤ 40 then d
  else if i = 0 then
    if d.hasMilestone 2 0 && d.fbit F.CLK_OP.RETIRED [0] then d
    else
      let d := if d.hasMilestone 2 0 then d else d.milestone 2 0 0
      (if auto then d.fset F.CLK_OP.RETIRED [0] 1 else d).raise Ev.AGE_OP0_RETIRED 0 unitDev
  else if d.hasMilestone 3 i then d
  else (d.milestone 3 i 0).raise Ev.AGE_MARGIN_END i unitDev

/-- The worst lane and pseudo-channel margins since the last re-plan (R347): (lane, margin) and margin, 255 where none was measured. -/
def Dev.worstLane (d : Dev) : Nat × Nat :=
  d.lane.lanes.foldl (fun (b : Nat × Nat) (x : Nat × LaneSt) => match x.2.worst with | some m => if m < b.2 then (x.1, m) else b | none => b) (0, 255)
def Dev.worstPc (d : Dev) : Nat :=
  (List.range 4).foldl (fun b k => (d.stack k).margins.foldl (fun b (x : Nat × Nat) => min b x.2) b) 255

/-- Low margins become milestones the first time (R348): within 8 units of MARGIN_MIN. -/
def Dev.lowMargins (d : Dev) : Dev :=
  let d := d.lane.lanes.foldl (fun (d : Dev) (x : Nat × LaneSt) =>
    if (x.2.worst.any fun m => decide (m ≤ d.fget F.LN_ADAPT.MARGIN_MIN [x.1] + 8)) && ! d.hasMilestone 4 x.1 then d.milestone 4 x.1 0 else d) d
  (List.range 4).foldl (fun (d : Dev) k =>
    (d.stack k).margins.foldl (fun (d : Dev) (x : Nat × Nat) =>
      if decide (x.2 ≤ d.fget F.SPL_TRAIN.MARGIN_MIN [k] + 8) && ! d.hasMilestone 5 (32 * k + x.1) then d.milestone 5 (32 * k + x.1) 0 else d) d) d

/-- A re-plan (R346 to R348) with the worst slowdown of the monitors in ppm. -/
def Dev.replan (d : Dev) (shift : Nat) : Dev :=
  let standby := d.pwr.replanDue
  let shift := min 65535 shift
  let cur := d.curOp
  let v0 := d.opVolt cur
  let now := d.now
  let w := d.worstLane
  let pcm := d.worstPc
  let d := d.fsets [(F.AGE_STATUS.SHIFT, shift), (F.AGE_STATUS.SEC, tSec d.fab)] []
  let d := (List.range 6).foldl (fun (d : Dev) i => d.replanOp shift i standby) d
  let d := d.lowMargins
  let sm : Summary := { shift := shift, lane := w.1, laneMargin := w.2, pcMargin := pcm, sec := tSec d.fab }
  let all := d.pwr.summaries ++ [sm]
  let d : Dev := { d with pwr := { d.pwr with summaries := all.drop (all.length - 512), lastReplan := now, replanDue := false },
                          lane := { d.lane with lanes := d.lane.lanes.map fun x => (x.1, { x.2 with worst := none }) } }
  let d := (List.range 4).foldl (fun (d : Dev) k => d.stackMod k fun (x : StackSt) => { x with margins := [] }) d
  let d := d.fset F.AGE_CTL.GO [] 0
  if v0 < d.opVolt cur ∧ d.clk.step.isNone ∧ ! d.aligned then d.voltStep else d

/-- A re-plan is due: PERIOD hours have passed, or the device has entered Standby (R347). -/
def Dev.replanCheck (d : Dev) (shift : Nat) : Dev :=
  if d.pwr.replanDue || d.since d.pwr.lastReplan (sec (3600 * atLeast1 (d.fget F.AGE_CTL.PERIOD []))) then d.replan shift else d

end Sys2Proof.Machine
end

