-- ==== Sys2Proof/Machine/Restart.lean ====
section
/-! DEFINITION. Restarts, wakes and the supplies (R9, R25, R55, R336, R345, R381, R418 to R423). -/

namespace Sys2Proof.Machine

set_option cleanup.letToHave false

/-- The part of a register that a warm restart leaves: the transom registers whole, elsewhere the RWS and ROS fields (R9). -/
def warmWord (n : RegName) (ix : List Nat) (w : Word) : Word :=
  match n with
  | .TRN_CTL | .TRN_WAKE | .TRN_ALARM => w
  | _ => n.spec.fields.foldl (fun (v : Word) f =>
      match f.acc with
      | .rws | .ros => wput v f.hi f.lo (wbits w f.hi f.lo)
      | _ => v) (n.resetAt ix)

/-- The registers after a warm restart (R9). -/
def Dev.warmRegs (d : Dev) : List (Nat × Word) :=
  d.regs.filterMap fun x =>
    match regDecode x.1 with
    | some r => let v := warmWord r.1 r.2 x.2; if v = r.1.resetAt r.2 then none else some (x.1, v)
    | none => none

/-- The rails that the on-die monitors watch at the release of PORESET_N (R420). -/
def monitored : List Supply := [.aon, .core, .sram, .laneA, .laneB, .laneC, .io]

/-- The monitored rails are present. -/
def Dev.railsUp (d : Dev) : Bool := monitored.all fun r => d.pwr.supplies.contains r

/-- Both memory rails are present. -/
def Dev.memoryUp (d : Dev) : Bool := d.pwr.supplies.contains .hbm && d.pwr.supplies.contains .qhbm

/-- What every restart sets up (R115, R352, R422, R423): the strap is sampled, the cause recorded, the switched domains follow, and the boot
ROM starts. -/
def Dev.restartTail (d : Dev) (cause : Nat) : Dev :=
  let now := d.now
  let d := (d.fset F.GLB_RESET.CAUSE [] cause).fset F.GLB_PROFILE.ROLE [] d.pins.role.toNat
  let boot := if d.railsUp then BootState.xoCheck else .reset
  let d : Dev := { d with img := { d.img with boot := boot, since := now },
                          ctl := { d.ctl with modeSince := [now, now], hbAt := [now, now] },
                          fabric := { seqDraw := d.freeCtr, releasedAt := now } }
  (d.drawn.refreshAllGroups).refreshDomains []

/-- A cold restart (R9, R25, R55, R381): everything returns to its reset state, the transom domain too; the counters are zeroed under a new
CNT_GEN. Only the fuses and the milestone record survive. -/
def Dev.coldRestart (d : Dev) (cause : Nat) : Dev :=
  let x : Dev := { freeCtr := d.freeCtr, cntGen := d.freeCtr, fuses := d.fuses, ageRec := d.ageRec,
                   pwr := { dev := .standby, supplies := d.pwr.supplies }, pins := { role := d.pins.role } }
  let low := d.fuses.uid.toNat % 2 ^ 40
  let x := (x.drawn.fset F.CTL_MAC.ADDR [0] (0x02 * 2 ^ 40 + low)).fset F.CTL_MAC.ADDR [1] (0x06 * 2 ^ 40 + low)
  x.restartTail cause

/-- A warm restart (R9, R67, R123, R405, R410): registers return to their reset values but for what R9 keeps; sessions end without an event; frames
are lost. The slices that were in retention or on keep their stores and tables, and with RETAIN the stacks stay in self-refresh and keep
the golden copy. -/
def Dev.warmRestart (d : Dev) (cause : Nat) : Dev :=
  let kept := d.up
  let rest := d.pwr.dev == .rest
  let retain := d.fbit F.IMG_CTL.RETAIN [] && d.memoryUp && ! (rest && ! d.fbit F.TRN_CTL.KEEP_SPILL [])
  let load := retain && ! d.img.golden.isEmpty
  let x : Dev := { now := d.now, fab := d.fab, freeCtr := d.freeCtr, cntGen := d.cntGen, regs := d.warmRegs, counters := d.counters,
                   fuses := d.fuses, ageRec := d.ageRec, tmem := if kept then d.tmem else [],
                   ctl := { sent := d.ctl.sent },
                   img := if retain then { golden := d.img.golden, bundles := d.img.bundles, patches := d.img.patches,
                                             fulls := d.img.fulls, mixed := d.img.mixed || d.img.staging.any (fun (x : Staging) => x.applying),
                                             retained := load } else {},
                   prs := if kept then { pats := d.prs.pats, store := d.prs.store } else {},
                   mat := if kept then { store := d.mat.store, tcam := d.mat.tcam, ovfl := d.mat.ovfl, badWords := d.mat.badWords,
                                         meters := d.mat.meters, flowlets := d.mat.flowlets, groups := d.mat.groups } else {},
                   lane := { sent := d.lane.sent },
                   clk := { voltage := max 600 d.clk.voltage },
                   pwr := { dev := .standby, supplies := d.pwr.supplies, on := d.pwr.on, tested := d.pwr.tested, summaries := d.pwr.summaries,
                            lastReplan := d.pwr.lastReplan },
                   rep := { rows := d.rep.rows, corrected := d.rep.corrected }, pins := { role := d.pins.role } }
  let x := if retain then (List.range 4).foldl (fun (x : Dev) k => x.srForce k) x else x
  let x := x.restartTail cause
  if rest then x.raise Ev.PWR_STATE 0 unitDev else x

/-- RESET_N is released (R345, R422): a warm restart; in Rest it is the restart of a wake, it leaves a thermal trip with event 325, and
TRN_WAKE.SRC reads 0. -/
def Dev.resetN (d : Dev) : Dev :=
  match d.pwr.dev with
  | .off => d
  | .rest =>
    let trip := d.fbit F.TRN_WAKE.TRIPPED []
    let d := d.fsets [(F.TRN_WAKE.SRC, 0), (F.TRN_WAKE.TRIPPED, 0), (F.TRN_WAKE.PENDING, 0)] []
    let d := d.warmRestart (if trip then 4 else 2)
    if trip then d.raise Ev.PWR_THERMTRIP 0 unitDev else d
  | _ => d.warmRestart 2

/-- The restart of a wake by the sources in TRN_WAKE.SRC (R336). -/
def Dev.wakeRun (d : Dev) : Dev := Dev.warmRestart (d.fset F.TRN_WAKE.PENDING [] 0) 6

/-- A wake source of R337 acts in Rest when it is enabled and no trip is in force (R336, R345): without VDD_CORE the wake waits. -/
def Dev.wake (d : Dev) (src : Nat) : Dev :=
  if d.pwr.dev ≠ .rest ∨ d.fbit F.TRN_WAKE.TRIPPED [] ∨ ! bitN (d.fget F.TRN_CTL.WAKE_EN []) src then d
  else
    let d := d.fset F.TRN_WAKE.SRC [] (if d.fbit F.TRN_WAKE.PENDING [] then d.fget F.TRN_WAKE.SRC [] ||| 2 ^ src else 2 ^ src)
    if d.pwr.supplies.contains .core then d.wakeRun else d.fset F.TRN_WAKE.PENDING [] 1

/-- VDD_CORE rises above UV_T in Rest (R336, R337): a pending wake proceeds, or the VUV comparator wakes the device. -/
def Dev.coreRises (d : Dev) : Dev :=
  if d.pwr.dev ≠ .rest then d
  else
    let d := if d.pwr.supplies.contains .core then d else { d with pwr := { d.pwr with supplies := d.pwr.supplies ++ [.core] } }
    if d.fbit F.TRN_WAKE.PENDING [] then (if d.fbit F.TRN_WAKE.TRIPPED [] then d else d.wakeRun) else d.wake 2

/-- Every supply, in the order of R418. -/
def Supply.all : List Supply := [.aon, .core, .sram, .laneA, .laneB, .laneC, .io, .hbm, .qhbm]

/-- The device is Off: VDD_AON is gone, and with it everything but fuses (R334). -/
def Dev.powerOff (d : Dev) : Dev := { freeCtr := d.freeCtr, fuses := d.fuses, ageRec := d.ageRec, pins := { role := d.pins.role } }

/-- The supplies rise in the order of R418. From Off the transom domain leaves its power-on reset, and PORESET_N is still low; in Rest the
missing rails are restored (R419); a device held in RESET for want of a rail runs its boot ROM (R420). -/
def Dev.powerUp (d : Dev) : Dev :=
  let rest := d.pwr.dev == .rest
  let had := d.pwr.supplies.contains .core
  let fresh := d.pwr.fresh || ! d.pwr.supplies.contains .aon
  let now := d.now
  let d : Dev := { d with pwr := { d.pwr with supplies := Supply.all, fresh := fresh } }
  if rest then (if had then d else d.coreRises)
  else if d.up ∧ d.img.boot = .reset then { d with img := { d.img with boot := .xoCheck, since := now } }
  else d

/-- PORESET_N is released (R9, R422, GLB_RESET note): a cold restart with CAUSE 0x1, or 0x0 where the release ends a power-up. -/
def Dev.poresetN (d : Dev) : Dev := if d.pwr.supplies.contains .aon then d.coldRestart (if d.pwr.fresh then 0 else 1) else d

/-- A reset pulse of `width` ns is recognised (R422): never below 100 ns, always from 1 µs; between them the part decides, a free value. -/
def Dev.pulseTaken (d : Dev) (width : Nat) : Bool :=
  if width < 100 then false else if 1000 ≤ width then true else d.freeNow.getLsbD 0

/-- The counters are zeroed under a new CNT_GEN (R381). -/
def Dev.zeroCounters (d : Dev) : Dev := ({ d with counters := [], cntGen := d.freeCtr } : Dev).drawn

/-- A rail is removed in Rest (R334, R419), in reverse order: VDD_SRAM takes the counters with it, VDD_AON everything; the memory rails go
only with KEEP_SPILL = 0, and take the golden copy with them. -/
def Dev.railRemove (d : Dev) (r : Supply) : Dev :=
  let drop := fun (d : Dev) => { d with pwr := { d.pwr with supplies := d.pwr.supplies.filter (· != r) } }
  let keep := d.fbit F.TRN_CTL.KEEP_SPILL []
  let later := (Supply.all.dropWhile (· != r)).drop 1
  let ready := later.all fun x => ! d.pwr.supplies.contains x || (keep && (x == .hbm || x == .qhbm) && r != .aon)
  if d.pwr.dev ≠ .rest ∨ ! d.pwr.supplies.contains r ∨ ! ready then d
  else match r with
    | .aon => d.powerOff
    | .sram => (drop d).zeroCounters
    | .hbm | .qhbm => if keep then d else { drop d with img := { d.img with golden := [], bundles := [], patches := [] } }
    | _ => drop d

/-- A rail is lost in Standby or Active (R420): the state of every domain on it is lost. VDD_AON takes the device to Off; without VDD_CORE or
VDD_SRAM no switched domain runs until PORESET_N; a lane supply takes every lane down; a memory rail takes the spill memory. -/
def Dev.railLost (d : Dev) (r : Supply) : Dev :=
  if ! d.up ∨ ! d.pwr.supplies.contains r then d
  else
    let left := d.pwr.supplies.filter (· != r)
    match r with
    | .aon => d.powerOff
    | .core | .sram =>
      let x := d.powerOff
      { x with now := d.now, fab := d.fab, cntGen := d.cntGen, counters := if r = .sram then [] else d.counters,
               regs := d.regs.filter fun y => match regDecode y.1 with | some (.TRN_CTL, _) | some (.TRN_WAKE, _) | some (.TRN_ALARM, _) => true | _ => false,
               pwr := { x.pwr with dev := .off, supplies := left, summaries := d.pwr.summaries } }
    | .laneA | .laneB | .laneC =>
      let d : Dev := { d with pwr := { d.pwr with supplies := left } }
      Dev.refreshAllGroups (d.portList.foldl (fun (d : Dev) p => if d.portUp p then d.linkLoss p (d.portBase p) else d) d)
    | .hbm | .qhbm =>
      let gone := d.buf.copies.filter fun (c : Copy) => ! c.pages.isEmpty
      let d := gone.foldl (fun (d : Dev) (c : Copy) => d.copyGone c.id) d
      { d with pwr := { d.pwr with supplies := left }, img := { d.img with golden := [], bundles := [], patches := [] },
               spl := { d.spl with pages := [], fill := [], running := [] } }
    | .io => { d with pwr := { d.pwr with supplies := left } }

end Sys2Proof.Machine
end

