-- ==== Sys2Proof/Machine/PowerCmds.lean ====
section
/-! DEFINITION. The commands of power, thermal control and ageing (rows 253 to 274) and of the supplies and reset pins (rows 3 to 7 but 6,
and 311). -/

namespace Sys2Proof.Machine

set_option cleanup.letToHave false

/-- A command of the power controller at instant t: it runs in Standby and Active. -/
def Dev.pwr' (d : Dev) (t : Nat) (f : Dev → Dev) : Dev := let d := d.advanceTo t; if d.up then f d else d

/-- ACTIVE_REQUEST (R334): PWR_STATE.REQ = 2 is written, or a REQ of 2 that was held acts; `bad` are the failing rows that the self-tests find. -/
def execActiveRequest (t : Nat) (bad : List Nat) (s : State) : Out := s.run fun d => d.pwr' t fun d => d.reqWrite 2 bad

/-- STANDBY_REQUEST (R334). -/
def execStandbyRequest (t : Nat) (s : State) : Out := s.run fun d => d.pwr' t fun d => d.reqWrite 1 []

/-- REST_REQUEST (R334). -/
def execRestRequest (t : Nat) (s : State) : Out := s.run fun d => d.pwr' t fun d => d.reqWrite 0 []

/-- ACTIVE_DRAIN_END (R334): the queues are empty, or 10 ms have passed. -/
def execActiveDrainEnd (t : Nat) (s : State) : Out := s.run fun d => d.pwr' t fun d => d.drainEnd

/-- REST_ENTRY_COMPLETE (R335): the device, in Standby with REQ = 0, enters Rest. -/
def execRestEntryComplete (t : Nat) (s : State) : Out := s.runTables fun d => d.pwr' t fun d => d.restComplete

/-- WARMUP_DONE (R336): every reading is at or above WARM_T. -/
def execWarmupDone (t : Nat) (bad : List Nat) (s : State) : Out :=
  s.run fun d => d.pwr' t fun d => if d.fbit F.PWR_STATE.WARMING [] && d.warm then d.enterActive bad else d

/-- WARMUP_TIMEOUT (R336): WARM_TMO seconds have passed in warm-up. -/
def execWarmupTimeout (t : Nat) (bad : List Nat) (s : State) : Out :=
  s.run fun d => d.pwr' t fun d =>
    if d.fbit F.PWR_STATE.WARMING [] && (d.pwr.warmSince.any fun w => d.since w (sec (atLeast1 (d.fget F.PWR_THERM.WARM_TMO [])))) then
      (d.enterActive bad).raise Ev.PWR_WARMUP_TMO 0 unitDev
    else d

/-- JHI_COMPARATOR (R337): the transom sensor reads `temp` in °C. -/
def execJhiComparator (t : Nat) (temp : Int) (s : State) : Out :=
  s.runTables fun d =>
    let d := d.advanceTo t
    if (d.fget F.TRN_CTL.JHI_T [] : Int) ≤ temp then d.wake 0 else d

/-- JLO_COMPARATOR (R337): the transom sensor reads `temp` in °C. -/
def execJloComparator (t : Nat) (temp : Int) (s : State) : Out :=
  s.runTables fun d =>
    let d := d.advanceTo t
    if temp ≤ sext 8 (d.fget F.TRN_CTL.JLO_T []) then d.wake 1 else d

/-- VDD_CORE has stayed below UV_T for 1 µs in Standby or Active (R337): frequency-only steps to OP5, event 328. -/
def Dev.undervoltage (d : Dev) : Dev :=
  if d.clk.uvForced then d
  else
    let d : Dev := { d with clk := { d.clk with uvForced := true } }
    d.raise Ev.PWR_VDD_UV 0 unitDev

/-- VUV_COMPARATOR (R337): VDD_CORE is at `mv` millivolts, and has been on that side of UV_T for 1 µs: above it, it wakes a device in Rest;
below it, it forces a running device toward OP5. -/
def execVuvComparator (t mv : Nat) (s : State) : Out :=
  s.runTables fun d =>
    let d := d.advanceTo t
    let uv := d.fget F.TRN_CTL.UV_T []
    if d.up then (if mv < uv then d.undervoltage else d) else if uv < mv then d.coreRises else d

/-- VUV_RECOVER (R337): VDD_CORE has been at or above UV_T + 20 mV for 1 ms. -/
def execVuvRecover (t mv : Nat) (s : State) : Out :=
  s.run fun d => d.pwr' t fun d => if d.fget F.TRN_CTL.UV_T [] + 20 ≤ mv then { d with clk := { d.clk with uvForced := false } } else d

/-- CPED_ENERGY (R337): signal energy on a control port's receive pins. -/
def execCpedEnergy (t : Nat) (s : State) : Out := s.runTables fun d => (d.advanceTo t).wake 3

/-- The time alarm fires (R337): it wakes a device in Rest, raises event 320 in the other states, and EN clears. -/
def Dev.alarm (d : Dev) : Dev :=
  if ! d.fbit F.TRN_ALARM.EN [] ∨ tSec d.fab < d.fget F.TRN_ALARM.SEC [] then d
  else
    let d := d.fset F.TRN_ALARM.EN [] 0
    if d.up then d.raise Ev.PWR_STATE 0 unitDev else d.wake 4

/-- TIME_ALARM (R337). -/
def execTimeAlarm (t : Nat) (s : State) : Out := s.runTables fun d => (d.advanceTo t).alarm

/-- VDD_CORE_PRESENT (R336): VDD_CORE exceeds UV_T, and a pending wake proceeds. -/
def execVddCorePresent (t : Nat) (s : State) : Out := s.runTables fun d => (d.advanceTo t).coreRises

/-- PMBUS_ROUND (R339 to R341). -/
def execPmbusRound (t : Nat) (reads status est : List Nat) (avg : Nat) (s : State) : Out :=
  s.run fun d => d.pwr' t fun d => d.pmbusRound reads status est avg

/-- CAP_LOOP_ITERATION (R342). -/
def execCapLoopIteration (t raw links control p0 spill : Nat) (compute frames cells : List Nat) (s : State) : Out :=
  s.run fun d => d.pwr' t fun d =>
    d.capLoop { raw := raw, links := links, control := control, compute := compute, p0 := p0, spill := spill, frames := frames, cells := cells }

/-- HINT_START (R343). -/
def execHintStart (t : Nat) (s : State) : Out := s.run fun d => d.pwr' t fun d => d.hintsStart

/-- HINT_END (R343). -/
def execHintEnd (t : Nat) (s : State) : Out := s.run fun d => d.pwr' t fun d => d.hintsEnd

/-- SENSOR_READ (R345): the readings of the 64 sensors in 1/8 °C and the stacks' reports in °C. -/
def execSensorRead (t : Nat) (temps stk : List Int) (s : State) : Out := s.runTables fun d => d.pwr' t fun d => d.sensorRead temps stk

/-- THROTTLE_STEP (R345). -/
def execThrottleStep (t : Nat) (s : State) : Out := s.run fun d => d.pwr' t fun d => d.throttleStep

/-- AGE_REPLAN (R347): `shift` is the worst slowdown that the monitors show, in ppm. -/
def execAgeReplan (t shift : Nat) (s : State) : Out := s.run fun d => d.pwr' t fun d => d.replanCheck shift

/-- AGE_GO (R347): AGE_CTL.GO is written 1. -/
def execAgeGo (t shift : Nat) (s : State) : Out := s.run fun d => d.pwr' t fun d => d.replan shift

/-- POWER_UP (R418, R420). -/
def execPowerUp (t role : Nat) (s : State) : Out :=
  s.runTables fun d => Dev.powerUp { d.advanceTo t with pins := { d.pins with role := BitVec.ofNat 2 role } }

/-- PORESET_N (R422, R423): a low pulse of `width` ns ends at t with the strap at `role`. -/
def execPoresetN (t width role : Nat) (s : State) : Out :=
  s.runTables fun d =>
    let d := d.advanceTo t
    let taken := d.pulseTaken width || (d.pwr.fresh && decide (1000 ≤ width))
    let d := if 100 ≤ width ∧ width < 1000 then d.drawn else d
    if taken then Dev.poresetN { d with pins := { d.pins with role := BitVec.ofNat 2 role } } else d

/-- RESET_N (R422, R423): a low pulse of `width` ns ends at t with the strap at `role`; while PORESET_N is low too, that pin governs. -/
def execResetN (t width role : Nat) (porLow : Bool) (s : State) : Out :=
  s.runTables fun d =>
    let d := d.advanceTo t
    if porLow ∨ d.pwr.fresh then d
    else
      let taken := d.pulseTaken width
      let d := if 100 ≤ width ∧ width < 1000 then d.drawn else d
      if taken then Dev.resetN { d with pins := { d.pins with role := BitVec.ofNat 2 role } } else d

/-- The rail that a number names, in the order of R418. -/
def railOf (r : Nat) : Option Supply := Supply.all[r]?

/-- SUPPLY_LOSS (R420): rail r is lost in Standby or Active. -/
def execSupplyLoss (t r : Nat) (s : State) : Out :=
  s.runTables fun d =>
    let d := d.advanceTo t
    match railOf r with | some x => d.railLost x | none => d

/-- SUPPLY_REMOVAL (R419): the board removes rail r in Rest. -/
def execSupplyRemoval (t r : Nat) (s : State) : Out :=
  s.runTables fun d =>
    let d := d.advanceTo t
    match railOf r with | some x => d.railRemove x | none => d

end Sys2Proof.Machine
end

