-- ==== Sys2Proof/Machine/Crypto.lean ====
section
/-! DEFINITION. The cryptographic functions that the image checks name (R118, R119): SHA-384 and the verification of an ECDSA P-384 signature.
The spec names them and does not define them; they are taken from FIPS 180-4 and FIPS 186 (PRESUMED, log entry 3). -/

namespace Sys2Proof.Machine

set_option cleanup.letToHave false

/-- f of x, x being computed first. -/
def forced {α : Type} (x : Nat) (f : Nat → α) : α := match x with | 0 => f 0 | n + 1 => f (n + 1)

/-! ### SHA-384 -/

/-- A sum of 64-bit words wraps; rotation to the right. -/
def add64 (a b : Nat) : Nat := (a + b) % 2 ^ 64
def rotr64 (x n : Nat) : Nat := (x >>> n) ||| (x <<< (64 - n)) % 2 ^ 64

/-- The functions Σ0, Σ1, σ0, σ1, Ch and Maj of the standard. -/
def shaSum0 (x : Nat) : Nat := rotr64 x 28 ^^^ rotr64 x 34 ^^^ rotr64 x 39
def shaSum1 (x : Nat) : Nat := rotr64 x 14 ^^^ rotr64 x 18 ^^^ rotr64 x 41
def shaSig0 (x : Nat) : Nat := rotr64 x 1 ^^^ rotr64 x 8 ^^^ (x >>> 7)
def shaSig1 (x : Nat) : Nat := rotr64 x 19 ^^^ rotr64 x 61 ^^^ (x >>> 6)
def shaCh (e f g : Nat) : Nat := (e &&& f) ^^^ ((2 ^ 64 - 1 - e) &&& g)
def shaMaj (a b c : Nat) : Nat := (a &&& b) ^^^ (a &&& c) ^^^ (b &&& c)

/-- Round constants 0 to 15. -/
def shaK0 : List Nat :=
  [0x428A2F98D728AE22, 0x7137449123EF65CD, 0xB5C0FBCFEC4D3B2F, 0xE9B5DBA58189DBBC,
   0x3956C25BF348B538, 0x59F111F1B605D019, 0x923F82A4AF194F9B, 0xAB1C5ED5DA6D8118,
   0xD807AA98A3030242, 0x12835B0145706FBE, 0x243185BE4EE4B28C, 0x550C7DC3D5FFB4E2,
   0x72BE5D74F27B896F, 0x80DEB1FE3B1696B1, 0x9BDC06A725C71235, 0xC19BF174CF692694]

/-- Round constants 16 to 31. -/
def shaK1 : List Nat :=
  [0xE49B69C19EF14AD2, 0xEFBE4786384F25E3, 0x0FC19DC68B8CD5B5, 0x240CA1CC77AC9C65,
   0x2DE92C6F592B0275, 0x4A7484AA6EA6E483, 0x5CB0A9DCBD41FBD4, 0x76F988DA831153B5,
   0x983E5152EE66DFAB, 0xA831C66D2DB43210, 0xB00327C898FB213F, 0xBF597FC7BEEF0EE4,
   0xC6E00BF33DA88FC2, 0xD5A79147930AA725, 0x06CA6351E003826F, 0x142929670A0E6E70]

/-- Round constants 32 to 47. -/
def shaK2 : List Nat :=
  [0x27B70A8546D22FFC, 0x2E1B21385C26C926, 0x4D2C6DFC5AC42AED, 0x53380D139D95B3DF,
   0x650A73548BAF63DE, 0x766A0ABB3C77B2A8, 0x81C2C92E47EDAEE6, 0x92722C851482353B,
   0xA2BFE8A14CF10364, 0xA81A664BBC423001, 0xC24B8B70D0F89791, 0xC76C51A30654BE30,
   0xD192E819D6EF5218, 0xD69906245565A910, 0xF40E35855771202A, 0x106AA07032BBD1B8]

/-- Round constants 48 to 63. -/
def shaK3 : List Nat :=
  [0x19A4C116B8D2D0C8, 0x1E376C085141AB53, 0x2748774CDF8EEB99, 0x34B0BCB5E19B48A8,
   0x391C0CB3C5C95A63, 0x4ED8AA4AE3418ACB, 0x5B9CCA4F7763E373, 0x682E6FF3D6B2B8A3,
   0x748F82EE5DEFB2FC, 0x78A5636F43172F60, 0x84C87814A1F0AB72, 0x8CC702081A6439EC,
   0x90BEFFFA23631E28, 0xA4506CEBDE82BDE9, 0xBEF9A3F7B2C67915, 0xC67178F2E372532B]

/-- Round constants 64 to 79. -/
def shaK4 : List Nat :=
  [0xCA273ECEEA26619C, 0xD186B8C721C0C207, 0xEADA7DD6CDE0EB1E, 0xF57D4F7FEE6ED178,
   0x06F067AA72176FBA, 0x0A637DC5A2C898A6, 0x113F9804BEF90DAE, 0x1B710B35131C471B,
   0x28DB77F523047D84, 0x32CAAB7B40C72493, 0x3C9EBE0A15C9BEBC, 0x431D67C49C100D4C,
   0x4CC5D4BECB3E42B6, 0x597F299CFC657E2A, 0x5FCB6FAB3AD6FAEC, 0x6C44198C4A475817]

/-- All eighty round constants. -/
def shaK : List Nat := shaK0 ++ shaK1 ++ shaK2 ++ shaK3 ++ shaK4

/-- The initial hash value of SHA-384. -/
def shaInit : List Nat :=
  [0xCBBB9D5DC1059ED8, 0x629A292A367CD507, 0x9159015A3070DD17, 0x152FECD8F70E5939,
   0x67332667FFC00B31, 0x8EB44A8768581511, 0xDB0C2E0D64F98FA7, 0x47B5481DBEFA4FA4]

/-- The next n words of the message schedule, the words so far being given latest first. -/
def shaSchedule : Nat → List Nat → List Nat
  | 0, w => w
  | n + 1, w =>
    forced (add64 (add64 (shaSig1 (w.getD 1 0)) (w.getD 6 0)) (add64 (shaSig0 (w.getD 14 0)) (w.getD 15 0))) fun x => shaSchedule n (x :: w)

/-- The rounds of one block over the working variables a to h; each pair holds a constant and its schedule word. -/
def shaRounds : List (Nat × Nat) → Nat → Nat → Nat → Nat → Nat → Nat → Nat → Nat → List Nat
  | [], a, b, c, d, e, f, g, h => [a, b, c, d, e, f, g, h]
  | x :: l, a, b, c, d, e, f, g, h =>
    forced (add64 (add64 (add64 h (shaSum1 e)) (add64 (shaCh e f g) x.1)) x.2) fun t =>
      forced (add64 t (add64 (shaSum0 a) (shaMaj a b c))) fun na => forced (add64 d t) fun ne => shaRounds l na a b c ne e f g

/-- One block of 128 bytes is hashed into the value v. -/
def shaBlock (v : List Nat) (b : List Byte) : List Nat :=
  let w := (shaSchedule 64 ((List.range 16).map fun i => beNat (slice b (8 * i) 8)).reverse).reverse
  let g := fun i => v.getD i 0
  let r := shaRounds (shaK.zip w) (g 0) (g 1) (g 2) (g 3) (g 4) (g 5) (g 6) (g 7)
  (v.zip r).map fun x => add64 x.1 x.2

/-- The message padded to whole blocks: a 1 bit, zeros, and its length in bits as 128 bits. -/
def shaPad (m : List Byte) : List Byte :=
  m ++ (0x80 :: List.replicate ((239 - m.length % 128) % 128) 0) ++ beBytes 16 (8 * m.length)

/-- SHA-384 of a message (FIPS 180-4). -/
@[irreducible] def sha384 (m : List Byte) : BitVec 384 :=
  let p := shaPad m
  let v := (List.range (p.length / 128)).foldl (fun (v : List Nat) i => shaBlock v (slice p (128 * i) 128)) shaInit
  BitVec.ofNat 384 ((v.take 6).foldl (fun (a : Nat) x => a * 2 ^ 64 + x) 0)

/-! ### ECDSA P-384 -/

/-- The field's prime, the coefficient b, the group's order and the base point of P-384; the coefficient a is −3. -/
def p384P : Nat := 2 ^ 384 - 2 ^ 128 - 2 ^ 96 + 2 ^ 32 - 1
def p384B : Nat := 0xb3312fa7e23ee7e4988e056be3f82d19181d9c6efe8141120314088f5013875ac656398d8a2ed19d2a85c8edd3ec2aef
def p384N : Nat := 0xffffffffffffffffffffffffffffffffffffffffffffffffc7634d81f4372ddf581a0db248b0a77aecec196accc52973
def p384Gx : Nat := 0xaa87ca22be8b05378eb1c71ef320ad746e1d3b628ba79b9859f741e082542a385502f25dbf55296c3a545e3872760ab7
def p384Gy : Nat := 0x3617de4a96262c6f5d9e98bf9292dc29f8f41dbd289a147ce9da3113b5f0b8c00a60b1ce1d7e819d7a431d7c90ea0e5f

/-- Product and difference in the field. -/
def fmul (a b : Nat) : Nat := a * b % p384P
def fsub (a b : Nat) : Nat := (a + (p384P - b % p384P)) % p384P

/-- A point (X / Z², Y / Z³) of the curve; Z = 0 is the point at infinity. -/
structure JPoint where
  x : Nat
  y : Nat
  z : Nat
  deriving DecidableEq, Repr

/-- A point with computed coordinates. -/
def jmk (x y z : Nat) : JPoint := forced x fun x => forced y fun y => forced z fun z => { x := x, y := y, z := z }

/-- Twice a point. -/
def jdouble (q : JPoint) : JPoint :=
  forced (fmul q.z q.z) fun zz => forced (fmul q.y q.y) fun yy => forced (fmul q.x yy) fun s =>
  forced (3 * fmul (fsub q.x zz) (q.x + zz) % p384P) fun m => forced (fsub (fmul m m) (8 * s)) fun x =>
    jmk x (fsub (fmul m (fsub (4 * s) x)) (8 * fmul yy yy)) (2 * fmul q.y q.z % p384P)

/-- The sum of two points. -/
def jadd (q r : JPoint) : JPoint :=
  if q.z = 0 then r
  else if r.z = 0 then q
  else
    forced (fmul q.z q.z) fun qq => forced (fmul r.z r.z) fun rr => forced (fmul q.x rr) fun u => forced (fmul r.x qq) fun v =>
    forced (fmul q.y (fmul rr r.z)) fun s => forced (fmul r.y (fmul qq q.z)) fun t =>
    if u = v then (if s = t then jdouble q else { x := 1, y := 1, z := 0 })
    else
      forced (fsub v u) fun h => forced (fsub t s) fun g => forced (fmul h h) fun hh => forced (fmul hh h) fun hhh => forced (fmul u hh) fun uhh =>
      forced (fsub (fmul g g) (hhh + 2 * uhh)) fun x => jmk x (fsub (fmul g (fsub uhh x)) (fmul s hhh)) (fmul h (fmul q.z r.z))

/-- a·G + b·Q, from the lowest n bits of a and b, for the points g, q and gq = g + q. -/
def jmul2 (g q gq : JPoint) (a b : Nat) : Nat → JPoint → JPoint
  | 0, acc => acc
  | n + 1, acc =>
    let d := jdouble acc
    jmul2 g q gq a b n
      (match a.testBit n, b.testBit n with
      | true, true => jadd d gq
      | true, false => jadd d g
      | false, true => jadd d q
      | false, false => d)

/-- x to the power e modulo m, from the lowest n bits of e. -/
def powMod (m x e : Nat) : Nat → Nat → Nat
  | 0, acc => acc
  | n + 1, acc => forced (acc * acc % m) fun s => forced (if e.testBit n then s * x % m else s) fun y => powMod m x e n y

/-- A public key as 97 bytes: 0x04 and the two coordinates of a point of the curve. -/
def p384Key (key : List Byte) : Option JPoint :=
  let x := beNat (slice key 1 48)
  let y := beNat (slice key 49 48)
  if key.length = 97 ∧ key.getD 0 0 = 4 ∧ x < p384P ∧ y < p384P ∧ fmul y y = (fmul (fmul x x) x + fsub p384B (3 * x)) % p384P then
    some { x := x, y := y, z := 1 }
  else none

/-- Verification of an ECDSA P-384 signature, r and then s, over a digest (FIPS 186). -/
@[irreducible] def ecdsaVerify (key : List Byte) (digest : BitVec 384) (signature : List Byte) : Bool :=
  match p384Key key with
  | none => false
  | some q =>
    let r := beNat (slice signature 0 48)
    let s := beNat (slice signature 48 48)
    if r = 0 ∨ p384N ≤ r ∨ s = 0 ∨ p384N ≤ s then false
    else
      forced (powMod p384N s (p384N - 2) 384 1) fun w => forced (digest.toNat * w % p384N) fun u => forced (r * w % p384N) fun v =>
      let g : JPoint := { x := p384Gx, y := p384Gy, z := 1 }
      let c := jmul2 g q (jadd g q) u v 384 { x := 1, y := 1, z := 0 }
      let zz := fmul c.z c.z
      c.z != 0 && (fmul r zz == c.x || (decide (r + p384N < p384P) && fmul (r + p384N) zz == c.x))

end Sys2Proof.Machine
end

