-- ==== Sys2Proof/Machine/Images.lean ====
section
/-! DEFINITION. Farlan images and bundles (chapter 05): header, sections and their checks, the stores they write, patch bundles, fuses and
store read-back. -/

namespace Sys2Proof.Machine

set_option cleanup.letToHave false

/-- A number in the Farlan header (R118). -/
def hdr (b : List Byte) (off n : Nat) : Nat := beNat (slice b off n)

/-- TOTAL_LEN, KEYSLOT, SVN, NSECT, IMAGE_VER and FLAGS of an image (R118). -/
def hdrTotal (b : List Byte) : Nat := hdr b 8 4
def hdrSlot (b : List Byte) : Nat := hdr b 7 1
def hdrSvn (b : List Byte) : Nat := hdr b 12 2
def hdrSects (b : List Byte) : Nat := hdr b 14 2
def hdrVer (b : List Byte) : Nat := hdr b 16 4
def hdrFlags (b : List Byte) : Nat := hdr b 6 1

/-- Check 1 of R439; kind 0 is an image, 1 a bundle. -/
def headerOk (kind : Nat) (b : List Byte) : Bool :=
  decide (256 ≤ b.length) && hdr b 0 4 == 0x46524C4E && hdr b 4 2 == 1 && hdrFlags b / 8 == 0 && hdrFlags b / 2 % 2 == kind &&
    decide (hdrTotal b ≤ (if kind = 0 then 64 else 16) * 2 ^ 20) && decide (1 ≤ hdrSects b) && decide (hdrSects b ≤ 1024)

/-- A section descriptor (R118); `clean` says that its reserved fields are 0. -/
structure Sect where
  store : Nat
  inst : Nat
  word : Nat
  off : Nat
  len : Nat
  ver : Nat
  base : Nat
  clean : Bool
  deriving DecidableEq, Repr

/-- Section k of an image (R118). -/
def sectAt (b : List Byte) (k : Nat) : Sect :=
  let o := 256 + 32 * k
  { store := hdr b o 1, inst := hdr b (o + 2) 2, word := hdr b (o + 4) 4, off := hdr b (o + 8) 4, len := hdr b (o + 12) 4,
    ver := hdr b (o + 16) 4, base := hdr b (o + 20) 4, clean := hdr b (o + 1) 1 == 0 && hdr b (o + 24) 8 == 0 }

/-- The sections of an image. -/
def sects (b : List Byte) : List Sect := (List.range (hdrSects b)).map (sectAt b)

/-- Bytes of a store word, words per instance and instances (R440); REG_INIT holds as many records as the image does. -/
def storeWordBytes (st : Nat) : Nat := match st with | 3 => 16 | 4 => 64 | 7 => 24 | _ => 8
def storeWords (st : Nat) : Nat := match st with | 1 | 5 | 6 => 65536 | 2 => 9 | 3 => 4096 | 4 => 16384 | _ => 2 ^ 32
def storeInsts (st : Nat) : Nat := match st with | 1 | 2 => 2 | 3 | 4 => 32 | _ => 1

/-- INSTANCE names the store: 0xFFFF every one; the microcode stores take 0xFFFF only (R118). -/
def sectInstOk (x : Sect) : Bool := x.inst == 0xFFFF || (decide (x.inst < storeInsts x.store) && x.store != 5 && x.store != 6)

/-- Check 5 of R439 on a section; `span` is the length of the signed span. -/
def sectOk (kind span k : Nat) (x : Sect) : Bool :=
  decide (256 + 32 * (k + 1) ≤ span) && decide (x.off + x.len ≤ span) &&
    decide (x.store ∈ (if kind = 0 then [1, 2, 3, 4, 5, 6, 7] else [1, 3, 4, 5, 6])) && sectInstOk x && x.clean &&
    x.len % storeWordBytes x.store == 0 && decide (x.word + x.len / storeWordBytes x.store ≤ storeWords x.store) &&
    (x.store != 7 || x.word == 0)

/-- The first section that fails check 5 (R439). -/
def badSect (kind : Nat) (b : List Byte) : Option Nat :=
  findFirst (fun k => ! sectOk kind (hdrTotal b - 96) k (sectAt b k)) (List.range (hdrSects b))

/-- Check 2 of R439: a programmed slot, not revoked, and the digest of PUBKEY. -/
def Dev.keyOk (d : Dev) (b : List Byte) : Bool :=
  decide (hdrSlot b < 4) && d.fuses.programmed.getLsbD (hdrSlot b) && ! d.fuses.revoked.getLsbD (hdrSlot b) &&
    sha384 (slice b 32 97) == d.fuses.keyHash.getD (hdrSlot b) 0

/-- Check 3 of R439: the signature over the digest of the signed span. -/
def sigOk (b : List Byte) : Bool :=
  ecdsaVerify (slice b 32 97) (sha384 (b.take (hdrTotal b - 96))) (slice b (hdrTotal b - 96) 96)

/-- The five checks of R439 in their order: the verdict of the first that fails, with its section; none where all pass. -/
def Dev.imageChecks (d : Dev) (kind : Nat) (b : List Byte) : Option (Nat × Option Nat) :=
  if ! headerOk kind b then some (0x11, none)
  else if ! d.keyOk b then some (0x12, none)
  else if ! sigOk b then some (0x13, none)
  else if hdrSvn b < d.fuses.rollback then some (0x14, none)
  else (badSect kind b).map fun k => (0x11, some k)

/-- The words of a section's data. -/
def sectWords (b : List Byte) (x : Sect) : List Nat :=
  let n := storeWordBytes x.store
  (List.range (x.len / n)).map fun i => hdr b (x.off + i * n) n

/-- The instances that a section writes. -/
def sectInsts (x : Sect) : List Nat := if x.inst = 0xFFFF then List.range (storeInsts x.store) else [x.inst]

/-- A 64-bit store with words written from `base` on. -/
def storePut (m : List (Nat × Word)) (base : Nat) (l : List Nat) : List (Nat × Word) :=
  (l.zipIdx).foldl (fun (m : List (Nat × Word)) x => mset 0 m (base + x.2) (BitVec.ofNat 64 x.1)) m

/-- Words go into one instance of a store other than REG_INIT (R118, R440). -/
def Dev.storePutAt (d : Dev) (st inst word : Nat) (l : List Nat) : Dev :=
  match st with
  | 1 => { d with csq := { d.csq with store := storePut d.csq.store (inst * 65536 + word) l } }
  | 2 => (l.zipIdx).foldl (fun (d : Dev) x =>
      let i := word + x.2
      let v := BitVec.ofNat 64 x.1
      if i = 0 then d.fsets [(F.CSQ_LIB.BASE, wbits v 47 32), (F.CSQ_LIB.LEN, wbits v 16 0)] [inst]
      else d.fsets [(F.CSQ_REGION.BASE, wbits v 47 32), (F.CSQ_REGION.LEN, wbits v 16 0)] [inst, i - 1]) d
  | 3 => { d with prs := { d.prs with store := (l.zipIdx).foldl (fun (m : List (Nat × BitVec 128)) x =>
      mset 0 m (inst * 4096 + word + x.2) (BitVec.ofNat 128 x.1)) d.prs.store } }
  | 4 => { d with mat := { d.mat with store := (l.zipIdx).foldl (fun (m : List (Nat × BitVec 512)) x =>
      mset 0 m (inst * 16384 + word + x.2) (BitVec.ofNat 512 x.1)) d.mat.store } }
  | 5 => { d with img := { d.img with pwrUcode := storePut d.img.pwrUcode word l } }
  | 6 => { d with img := { d.img with laneUcode := storePut d.img.laneUcode word l } }
  | _ => d

/-- The version register of a store instance (R440); CSQ_LAYOUT has none. -/
def storeVerIx (st inst : Nat) : Option Nat :=
  match st with
  | 1 => some inst
  | 3 => some (2 + inst)
  | 4 => some (34 + inst)
  | 5 => some 66
  | 6 => some 67
  | 7 => some 68
  | _ => none

/-- The version of a store instance. -/
def Dev.storeVer (d : Dev) (st inst : Nat) : Nat := match storeVerIx st inst with | some i => d.fget F.GLB_STORE_VER.VERSION [i] | none => 0

/-- A store instance takes a version (R120, R127). -/
def Dev.setStoreVer (d : Dev) (st inst v : Nat) : Dev :=
  match storeVerIx st inst with
  | some i => d.fset F.GLB_STORE_VER.VERSION [i] v
  | none => d

/-- A section goes into one instance of its store, with its version. -/
def Dev.putSect (d : Dev) (b : List Byte) (x : Sect) (inst : Nat) : Dev :=
  (d.storePutAt x.store inst x.word (sectWords b x)).setStoreVer x.store inst x.ver

/-- What the golden copy gives one instance of a store: its sections of the image, then the applied bundle sections in their order (R122,
R399, R406). -/
def Dev.reloadStore (d : Dev) (st inst : Nat) : Dev :=
  let d := (sects d.img.golden).foldl (fun (d : Dev) x => if x.store = st ∧ inst ∈ sectInsts x then d.putSect d.img.golden x inst else d) d
  d.img.patches.foldl (fun (d : Dev) y =>
    let b := d.img.bundles.getD y.1 []
    let x := sectAt b y.2.1
    if x.store = st ∧ y.2.2 = inst then d.putSect b x inst else d) d

/-- The space a bundle takes in the bundle area (R126). -/
def bundleSpace (b : List Byte) : Nat := ceilDiv (hdrTotal b) 4096 * 4096

/-- The space in use in the bundle area (R126): the bundles held, and the one that is being staged once its header has been taken. -/
def Dev.areaUsed (d : Dev) : Nat :=
  (d.img.bundles.map bundleSpace).sum +
    (match d.img.staging with
     | some x => if ! x.applying && decide (256 ≤ x.bytes.length) then bundleSpace x.bytes else 0
     | none => 0)

/-- IMG_STATUS.STATE: 1 RECEIVING, 2 VERIFY, 3 APPLY. -/
def Dev.imgState (d : Dev) : Nat :=
  match d.img.staging with
  | some x => if x.applying then 3 else if x.whole then 2 else 1
  | none => match d.img.boot with
    | .receiving => 1
    | .verify => 2
    | _ => 0

/-- TOTAL_LEN as received; before it has arrived the spec gives the answer's TAG no value: a free value (log entry 2). -/
def Dev.totalSeen (d : Dev) (b : List Byte) : Nat := if 12 ≤ b.length then hdrTotal b else d.freeNow.toNat % 2 ^ 32

/-- The last verdict, and the section of the last failure that names one (IMG_STATUS). -/
def Dev.noteVerdict (d : Dev) (v : Nat) (sect : Option Nat) : Dev :=
  let d := d.fset F.IMG_STATUS.VERDICT [] v
  match sect with
  | some k => d.fset F.IMG_STATUS.SECT [] k
  | none => d

/-- The REPLY that carries a verdict (R117), in exchange n. -/
def Dev.verdictReply (d : Dev) (n v : Nat) (sect : Option Nat) (b : List Byte) : Dev :=
  let tag := d.totalSeen b
  let d := if 12 ≤ b.length then d else d.drawn
  d.reply n tag v (some (sect.getD 0xFFFFFFFF)) b.length []

/-- The boot ROM returns to ADVERTISING: the staged bytes are discarded, and the domains that only the load uses go off (R115). -/
def Dev.toAdvertising (d : Dev) : Dev :=
  Dev.refreshDomains { d with img := { d.img with boot := .advertising, staged := [], advAt := none, retained := false } } []

/-- The boot ROM's exchange ends with a verdict (R117); a retained load sends no REPLY and shows no verdict of a failure (R123). -/
def Dev.bootFail (d : Dev) (v : Nat) (sect : Option Nat) : Dev :=
  if d.img.retained then d.toAdvertising
  else ((d.noteVerdict v sect).verdictReply bootSess v sect d.img.staged).toAdvertising

/-- A frame outside what the exchange accepts is discarded and counted (R116). -/
def Dev.imgDiscard (d : Dev) : Dev := d.count (Ct.TVX_RX_DISCARD 0) 1

/-- An acknowledgement of the expected SEQ to the sender of a frame of the boot ROM's exchange (R116, R68). -/
def Dev.bootAck (d : Dev) (f : TvxRx) : Dev :=
  let s := d.sess bootSess
  (d.count (Ct.TVX_RX_OOS 0) 1).cpEmit { port := f.port, typ := 7, code := 1, sid := 0xFF, seq := s.txNext, ackv := true, ack := s.rxNext, dst := f.src,
                                         payload := d.heartbeatPayload d.stateCode }

/-- A chunk of an image in sequence (R115, R116, R439 check 1). -/
def Dev.chunkIn (d : Dev) (data : List Byte) : Dev :=
  let old := d.img.staged
  let all := old ++ data
  let now := d.now
  if 12 ≤ all.length ∧ hdrTotal all < all.length then
    -- nothing of the chunk is kept
    let total := hdrTotal all
    let d := d.noteVerdict 0x11 none
    (d.reply bootSess total 0x11 (some 0xFFFFFFFF) old.length []).toAdvertising
  else
    let d : Dev := { d with img := { d.img with staged := all, lastChunk := now } }
    if old.length < 256 ∧ 256 ≤ all.length ∧ ! headerOk 0 all then d.bootFail 0x11 none
    else if 12 ≤ all.length ∧ all.length = hdrTotal all then { d with img := { d.img with boot := .verify, since := now } }
    else d

/-- An IMAGE frame to the boot ROM (R115, R116). -/
def Dev.bootImage (d : Dev) (f : TvxRx) : Dev :=
  let now := d.now
  match d.img.boot with
  | .advertising =>
    if f.code = 2 then d
    else if f.code ≠ 0 ∨ f.len = 0 then d.imgDiscard
    else if f.seq = 0 ∧ f.tag = 0 then
      let d : Dev := { d with img := { d.img with boot := .receiving, bound := some f.src, staged := [], lastChunk := now },
                              ctl := { d.ctl with boot := {}, lastPort := f.port } }
      d.rxNumbered bootSess f fun d => d.chunkIn (f.payload.take f.len)
    else d.bootAck f
  | .receiving =>
    if d.img.bound ≠ some f.src ∨ ¬ (f.code = 0 ∨ f.code = 2) ∨ (f.code = 0 ∧ f.len = 0) then d.imgDiscard
    else if f.code = 0 ∧ f.tag ≠ d.img.staged.length then (d.rxLive bootSess f).bootAck f
    else d.rxNumbered bootSess f fun d => if f.code = 2 then d.bootFail 0x1C none else d.chunkIn (f.payload.take f.len)
  | _ => d.imgDiscard

/-- A bundle in progress ends with a verdict (R117, R125, R128): event 89 where it was refused. -/
def Dev.bundleEnd (d : Dev) (n v : Nat) (sect : Option Nat) (b : List Byte) : Dev :=
  let d := d.noteVerdict v sect
  let d := if v = 0x10 ∨ v = 0x19 ∨ v = 0x1C then d else d.raise Ev.IMG_REFUSED 0 unitDev
  if n < 8 then d.verdictReply n v sect b else d

/-- The staging of a bundle ends: its space is free again (R126). -/
def Dev.unstage (d : Dev) : Dev := { d with img := { d.img with staging := none } }

/-- A chunk of a bundle in sequence on session n (R116, R125, R126). -/
def Dev.bundleIn (d : Dev) (n : Nat) (x : Staging) (data : List Byte) : Dev :=
  let all := x.bytes ++ data
  let now := d.now
  let held := (d.img.bundles.map bundleSpace).sum
  if 12 ≤ all.length ∧ hdrTotal all < all.length then
    let d := (d.unstage.noteVerdict 0x11 none).raise Ev.IMG_REFUSED 0 unitDev
    d.reply n (hdrTotal all) 0x11 (some 0xFFFFFFFF) x.bytes.length []
  else if x.bytes.length < 256 ∧ 256 ≤ all.length ∧ ! headerOk 1 all then d.unstage.bundleEnd n 0x11 none all
  else if x.bytes.length < 256 ∧ 256 ≤ all.length ∧ 16 * 2 ^ 20 < held + bundleSpace all then d.unstage.bundleEnd n 0x1B none all
  else
    let whole := decide (12 ≤ all.length) && decide (all.length = hdrTotal all)
    { d with img := { d.img with staging := some { x with bytes := all, lastChunk := now, whole := whole, since := now } } }

/-- An IMAGE frame of a session (R66, R116, R125): from an admin session only; a chunk of a bundle, a cancel, or a code that is discarded. -/
def Dev.sessionImage (d : Dev) (f : TvxRx) : Dev :=
  let n := f.sid
  let data := f.payload.take f.len
  if d.fget F.TVX_SESSION.PRIV [n] ≠ 2 then d.imgDiscard.raise Ev.TVX_PRIV 0 unitDev
  else if f.code = 2 then
    d.rxNumbered n f fun d =>
      match d.img.staging with
      | some x => if x.sid = n ∧ ¬ x.applying then d.unstage.bundleEnd n 0x1C none x.bytes else d
      | none => d
  else if f.code ≠ 1 ∨ f.len = 0 then d.imgDiscard
  else
    let mine := d.img.staging.filter fun (x : Staging) => x.sid == n && ! x.whole
    if f.tag ≠ (mine.map fun (x : Staging) => x.bytes.length).getD 0 then
      ((d.rxLive n f).count (Ct.TVX_RX_OOS 0) 1).sessHeartbeat n 1
    else
      d.rxNumbered n f fun d =>
        match d.img.staging with
        | some x => if x.sid = n ∧ ¬ x.whole then d.bundleIn n x data else d.bundleEnd n 0x18 none data
        | none => d.bundleIn n { sid := n } data

/-- An IMAGE frame goes to the boot ROM or to its session. -/
def Dev.imageRx (d : Dev) (f : TvxRx) : Dev := if f.sid < 8 then d.sessionImage f else d.bootImage f

/-- The parts of a verified bundle that are to be applied (R125): of every section and instance, the ones whose store has BASE_VER; one
whose store already has VERSION is skipped. The first section that has neither is the failure. -/
def Dev.bundleParts (d : Dev) (b : List Byte) : List (Nat × Nat × Nat) ⊕ Nat :=
  ((sects b).zipIdx).foldl (fun acc y =>
    match acc with
    | .inr k => .inr k
    | .inl l =>
      let x := y.1
      let insts := sectInsts x
      if insts.all (fun i => d.storeVer x.store i == x.ver || d.storeVer x.store i == x.base) then
        .inl (l ++ (insts.filter fun i => d.storeVer x.store i != x.ver).map fun i => (y.2, x.store, i))
      else .inr y.2) (.inl [])

/-- A fully applied bundle (R128). -/
def Dev.bundleDone (d : Dev) (x : Staging) : Dev :=
  let d := d.unstage
  let d : Dev := { d with img := { d.img with fulls := d.img.fulls + 1, mixed := false } }
  let d := d.fsets [(F.GLB_VERSION.BUNDLES, min 65535 d.img.fulls), (F.GLB_VERSION.MIXED, 0)] []
  (d.raise Ev.IMG_PATCH_DONE 0 unitDev).bundleEnd x.sid 0x10 none x.bytes

/-- The checks of a staged bundle end (R125, R126, R439): it is refused, or its application begins. The spec names no verdict for an
IMAGE_VER that differs: a free value (log entry 2). -/
def Dev.bundleVerify (d : Dev) : Dev :=
  match d.img.staging with
  | none => d
  | some x =>
    if ! x.whole || x.applying then d
    else
      let b := x.bytes
      let refuse := fun (d : Dev) (v : Nat) (k : Option Nat) => d.unstage.bundleEnd x.sid v k b
      match d.imageChecks 1 b with
      | some r => refuse d r.1 r.2
      | none =>
        if hdrFlags b % 2 ≠ d.fget F.GLB_PROFILE.PROFILE [] ∨ hdrFlags b / 4 % 2 ≠ d.fget F.GLB_PROFILE.CLKMODE [] then refuse d 0x1A none
        else if hdrVer b ≠ d.fget F.GLB_VERSION.IMAGE_VER [] then refuse d.drawn (d.freeNow.toNat % 256) none
        else match d.bundleParts b with
          | .inr k => refuse d 0x17 (some k)
          | .inl parts =>
            let sig := fun (b : List Byte) => slice b (hdrTotal b - 96) 96
            let same := findFirst (fun i => sig (d.img.bundles.getD i []) == sig b) (List.range d.img.bundles.length)
            let ix := same.getD d.img.bundles.length
            let now := d.now
            let bundles := if same.isSome then d.img.bundles else d.img.bundles ++ [b]
            let x : Staging := { x with applying := true, bundle := ix, parts := parts, since := now }
            let d : Dev := { d with img := { d.img with bundles := bundles, staging := some x } }
            if parts.isEmpty then d.bundleDone x else d

/-- A context is idle or at a safe point (R93, R127). -/
def Ctx.atSafe (x : Ctx) : Bool := ! x.running || x.inWait || (x.st == .ready && x.since == 0 && x.icount != 0)

/-- Every context of a sequencer is idle or at a safe point at this instant. -/
def Dev.seqAtSafe (d : Dev) (sq : Nat) : Bool := (List.range 8).all fun c => (d.ctx sq c).atSafe

/-- The stages of a slice are empty. -/
def Dev.stagesEmpty (d : Dev) (s : Nat) : Bool :=
  (d.prs.frames.all fun (f : Frame) => ! (d.portSlice f.port == s && match f.loc with | .stage _ => true | _ => false)) &&
    d.buf.copies.all fun (c : Copy) => ! (d.portSlice c.port == s && c.staged && decide (c.estage < 12))

/-- The safe point of a store instance is here (R127). A slice that is drained or down takes its part at once; a patch waits out a takeover
and a resynchronisation. -/
def Dev.patchSafe (d : Dev) (st inst : Nat) : Bool :=
  match st with
  | 1 =>
    if d.precision then d.seqAtSafe inst
    else decide (d.fget F.CSQ_STATUS.STATE [] ∈ [0, 2]) && d.seqAtSafe d.primary
  | 3 => d.sliceHeld inst || d.boundCount inst == 0
  | 4 => d.sliceHeld inst || d.stagesEmpty inst
  | _ => true

/-- One part of a bundle is applied: the golden copy records it, and the live store takes it unless its slice is down or its sequencer is out
of service (R127). -/
def Dev.partApply (d : Dev) (x : Staging) (p : Nat × Nat × Nat) : Dev :=
  let s := sectAt x.bytes p.1
  let d : Dev := { d with img := { d.img with patches := d.img.patches ++ [(x.bundle, p.1, p.2.2)] } }
  let live := match p.2.1 with
    | 1 => d.seqInService p.2.2
    | 3 | 4 => ! d.sliceHeld p.2.2
    | _ => true
  if live then d.putSect x.bytes s p.2.2 else d.setStoreVer p.2.1 p.2.2 s.ver

/-- The next part of a bundle is applied at its safe point (R127, R128); while SHADOWED both sequencer stores are written at one instant. -/
def Dev.patchApply (d : Dev) : Dev :=
  match d.img.staging with
  | none => d
  | some x =>
    match x.parts with
    | [] => d
    | p :: rest =>
      if ! x.applying || ! d.patchSafe p.2.1 p.2.2 then d
      else
        let both := p.2.1 == 1 && ! d.precision && d.fget F.CSQ_STATUS.STATE [] == 0
        let twin := if both then rest.filter fun y => y.1 == p.1 && y.2.1 == 1 else []
        let rest := rest.filter fun y => ! twin.contains y
        let now := d.now
        let d := (p :: twin).foldl (fun (d : Dev) y => d.partApply x y) d
        let x : Staging := { x with parts := rest, since := now }
        let d : Dev := { d with img := { d.img with staging := some x } }
        if rest.isEmpty then d.bundleDone x else d

/-- No safe point has come within PATCH_TMO (R128): the bundle stops at that section. -/
def Dev.patchTimeout (d : Dev) : Dev :=
  match d.img.staging with
  | none => d
  | some x =>
    if ! x.applying || ! d.since x.since (ms (atLeast1 (d.fget F.IMG_CTL.PATCH_TMO []))) then d
    else
      let k := (x.parts.headD (0, 0, 0)).1
      let d : Dev := { d.unstage with img := { d.unstage.img with mixed := true } }
      ((d.fset F.GLB_VERSION.MIXED [] 1).raise Ev.IMG_PATCH_PARTIAL 0 unitDev).bundleEnd x.sid 0x19 (some k) x.bytes

/-- 1 s without a chunk in sequence ends an exchange or the staging of a bundle (R115, R116). -/
def Dev.chunkTimeout (d : Dev) : Dev :=
  let d := if d.img.boot = .receiving ∧ d.since d.img.lastChunk (sec 1) then d.bootFail 0x16 none else d
  match d.img.staging with
  | some x => if ! x.whole && d.since x.lastChunk (sec 1) then d.unstage.bundleEnd x.sid 0x16 none x.bytes else d
  | none => d

/-- The word of a store that read-back names; beyond the store it is 0 (IMG_RDBK_ADDR). -/
def Dev.storeWordAt (d : Dev) (st inst w : Nat) : Nat :=
  match st with
  | 1 => if inst < 2 ∧ w < 65536 then (mget 0 d.csq.store (inst * 65536 + w)).toNat else 0
  | 3 => if inst < 32 ∧ w < 4096 then (mget 0 d.prs.store (inst * 4096 + w)).toNat else 0
  | 4 => if inst < 32 ∧ w < 16384 then (mget 0 d.mat.store (inst * 16384 + w)).toNat else 0
  | 5 => if w < 65536 then (mget 0 d.img.pwrUcode w).toNat else 0
  | 6 => if w < 65536 then (mget 0 d.img.laneUcode w).toNat else 0
  | _ => 0

/-- IMG_RDBK_ADDR is written with GO = 1 (R129, R130). -/
def Dev.readBack (d : Dev) : Dev :=
  let v := if d.fuses.deadbolt then 0
           else d.storeWordAt (d.fget F.IMG_RDBK_ADDR.STORE []) (d.fget F.IMG_RDBK_ADDR.INSTANCE []) (d.fget F.IMG_RDBK_ADDR.WORD [])
  let d := (List.range 8).foldl (fun (d : Dev) w => d.rset .IMG_RDBK_DATA [w] (BitVec.ofNat 64 (v >>> (64 * w)))) d
  let d := d.fset F.IMG_RDBK_ADDR.GO [] 0
  if d.fuses.deadbolt then d.raise Ev.IMG_DEADBOLT_DENY 0 unitDev else d

/-- A fuse command ends (R124): RESULT, and event 92 with ARG = OP. -/
def Dev.fuseResult (d : Dev) (op r : Nat) : Dev :=
  (d.fsets [(F.IMG_FUSE_CMD.RESULT, r), (F.IMG_FUSE_CMD.GO, 0), (F.IMG_FUSE_CMD.CONFIRM, 0)] []).raise Ev.IMG_FUSE op unitDev

/-- The slots that are programmed and not revoked. -/
def Fuses.live (x : Fuses) : List Nat := (List.range 4).filter fun k => x.programmed.getLsbD k && ! x.revoked.getLsbD k

/-- A fuse command that R124 refuses. -/
def Dev.fuseRefused (d : Dev) (op slot target : Nat) : Bool :=
  d.fget F.IMG_FUSE_CMD.CONFIRM [] != 0x4C58 || ! decide (op ∈ [1, 2, 3]) ||
    (op == 1 && ((d.fbit F.GLB_PROFILE.LOADED [] && slot == d.fget F.GLB_FUSE.SLOT []) || d.fuses.live == [slot])) ||
    (op == 2 && (decide (d.fget F.GLB_VERSION.SVN [] < target) || decide (128 < target)))

/-- IMG_FUSE_CMD is written with GO = 1 (R124): refused, or blowing starts; a command with nothing to blow is done at once. -/
def Dev.fuseGo (d : Dev) : Dev :=
  if d.img.fuseBusy.isSome then d
  else
    let op := d.fget F.IMG_FUSE_CMD.OP []
    let slot := d.fget F.IMG_FUSE_CMD.SLOT []
    let target := d.fget F.IMG_FUSE_CMD.VALUE []
    if d.fuseRefused op slot target then d.fuseResult op 2
    else
      let blown := match op with
        | 1 => d.fuses.revoked.getLsbD slot
        | 2 => decide (target ≤ d.fuses.rollback)
        | _ => d.fuses.deadbolt
      if blown then d.fuseResult op 1
      else
        let x : FuseCmd := { op := op, slot := slot, target := target, start := d.now, base := d.fuses.rollback }
        { d with img := { d.img with fuseBusy := some x } }

/-- What blowing the deadbolt does to the fault injector (R129; the read-back data read 0 from then on, IMG_RDBK_DATA): it is held off, and the frames held for reordering are released in the
order in which they arrived. -/
def Dev.injectorOff (d : Dev) : Dev :=
  d.portList.foldl (fun (d : Dev) p => if d.fbit F.INJ_CTL.EN [p] then d.injDisable p else d) d

/-- Fuses blow, 1 ms each (R124): the counter one fuse at a time, upward; when all are blown the command is done. -/
def Dev.fuseBlow (d : Dev) : Dev :=
  match d.img.fuseBusy with
  | none => d
  | some x =>
    let n := (d.now - x.start) / ms 1
    if n = 0 then d
    else
      let done := x.op != 2 || decide (x.target ≤ x.base + n)
      let f := d.fuses
      let f : Fuses := match x.op with
        | 1 => { f with revoked := f.revoked ||| BitVec.ofNat 4 (2 ^ x.slot) }
        | 2 => { f with rollback := max f.rollback (min x.target (x.base + n)) }
        | _ => { f with deadbolt := true }
      let d : Dev := { d with fuses := f }
      if ! done then d
      else
        let d : Dev := { d with img := { d.img with fuseBusy := none } }
        let d := if x.op = 3 then (List.range 8).foldl (fun (d : Dev) w => d.rset .IMG_RDBK_DATA [w] 0) d.injectorOff else d
        d.fuseResult x.op 1

end Sys2Proof.Machine
end

