-- ==== Sys2Proof/Machine/Repair.lean ====
section
/-! DEFINITION. Slice drain and rebuild, sequencer faults and their repair, lane restore (chapter 18, R22, R110 to R112), and the commands
of chapters 17 and 18 that stand on their own. -/

namespace Sys2Proof.Machine

set_option cleanup.letToHave false

/-- The slice holds no frame (R398): none unfinished on ingress, none of its cells on the way to the crossbar, none in its egress stages or
on the wire. -/
def Dev.sliceEmpty (d : Dev) (s : Nat) : Bool :=
  (d.prs.frames.all fun (f : Frame) => ! (d.portSlice f.port == s) || f.loc == .gone) &&
    (! d.buf.voq.any fun (c : VoqCell) => c.ingress == s) && (! d.buf.crossed.any fun (c : VoqCell) => c.ingress == s) &&
    ! d.buf.copies.any fun (c : Copy) => d.portSlice c.port == s && (c.staged || c.started)

/-- The enabled ports of a slice. -/
def Dev.slicePorts (d : Dev) (s : Nat) : List Nat := d.portList.filter fun p => d.fbit F.LN_PORT.EN [p] && d.portSlice p == s

/-- DRAIN ends (R398): unbound frames are discarded, and once the slice holds no frame its ports leave UP and its lanes enter deep shut; REBUILD
starts, and resets the telemetry units, which R400 does not keep: the flow cache and the kept counter selections (R399). -/
def Dev.sliceDrainDone (d : Dev) : Dev :=
  match d.rep.cur with
  | none => d
  | some r =>
    let s := r.slice
    if d.fget F.GLB_REP_STATUS.STATE [] ≠ 1 then d
    else
      let d := d.discardUnbound s
      if ! d.sliceEmpty s then d
      else
        let ps := d.slicePorts s
        let d := ps.foldl (fun (d : Dev) p => (d.leaveUp p).setPort p 7) d
        let d := d.fset F.GLB_REP_STATUS.STATE [] 2
        let d : Dev := { d with mat := { d.mat with flows := d.mat.flows.filter fun (f : Flow) => f.slice != s,
                                                    kept := d.mat.kept.filter fun (x : Nat × Word) => x.1 / 16 != s } }
        (d.refreshLanes (ps.flatMap d.portLaneList)).refreshDomains []

/-- The next repair that waits starts (R395). -/
def Dev.nextRepair (d : Dev) : Dev :=
  match d.rep.queue with
  | s :: _ => d.sliceRepairStart s
  | [] => d

/-- A slice repair is over: the automatic triggers and the LANE_GOs kept for it act, and the next one starts (R395). -/
def Dev.sliceRepairOver (d : Dev) : Dev :=
  let lanes := d.rep.keptLanes
  let gos := d.rep.keptGo
  let s := (d.rep.cur.map fun (r : SliceRepair) => r.slice).getD 0
  let d : Dev := { d with rep := { d.rep with cur := none, keptLanes := [], keptGo := [] } }
  let d := (d.fset F.GLB_REP_STATUS.STATE [] 0).refreshDomains []
  let d := lanes.foldl (fun (d : Dev) n => d.laneTrigger n) d
  let d := if d.fbit F.LN_SPARE.GO [s] then d.spareGo s else d
  (gos.foldl (fun (d : Dev) s => d.restoreGo s) d).nextRepair

/-- Addresses that the scrub finds bad are logged (R191, R399): KIND × 2^27 + TABLE × 2^21 + SASH × 2^20 + INDEX each. -/
def Dev.scrubLog (d : Dev) (s : Nat) (l : List Nat) : Dev :=
  l.foldl (fun (d : Dev) x => d.badDetect s (bitsN x 26 21) (bitsN x 27 27) (bitsN x 20 20) (bitsN x 19 0)) d

/-- A port of the slice comes back (R401): one that was UP at the trigger leaves deep shut into ALIGN, any other starts bring-up; DORMANT
keeps a port where it is. -/
def Dev.portReturns (d : Dev) (ups : List Nat) (p : Nat) : Dev :=
  if d.portState p ≠ 7 ∨ d.fbit F.LN_PCTL.DORMANT [p] then d
  else if ups.contains p then d.leaveDeep p
  else d.bringUp p

/-- REBUILD ends (R399, R401, R402): `res` 0 the stores are reloaded and checked, 1 a digest does not match, 2 an uncorrectable error survives
soft repair; the scrub soft-repairs rows in the macros of `rows`, and finds the addresses of `log` and the 16 B units of `bad` bad. -/
def Dev.sliceRebuildDone (d : Dev) (res : Nat) (rows log bad : List Nat) : Dev :=
  match d.rep.cur with
  | none => d
  | some r =>
    let s := r.slice
    if d.fget F.GLB_REP_STATUS.STATE [] ≠ 2 then d
    else
      let d := rows.foldl (fun (d : Dev) m => d.sramRepair (66 + s) m true) d
      if res ≠ 0 then
        let d := d.fset F.GLB_REP_FAILED.FAILED [] (d.fget F.GLB_REP_FAILED.FAILED [] ||| 2 ^ s)
        let d := d.raise Ev.REP_SLICE_FAIL s (unitSlice s)
        let d := if res = 1 then d.raise Ev.IMG_GOLDEN_BAD 0 (unitSlice s) else d
        d.sliceRepairOver
      else
        let d := ((d.reloadStore 3 s).reloadStore 4 s).scrubLog s log
        let d := (d.markBad s bad).fset F.GLB_REP_STATUS.STATE [] 3
        (d.slicePorts s).foldl (fun (d : Dev) p => d.portReturns r.upPorts p) d

/-- RETURN ends (R401, R411): every port that was UP at the trigger has reached ALIGN. -/
def Dev.sliceReturnDone (d : Dev) : Dev :=
  match d.rep.cur with
  | none => d
  | some r =>
    let s := r.slice
    let back := r.upPorts.all fun p => ! d.fbit F.LN_PORT.EN [p] || d.fbit F.LN_PCTL.DORMANT [p] || d.portState p != 7
    if d.fget F.GLB_REP_STATUS.STATE [] ≠ 3 ∨ ! back then d
    else
      let f := d.fget F.GLB_REP_FAILED.FAILED []
      let d := d.fset F.GLB_REP_FAILED.FAILED [] (if bitN f s then f - 2 ^ s else f)
      ((d.raise Ev.REP_SLICE_DONE s (unitSlice s)).recovered 3 s r.lost 0 r.start).sliceRepairOver

/-- The running routines of a sequencer stop with the error REPLY of Precision (R22). -/
def Dev.seqStop (d : Dev) (sq : Nat) : Dev :=
  (List.range 8).foldl (fun (d : Dev) c =>
    if (d.ctx sq c).running then d.routineEnd sq c .stopped 6 none else d) d

/-- A sequencer is out of service from now on. -/
def Dev.seqLost (d : Dev) (sq : Nat) : Dev :=
  let now := d.now
  { d with csq := { d.csq with faulted := if d.csq.faulted.contains sq then d.csq.faulted else d.csq.faulted ++ [sq],
                               faultTime := mins d.csq.faultTime sq now } }

/-- A sequencer fault (R22, R110, R111). -/
def Dev.seqFault (d : Dev) (sq : Nat) : Dev :=
  if d.precision then
    if d.csq.faulted.contains sq then d
    else if ! d.seqInService (1 - sq) then (d.raise Ev.CSQ_SEQ_FAULT sq unitDev).warmRestart 5
    else ((d.seqLost sq).raise Ev.CSQ_SEQ_FAULT sq unitDev).seqStop sq
  else
    match d.fget F.CSQ_STATUS.STATE [] with
    | 0 =>
      if sq = d.primary then ((d.seqLost sq).fset F.CSQ_STATUS.STATE [] 1).raise Ev.CSQ_TAKEOVER sq unitDev
      else ((d.seqLost sq).fset F.CSQ_STATUS.STATE [] 2).raise Ev.CSQ_SHADOW_LOST sq unitDev
    | 1 => if sq = d.primary then d else d.warmRestart 5
    | 2 => if sq = d.primary then d.warmRestart 5 else d
    | _ => if sq = d.primary then d.warmRestart 5 else ((d.seqLost sq).fset F.CSQ_STATUS.STATE [] 2).raise Ev.CSQ_SHADOW_LOST sq unitDev

/-- The core frequency in MHz: that of the operating point in force. -/
def Dev.coreMHz (d : Dev) : Nat := atLeast1 (d.fget F.CLK_OP.FREQ [d.curOp])

/-- n core clocks. -/
def Dev.coreTime (d : Dev) (n : Nat) : Nat := us n / d.coreMHz

/-- The watchdog of a sequencer expires (R110). -/
def Dev.watchdog (d : Dev) (sq : Nat) : Dev :=
  let ready := (List.range 8).any fun c => (d.ctx sq c).st == .ready
  if ready ∧ d.seqInService sq ∧ d.since (d.csq.lastRetire.getD sq 0) (d.coreTime (2 ^ max 16 (d.fget F.CSQ_CTL.WDOG [sq]))) then d.seqFault sq else d

/-- A takeover ends (R111, R112, R411): every context has resumed on the former shadow. -/
def Dev.takeoverDone (d : Dev) : Dev :=
  if d.precision || d.fget F.CSQ_STATUS.STATE [] != 1 then d
  else
    let old := d.primary
    let new := 1 - old
    let ctxs := (List.range 8).map fun c => d.ctx old c
    let blank := List.replicate 8 ({} : Ctx)
    let d : Dev := { d with csq := { d.csq with ctxs := if new = 1 then blank ++ ctxs else ctxs ++ blank } }
    let d : Dev := { d with mat := { d.mat with tblHold := d.mat.tblHold.map fun (x : Nat × Nat) => (x.1, x.2 / 16 * 16 + ctxIx new (x.2 % 8)) } }
    let d : Dev := { d with que := { d.que with draining := d.que.draining.map fun (x : Nat × Nat) => (ctxIx new (x.1 % 8), x.2) } }
    let d := (List.range 8).foldl (fun (d : Dev) n => if d.sessionOpen n then d.fset F.TVX_SESSION.SEQ [n] new else d) d
    let d := d.fsets [(F.CSQ_STATUS.STATE, 2), (F.CSQ_STATUS.PRIMARY, new)] []
    (d.raise Ev.CSQ_TAKEOVER new unitDev).recovered 6 old 0 0 (mget 0 d.csq.faultTime old)

/-- A resynchronisation ends (R111): at an instant when every context of the primary is idle or at a safe point the state is copied. -/
def Dev.resyncDone (d : Dev) : Dev :=
  if d.precision || d.fget F.CSQ_STATUS.STATE [] != 3 || ! d.seqAtSafe d.primary then d
  else
    let p := d.primary
    let o := 1 - p
    let mine := d.csq.store.filter fun (x : Nat × Word) => x.1 / 65536 == p
    let copy := mine.map fun (x : Nat × Word) => (o * 65536 + x.1 % 65536, x.2)
    let d : Dev := { d with csq := { d.csq with store := if p = 0 then mine ++ copy else copy ++ mine } }
    let d := (List.range 8).foldl (fun (d : Dev) c =>
      d.fsets [(F.CSQ_REGION.BASE, d.regionBase p c), (F.CSQ_REGION.LEN, d.regionLen p c)] [o, c]) d
    let d := d.fsets [(F.CSQ_LIB.BASE, d.fget F.CSQ_LIB.BASE [p]), (F.CSQ_LIB.LEN, d.fget F.CSQ_LIB.LEN [p])] [o]
    d.fset F.CSQ_STATUS.STATE [] 0

/-- The repair of a sequencer out of service starts (R406). -/
def Dev.seqRepairStart (d : Dev) (sq : Nat) : Dev :=
  let takeover := ! d.precision && d.fget F.CSQ_STATUS.STATE [] == 1
  if ! d.csq.faulted.contains sq || d.csq.repairing.contains sq || takeover then d
  else { d with csq := { d.csq with repairing := d.csq.repairing ++ [sq] } }

/-- GLB_REP_CTL.CSQ_GO (R406). -/
def Dev.csqGo (d : Dev) (sq : Nat) : Dev := (d.fset F.GLB_REP_CTL.CSQ_GO [] 0).seqRepairStart sq

/-- 100 ms after a sequencer fault, with CSQ_AUTO = 1 (R406); a repair that failed waits for CSQ_GO. -/
def Dev.seqRepairAuto (d : Dev) (sq : Nat) : Dev :=
  match mget? d.csq.faultTime sq with
  | some t => if d.fbit F.GLB_REP_CTL.CSQ_AUTO [] ∧ d.since t (ms 100) then d.seqRepairStart sq else d
  | none => d

/-- The repair of a sequencer ends (R406, R411): `res` 0 reloaded and tested, 1 a digest does not match, 2 the self-test fails. -/
def Dev.seqRepairDone (d : Dev) (sq res : Nat) : Dev :=
  if ! d.csq.repairing.contains sq then d
  else
    let start := mget d.now d.csq.faultTime sq
    let d : Dev := { d with csq := { d.csq with repairing := d.csq.repairing.filter (· != sq), faultTime := mdel d.csq.faultTime sq } }
    if res ≠ 0 then
      let d := if res = 1 then d.raise Ev.IMG_GOLDEN_BAD 0 unitDev else d
      d.raise Ev.REP_CSQ_REPAIR_FAIL sq unitDev
    else
      let d : Dev := { d with csq := { d.csq with faulted := d.csq.faulted.filter (· != sq),
                                                  store := d.csq.store.filter fun (x : Nat × Word) => x.1 / 65536 != sq } }
      let d := (d.reloadStore 2 sq).reloadStore 1 sq
      let d := if d.precision then (List.range 8).foldl (fun (d : Dev) c => d.ctxMod sq c fun x => x.stop .idle) d
               else d.fset F.CSQ_STATUS.STATE [] 3
      (d.raise Ev.REP_CSQ_REPAIRED sq unitDev).recovered 7 sq 0 0 start

/-- The retest of a lane that is to be restored ends, 10 ms after its start (R407). -/
def Dev.laneRetestDone (d : Dev) (s : Nat) (ok : Bool) : Dev :=
  match d.sparingOf s with
  | none => d
  | some x =>
    if ! x.restore || x.tested || ! d.since x.start (ms 10) then d
    else if ok then { d with lane := { d.lane with sparing := mins d.lane.sparing s { x with tested := true } } }
    else d.restoreFail s

/-- STATUS bits of an event group are written 1 (R390): HIGH clears with them. -/
def Dev.evClear (d : Dev) (g bits : Nat) : Dev :=
  let off := fun (v : Nat) => v - (v &&& bits)
  d.fsets [(F.EVT_STATUS.STATUS, off (d.fget F.EVT_STATUS.STATUS [g])), (F.EVT_STATUS.HIGH, off (d.fget F.EVT_STATUS.HIGH [g]))] [g]

/-- GLB_REP_CTL.GO for a slice (R396): its domain is on for the repair (R332). -/
def Dev.sliceGo (d : Dev) (s : Nat) : Dev := ((d.fset F.GLB_REP_CTL.GO [] 0).sliceRepairAsk s).refreshDomains []

/-- DIGEST_SCAN (R379). -/
def execDigestScan (t sl : Nat) (s : State) : Out := s.run fun d => d.timed t fun d => if sl < 32 ∧ d.sliceOn sl then d.digestScan sl else d

/-- DIGEST_FLUSH (R379). -/
def execDigestFlush (sl : Nat) (s : State) : Out := s.run fun d => d.sw fun d => if sl < 32 then d.digestFlush sl else d

/-- DIGEST_DISABLE (R379). -/
def execDigestDisable (sl j : Nat) (s : State) : Out := s.run fun d => d.sw fun d => if sl < 32 ∧ j < 4 then d.digestDisable sl j else d

/-- COUNTER_SELECTION_POLL (R386). -/
def execCounterSelectionPoll (t sl : Nat) (s : State) : Out :=
  s.run fun d => d.timed t fun d => if sl < 32 ∧ d.sliceOn sl then d.cselPoll sl else d

/-- EVENT_STATUS_CLEAR (R390). -/
def execEventStatusClear (g bits : Nat) (s : State) : Out := s.run fun d => d.sw fun d => if g < 48 then d.evClear g (bits % 2 ^ 32) else d

/-- EVENT_MASK_WRITE (R390). -/
def execEventMaskWrite (g v : Nat) (s : State) : Out := s.run fun d => d.sw fun d => if g < 48 then d.fset F.EVT_MASK.MASK [g] v else d

/-- SLICE_REPAIR_GO (R396). -/
def execSliceRepairGo (sl : Nat) (s : State) : Out := s.run fun d => d.sw fun d => if sl < 32 then d.sliceGo sl else d

/-- SLICE_DRAIN_DONE (R398). -/
def execSliceDrainDone (t : Nat) (s : State) : Out := s.run fun d => d.timed t fun d => d.sliceDrainDone

/-- SLICE_REBUILD_DONE (R399). -/
def execSliceRebuildDone (t res : Nat) (rows log bad : List Nat) (s : State) : Out :=
  s.run fun d => d.timed t fun d => d.sliceRebuildDone res rows log bad

/-- SLICE_RETURN_DONE (R401). -/
def execSliceReturnDone (t : Nat) (s : State) : Out := s.run fun d => d.timed t fun d => d.sliceReturnDone

/-- SEQUENCER_REPAIR_GO (R406). -/
def execSequencerRepairGo (sq : Nat) (s : State) : Out := s.run fun d => d.sw fun d => if sq < 2 then d.csqGo sq else d

/-- SEQUENCER_REPAIR_AUTO (R406). -/
def execSequencerRepairAuto (t sq : Nat) (s : State) : Out := s.run fun d => d.timed t fun d => if sq < 2 then d.seqRepairAuto sq else d

/-- SEQUENCER_REPAIR_DONE (R406). -/
def execSequencerRepairDone (t sq res : Nat) (s : State) : Out := s.run fun d => d.timed t fun d => d.seqRepairDone sq res

/-- LANE_RESTORE_GO (R407). -/
def execLaneRestoreGo (sl : Nat) (s : State) : Out :=
  s.run fun d => d.sw fun d => if sl < 32 then (d.fset F.GLB_REP_CTL.LANE_GO [] 0).restoreGo sl else d

/-- LANE_RETEST_DONE (R407). -/
def execLaneRetestDone (t sl : Nat) (ok : Bool) (s : State) : Out :=
  s.run fun d => d.timed t fun d => if sl < 32 then d.laneRetestDone sl ok else d

/-- SEQUENCER_FAULT (R110). -/
def execSequencerFault (t sq : Nat) (s : State) : Out := s.run fun d => d.timed t fun d => if sq < 2 ∧ d.imageLoaded then d.seqFault sq else d

/-- WATCHDOG_EXPIRY (R110). -/
def execWatchdogExpiry (t sq : Nat) (s : State) : Out := s.run fun d => d.timed t fun d => if sq < 2 then d.watchdog sq else d

/-- TAKEOVER_COMPLETE (R111). -/
def execTakeoverComplete (t : Nat) (s : State) : Out := s.run fun d => d.timed t fun d => d.takeoverDone

/-- RESYNC_COMPLETE (R111). -/
def execResyncComplete (t : Nat) (s : State) : Out := s.run fun d => d.timed t fun d => d.resyncDone

end Sys2Proof.Machine
end

