-- ==== Sys2Proof/Machine/Operands.lean ====
section
/-! DEFINITION. The operand forms of the sequencer's instruction word (R84) and the words that R84 calls ILLEGAL. -/

namespace Sys2Proof.Machine

/-- OP, PN, PI, RD, RA, RB, FN and IMM of an instruction word (R84). -/
def iOp (w : Word) : Nat := wbits w 63 58
def iPn (w : Word) : Nat := wbits w 57 57
def iPi (w : Word) : Nat := wbits w 56 54
def iRd (w : Word) : Nat := wbits w 53 49
def iRa (w : Word) : Nat := wbits w 48 44
def iRb (w : Word) : Nat := wbits w 43 39
def iImm (w : Word) : Nat := wbits w 31 0
/-- FN[hi:lo], numbered as the word's bits 38 to 32. -/
def iFn (w : Word) (hi lo : Nat) : Nat := wbits w hi lo
/-- The FN bit `b`. -/
def iFnB (w : Word) (b : Nat) : Bool := w.getLsbD b

/-- sext(IMM) as a word. -/
def iSimm (w : Word) : Word := BitVec.ofNat 64 (unsext 64 (sext 32 (iImm w)))

/-- The msb and lsb that IMM gives a field instruction (R87, R91). -/
def iMsb (w : Word) : Nat := bitsN (iImm w) 11 6
def iLsb (w : Word) : Nat := bitsN (iImm w) 5 0

/-- The predicate P[FN[38:36]], and P[FN[37:35]] of CMP. -/
def iPd (w : Word) : Nat := wbits w 38 36
def iPc (w : Word) : Nat := wbits w 37 35

/-- The FN bits outside `used` are 0 (R84); `used` is the mask of FN bits, FN[32] as bit 0. -/
def fnClear (w : Word) (used : Nat) : Bool := (wbits w 38 32 &&& (127 - used)) == 0

/-- The mask of FN bits that an opcode uses (R84, table FN bits used by each opcode); none for an OP outside the opcode table. -/
def fnUsed (op : Nat) : Option Nat :=
  match op with
  | 0x01 | 0x02 | 0x04 | 0x09 | 0x0A | 0x0C | 0x0D | 0x10 | 0x12 | 0x13 | 0x15 | 0x18 => some 0
  | 0x05 | 0x06 => some 0b1111000
  | 0x08 => some 0b1001111
  | 0x0B => some 0b1111111
  | 0x11 | 0x14 => some 0b0000001
  | 0x19 | 0x1F => some 0b1110000
  | 0x1A => some 0b1111111
  | 0x1B => some 0b1111100
  | 0x1C => some 0b1001111
  | 0x1D => some 0b0000001
  | 0x1E => some 0b0111101
  | _ => none

/-- A word that is ILLEGAL whatever its predicate: its OP, its FN, or a register or field operand out of range (R84, R87, R90, R91, R99,
R100, R102, R103). EMIT's ID is checked as it executes (R85, R107), an immediate ID here. -/
def illegalWord (w : Word) : Bool :=
  match fnUsed (iOp w) with
  | none => true
  | some used =>
    ! fnClear w used ||
    match iOp w with
    | 0x06 | 0x0C | 0x0D => decide (iMsb w < iLsb w)
    | 0x08 => iFn w 35 32 == 15
    | 0x18 => ! (iRb w == 0 || iRb w == 8 || iRb w == 16 || iRb w == 24)
    | 0x19 => decide (29 < iRd w)
    | 0x1A => decide (4 < iFn w 35 33) || (iFnB w 32 && iFn w 35 33 != 0)
    | 0x1D => iFnB w 32 && decide (1535 < bitsN (iImm w) 10 0)
    | 0x1E => iImm w != 0
    | _ => false

/-- The field msb to lsb of a word, zero-extended (BFX). -/
def bfx (a : Word) (msb lsb : Nat) : Word := BitVec.ofNat 64 (wbits a msb lsb)

/-- A word with its field msb to lsb replaced by the low bits of another (BFI, STF). -/
def bfi (old a : Word) (msb lsb : Nat) : Word := wput old msb lsb a.toNat

end Sys2Proof.Machine
end

