-- ==== Sys2Proof/Machine/SchedCmds.lean ====
section
/-! DEFINITION. The commands of chapters 11 and 12: scheduling, transmission, shapers, peephole rings, shutters and preemption. -/

namespace Sys2Proof.Machine

set_option cleanup.letToHave false

/-- SCHEDULER_SELECT (R249): the scheduler of port p makes its next selection. -/
def execSchedulerSelect (p : Nat) (s : State) : Out := s.run fun d => d.pathNow fun d => d.select p

/-- FRAME_TX_START (R276): the first bit of port p's next frame is due. -/
def execFrameTxStart (t p : Nat) (s : State) : Out := s.run fun d => d.path t fun d => d.txStart p

/-- FRAME_TX_END (R198): `ecc` are the cells whose read found an uncorrectable error, `corr` those of the corrected ones, one entry each. -/
def execFrameTxEnd (t p : Nat) (ecc corr : List Nat) (s : State) : Out := s.run fun d => d.path t fun d => d.txEnd p ecc corr

/-- SHAPER_ELIGIBLE (R255): shaper k of MAC slot m of slice sl. -/
def execShaperEligible (t sl m k : Nat) (s : State) : Out :=
  s.run fun d => d.path t fun d => if sl < 32 ∧ m < 32 ∧ k < 33 then d.shpRelease sl m k else d

/-- COARSE_SLOT_BEGIN (R255). -/
def execCoarseSlotBegin (t sl : Nat) (s : State) : Out := s.run fun d => d.path t fun d => d.coarseSlot sl

/-- METER_RESET (R261): MTR_A.RESET of meter i of slice sl is written 1. -/
def execMeterReset (sl i : Nat) (s : State) : Out := s.run fun d => d.sw fun d => if sl < 32 ∧ i < 65536 then d.meterReset sl i else d

/-- Ring r fits the store and overlaps no enabled ring (R262). -/
def Dev.ringFits (d : Dev) (r : Nat) : Bool :=
  let b := d.fget F.PEP_RING.BASE [r]
  let n := d.fget F.PEP_RING.SIZE [r]
  decide (1 ≤ n) && decide (b + n ≤ 2048) && (List.range 256).all fun i =>
    i == r || ! d.fbit F.PEP_RING.EN [i] || decide (b + n ≤ d.fget F.PEP_RING.BASE [i]) ||
      decide (d.fget F.PEP_RING.BASE [i] + d.fget F.PEP_RING.SIZE [i] ≤ b)

/-- PEP_RING[r].EN is written 1 (R262). -/
def Dev.ringEnable (d : Dev) (r : Nat) : Dev :=
  if d.fbit F.PEP_RING.EN [r] then d
  else if d.ringFits r then d.fset F.PEP_RING.EN [r] 1
  else d.raise Ev.PEP_CFGERR r unitDev

/-- The word of a sequencer's store that a context's PC names (R82). -/
def Dev.seqWord (d : Dev) (sq c : Nat) : Word := mget 0 d.csq.store (sq * 65536 + (d.ctx sq c).pc.toNat)

/-- The XPORT in progress of a context completes: G[RD] has the number of records exported (R102). -/
def Dev.xportEnd (d : Dev) (sq c : Nat) : Dev :=
  let rd := iRd (d.seqWord sq c)
  let n := match (d.ctx sq c).xport with
    | some (_, _, k) => k
    | none => 0
  let d : Dev := { d with que := { d.que with draining := d.que.draining.filter fun y => y.1 != ctxIx sq c } }
  (d.retired sq).ctxMod sq c fun x => { x.complete with g := lmod x.g rd fun _ => BitVec.ofNat 64 n, xport := none }

/-- PEP_RING[r].EN is written 0 (R262): the records go, and with them an XPORT that drains the ring. -/
def Dev.ringDisable (d : Dev) (r : Nat) : Dev :=
  let who := (d.que.draining.filter fun x => x.2 == r).map (·.1)
  let d := who.foldl (fun (d : Dev) i => d.xportEnd (i / 8) (i % 8)) (d.fset F.PEP_RING.EN [r] 0)
  let d : Dev := { d with que := { d.que with rings := mdel d.que.rings r, draining := d.que.draining.filter fun x => x.2 != r } }
  d.fset F.PEP_RING_STAT.USED [r] 0

/-- PEP_RING_ENABLE (R262). -/
def execPepRingEnable (r : Nat) (s : State) : Out := s.run fun d => d.sw fun d => if r < 256 then d.ringEnable r else d

/-- PEP_RING_DISABLE (R262). -/
def execPepRingDisable (r : Nat) (s : State) : Out := s.run fun d => d.sw fun d => if r < 256 then d.ringDisable r else d

/-- The record that slice sl queued first is written to its ring (R265). -/
def Dev.recordWrite (d : Dev) (sl : Nat) : Dev :=
  match findFirst (fun (r : PepPending) => r.slice == sl) d.que.pending with
  | none => d
  | some r => Dev.pepWrite { d with que := { d.que with pending := d.que.pending.erase r } } r

/-- PEEPHOLE_RECORD_WRITE (R263). -/
def execPeepholeRecordWrite (sl : Nat) (s : State) : Out := s.run fun d => d.pathNow fun d => d.recordWrite sl

/-- The mask in force of port p follows phase (R272): a preemptable frame whose queue has closed ends its fragment at the first point that
R281 allows. -/
def Dev.maskChange (d : Dev) (p : Nat) : Dev :=
  let d := if d.phaseValid then d.countSkips p d.phase else d
  let d := d.setMask p (d.portMask p)
  match d.sending p with
  | some c =>
    if d.copyPre c && c.frag.isNone && ! bitN (d.portMask p) c.queue then
      match d.cutPoint c with
      | some n => d.copyMod c.id fun (x : Copy) => { x with frag := some n }
      | none => d
    else d
  | none => d

/-- SHUTTER_MASK_CHANGE (R272). -/
def execShutterMaskChange (t p : Nat) (s : State) : Out := s.run fun d => d.path t fun d => if d.fbit F.LN_PORT.EN [p] then d.maskChange p else d

/-- The port number in event 266's argument: that of the MAC slot's enabled port. -/
def Dev.shuArg (d : Dev) (sl m : Nat) : Nat := (d.slotPort sl m).getD 0

/-- SHU_CTL.COMMIT is written 1 (R273). -/
def Dev.shuCommit (d : Dev) (sl m : Nat) : Dev := if d.fbit F.SHU_CTL.COMMIT [sl, m] then d else d.fset F.SHU_CTL.COMMIT [sl, m] 1

/-- A dropped write to a shutter list (R273). -/
def Dev.shuDrop (d : Dev) (sl m : Nat) : Dev :=
  let p := d.shuArg sl m
  (d.count (Ct.SHU_DROP_CNT p) 1).raise Ev.SHU_REFUSED p (unitSlice sl)

/-- The first entry of a shadow list that is out of order (R273). -/
def Dev.shuFault (d : Dev) (sl m : Nat) : Option Nat :=
  let ph := fun n => d.fget F.SHU_ENTRY.PHASE [sl, m, n]
  findFirst (fun n => decide (0 < n) && decide (ph n < ph (n - 1))) (List.range (min 256 (d.fget F.SHU_CTL.LEN [sl, m])))

/-- The order check of a commit ends (R273). -/
def Dev.shuCheckDone (d : Dev) (sl m : Nat) : Dev :=
  let k := slotKey sl m
  if ! d.fbit F.SHU_CTL.COMMIT [sl, m] || d.shu.checked.contains k then d
  else match d.shuFault sl m with
    | some n =>
      (d.fsets [(F.SHU_CTL.ERR, 1), (F.SHU_CTL.ERRIDX, n), (F.SHU_CTL.COMMIT, 0)] [sl, m]).raise Ev.SHU_REFUSED (d.shuArg sl m) (unitSlice sl)
    | none => if d.cycState = 0 then d.shuActivate k else { d with shu := { d.shu with checked := d.shu.checked ++ [k] } }

/-- A write of entry n of a shadow list, or with n = 256 of LEN (R273): a write that leaves LEN as it reads is never dropped. -/
def Dev.shuEntryWrite (d : Dev) (sl m n : Nat) (w : Word) : Dev :=
  let busy := d.fbit F.SHU_CTL.COMMIT [sl, m]
  if n < 256 then (if busy then d.shuDrop sl m else d.rset .SHU_ENTRY [sl, m, n] (w &&& BitVec.ofNat 64 (2 ^ 52 - 1)))
  else
    let len := wbits w 8 0
    if d.fget F.SHU_CTL.LEN [sl, m] = len then d else if busy then d.shuDrop sl m else d.fset F.SHU_CTL.LEN [sl, m] len

/-- SHUTTER_COMMIT (R273): SHU_CTL.COMMIT of MAC slot m of slice sl is written 1. -/
def execShutterCommit (sl m : Nat) (s : State) : Out := s.run fun d => d.sw fun d => if sl < 32 ∧ m < 32 then d.shuCommit sl m else d

/-- SHUTTER_CHECK_DONE (R273). -/
def execShutterCheckDone (t sl m : Nat) (s : State) : Out :=
  s.run fun d => d.path t fun d => if sl < 32 ∧ m < 32 then d.shuCheckDone sl m else d

/-- SHUTTER_ENTRY_WRITE (R273): n = 256 is a write of LEN. -/
def execShutterEntryWrite (sl m n : Nat) (w : Word) (s : State) : Out :=
  s.run fun d => d.sw fun d => if sl < 32 ∧ m < 32 ∧ n ≤ 256 then d.shuEntryWrite sl m n w else d

/-- The verify procedure of a port ends (R280): it fails after three tries of 10 ms. -/
def Dev.verifyEnd (d : Dev) (p : Nat) (ok : Bool) : Dev :=
  let ix := d.pIx p
  if ! d.portUp p || d.fget F.SHU_STAT.PSTATE ix != 1 then d
  else if ok then d.fset F.SHU_STAT.PSTATE ix 2
  else if d.since (mget 0 d.shu.verifyAt p) (ms 30) then (d.fset F.SHU_STAT.PSTATE ix 3).raise Ev.SHU_VERIFY_FAIL p (d.unitPort p)
  else d

/-- PREEMPTION_VERIFY (R280). -/
def execPreemptionVerify (t p : Nat) (ok : Bool) (s : State) : Out := s.run fun d => d.path t fun d => d.verifyEnd p ok

end Sys2Proof.Machine
end

