-- ==== Sys2Proof/Machine/Bus.lean ====
section
/-! DEFINITION. The register space as the sequencers reach it (R5 to R12, R65, R66, R86 to R88): what a store starts beyond its
fields, what a load returns, and which accesses a privilege forbids. -/

namespace Sys2Proof.Machine

set_option cleanup.letToHave false

/-- A store on its way: the accessor, the register and its indices, the value and the mask of the bits written. -/
structure Store where
  sq : Nat
  c : Nat
  n : RegName
  ix : List Nat
  v : Word
  m : Word

/-- The store without the fields `l`, which the block handles itself. -/
def Store.less (s : Store) (l : List Fld) : Word := l.foldl (fun (m : Word) f => m &&& ~~~(fieldMask f.hi f.lo)) s.m

/-- The fields of the store other than `l` are applied by their access codes and classes (R12). -/
def Store.put (s : Store) (d : Dev) (l : List Fld) : Dev := d.storeReg s.sq s.c s.n s.ix s.v (s.less l)

/-- The store writes 1 to the bit f. -/
def Store.one (s : Store) (f : Fld) : Bool := (s.v &&& s.m).getLsbD f.hi

/-- The store covers the top bit of f. -/
def Store.hits (s : Store) (f : Fld) : Bool := s.m.getLsbD f.hi

/-- The register as the store would leave it, were every field plain. -/
def Store.word (s : Store) (d : Dev) : Word := (d.rget s.n s.ix &&& ~~~s.m) ||| (s.v &&& s.m)

/-- What the store makes of a plain field. -/
def Store.get (s : Store) (d : Dev) (f : Fld) : Nat := wbits (s.word d) f.hi f.lo

/-- Index i of the register's instance. -/
def Store.i (s : Store) (i : Nat) : Nat := s.ix.getD i 0

/-- A log whose VALID is written 1 clears OVERRUN too, and takes the next record (R24 and the logs' registers). -/
def Store.log (s : Store) (d : Dev) (valid overrun : Fld) : Dev :=
  let d := s.put d []
  if s.one valid then d.fset overrun s.ix 0 else d

/-- Time and cycle registers; CYC_PERIOD's base period is held to 250 ns to 1 s and reads back as held, and a write of ASYM clears ASYM_SRC. -/
def Store.time (s : Store) (d : Dev) : Dev :=
  let worker := d.role == 1 && d.cycSrc == 1
  match s.n with
  | .TIM_CTL =>
    let d := s.put d [F.TIM_CTL.SERVO_EN]
    if ! s.hits F.TIM_CTL.SERVO_EN then d else if s.one F.TIM_CTL.SERVO_EN then d.servoEnable else d.servoDisable
  | .TIM_ADJ =>
    if s.one F.TIM_ADJ.GO then d.timAdjGo (s.get d F.TIM_ADJ.MODE) (s.get d F.TIM_ADJ.OFFSET) else s.put d [F.TIM_ADJ.GO]
  | .TIM_FREQ => if d.fbit F.TIM_CTL.SERVO_EN [] then d else s.put d []
  | .CYC_CTL =>
    let d := s.put d [F.CYC_CTL.RUN, F.CYC_CTL.REALIGN]
    let d := if ! s.hits F.CYC_CTL.RUN then d else if s.one F.CYC_CTL.RUN then d.cycleRun else d.cycleStop
    if s.one F.CYC_CTL.REALIGN && d.cycState == 2 then d.realign else d
  | .TIM_SRC => (s.put d []).sourcesListed
  | .TIM_PORT =>
    let d := s.put d []
    if s.m &&& fieldMask 31 0 = 0 then d else d.fset F.TIM_PORT.ASYM_SRC s.ix 0
  | .CYC_PERIOD => if worker then d else Store.put { s with v := wput (s.word d) 47 0 (periodOf (s.word d)), m := allOnes } d []
  | .CYC_ANCHOR_SEC | .CYC_ANCHOR_NSF => if worker then d else s.put d []
  | .CYC_PT_CTL =>
    let len := s.get d F.CYC_PT_CTL.LEN
    let d := (s.put d [F.CYC_PT_CTL.COMMIT, F.CYC_PT_CTL.LEN]).ptLenWrite len
    if s.one F.CYC_PT_CTL.COMMIT then d.ptCommit else d
  | .CYC_PT_ENTRY => d.ptEntryWrite (s.i 0) (s.word d)
  | _ => s.put d []

/-- Control-complex registers. -/
def Store.control (s : Store) (d : Dev) : Dev :=
  match s.n with
  | .CTL_CP => d.cpWrite s.sq s.c (s.i 0) s.v s.m
  | .CTL_SAK_CMD =>
    let d := s.put d [F.CTL_SAK_CMD.GO]
    if s.one F.CTL_SAK_CMD.GO then d.sakGo else d
  | .TVX_SESSION => if s.one F.TVX_SESSION.CLOSE then d.closeWrite (s.i 0) else d
  | .IMG_FUSE_CMD => if s.one F.IMG_FUSE_CMD.GO then (s.put d []).fuseGo else s.put d []
  | .IMG_RDBK_ADDR =>
    let d := s.put d [F.IMG_RDBK_ADDR.GO]
    if s.one F.IMG_RDBK_ADDR.GO then d.readBack else d
  | _ => s.put d []

/-- Learning settings have changed: COUNT follows them, and learning on a dual-sash table raises event 181 (R182, R185). -/
def Dev.learnChanged (d0 d : Dev) (sl t : Nat) : Dev :=
  let dual := fun (d : Dev) => d.fbit F.TBL_LEARN.EN [sl, t] && (d.tdesc sl t).kind == .exact && (d.tdesc sl t).dual
  let d := if d.rget .TBL_DESC_A [sl, t] = d0.rget .TBL_DESC_A [sl, t] then d else d.recount sl
  if dual d && ! dual d0 then d.raise Ev.TBL_LEARN_DUAL (64 * sl + t) (unitSlice sl) else d

/-- Parse and match-action registers of a slice. -/
def Store.parse (s : Store) (d : Dev) : Dev :=
  let sl := s.i 0
  match s.n with
  | .PRS_CTL => (s.put d []).showPrs sl
  | .PRS_ILLEGAL => s.log d F.PRS_ILLEGAL.VALID F.PRS_ILLEGAL.OVERRUN
  | .PRS_PAT_CMD =>
    if s.one F.PRS_PAT_CMD.GO then d.patCmd sl (s.get d F.PRS_PAT_CMD.OP) (s.get d F.PRS_PAT_CMD.INDEX) else s.put d []
  | .MAI_CTL => (s.put d []).showMai sl
  | .MAE_CTL => (s.put d []).showMae sl
  | .MAI_ILLEGAL => s.log d F.MAI_ILLEGAL.VALID F.MAI_ILLEGAL.OVERRUN
  | .MAI_SWAP =>
    let d := s.put d [F.MAI_SWAP.GO]
    if s.one F.MAI_SWAP.GO then d.swapGo sl (d.fget F.MAI_SWAP.SCOPE [sl]) (d.fget F.MAI_SWAP.GROUP [sl]) else d
  | .MAI_FLOWLET =>
    let d := s.put d [F.MAI_FLOWLET.FLUSH]
    if s.one F.MAI_FLOWLET.FLUSH then d.flowletFlush sl else d
  | _ => s.put d []

/-- Table registers. -/
def Store.table (s : Store) (d : Dev) : Dev :=
  let sl := s.i 0
  match s.n with
  | .TBL_CMD => d.tblStore sl (s.word d)
  | .TBL_DATA => if d.tblTaken sl then d.tblCollide sl else s.put d []
  | .TBL_DESC_A | .TBL_LEARN => Dev.learnChanged d (s.put d []) sl (s.i 1)
  | .TBL_PLIM =>
    let was := d.fbit F.TBL_PLIM.LEN s.ix
    let d := s.put d []
    if ! was && d.fbit F.TBL_PLIM.LEN s.ix then d.setTokens sl (s.i 1) (d.fget F.TBL_PLIM.RATE s.ix * ms 1) else d
  | .TBL_BADLOG_CTL =>
    let d := s.put d [F.TBL_BADLOG_CTL.CLEAR]
    if s.one F.TBL_BADLOG_CTL.CLEAR then d.badlogClear sl else d
  | .XFS_MCG_CMD =>
    let d := s.put d [F.XFS_MCG_CMD.GO]
    let g := d.fget F.XFS_MCG_CMD.GROUP []
    if ! s.one F.XFS_MCG_CMD.GO then d else if d.fbit F.XFS_MCG_CMD.OP [] then d.mcgRead g else d.mcgWrite g
  | _ => s.put d []

/-- A HOLD of the buffer is written: a 0 runs the check of R202; `p` is the port, 1,024 the global one. -/
def Store.hold (s : Store) (d : Dev) (f : Fld) (p : Nat) (shown : Dev → Dev) : Dev :=
  let d := s.put d [f]
  if ! s.hits f then d else if s.one f then shown (d.fset f s.ix 1) else d.holdRelease p

/-- Shared-buffer registers. -/
def Store.buffer (s : Store) (d : Dev) : Dev :=
  match s.n with
  | .BUF_CTL => s.hold d F.BUF_CTL.HOLD 1024 Dev.showBuf
  | .BUF_PORT => s.hold d F.BUF_PORT.HOLD (s.i 0) fun d => d.showBufPort (s.i 0)
  | .BUF_DFREE_LOG => s.log d F.BUF_DFREE_LOG.VALID F.BUF_DFREE_LOG.OVERRUN
  | .BUF_AUD_CTL =>
    let d := s.put d [F.BUF_AUD_CTL.WALK]
    if s.one F.BUF_AUD_CTL.WALK then d.walkStart else d
  | .BUF_IPG_A | .BUF_EQ => (s.put d []).showRsv
  | _ => s.put d []

/-- Spill registers. -/
def Store.spill (s : Store) (d : Dev) : Dev :=
  let k := s.i 0
  match s.n with
  | .SPL_CTL =>
    let d := (s.put d [F.SPL_CTL.SR_EN]).showStack k
    let d := if ! s.hits F.SPL_CTL.SR_EN then d else if s.one F.SPL_CTL.SR_EN then d.fset F.SPL_CTL.SR_EN [k] 1 else d.srDisable k
    d.showGpool
  | .SPL_SR_LAT => if s.one F.SPL_SR_LAT.CLR then d.fset F.SPL_SR_LAT.MAX [k] 0 else d
  | .SPL_RETIRE =>
    let d := s.put d [F.SPL_RETIRE.GO]
    if s.one F.SPL_RETIRE.GO then d.retireAsk k (d.fget F.SPL_RETIRE.PC [k]) else d
  | .SPL_AUD_CTL =>
    let d := s.put d [F.SPL_AUD_CTL.WALK]
    if s.one F.SPL_AUD_CTL.WALK then d.pageWalk k else d
  | .SPL_DFREE_LOG => s.log d F.SPL_DFREE_LOG.VALID F.SPL_DFREE_LOG.OVERRUN
  | .SPL_Q =>
    let ok := d.storeAccepted s.n s.ix s.v s.m
    let d := s.put d []
    if ! ok then d else if d.fbit F.SPL_Q.EN s.ix then d.splQCheck k (s.i 1) else (d.fset F.SPL_GPOOL.RSV [] d.splReserve).showGpool
  | _ => s.put d []

/-- SHU_CTL (R272, R273, R280, R370). -/
def Store.shutter (s : Store) (d : Dev) : Dev :=
  let sl := s.i 0
  let m := s.i 1
  let refused := s.one F.SHU_CTL.EN && d.role == 3 && d.fbit F.FAB_STK.EN []
  let pre := (d.fget F.SHU_CTL.PREEMPT s.ix, d.fget F.SHU_CTL.VERIFY s.ix)
  let len := s.word d
  let d := s.put d ([F.SHU_CTL.COMMIT, F.SHU_CTL.LEN] ++ if refused then [F.SHU_CTL.EN] else [])
  let d := if refused then d.raise Ev.STK_REFUSED 0 unitDev else d
  let d := d.shuEntryWrite sl m 256 len
  let d := if pre = (d.fget F.SHU_CTL.PREEMPT s.ix, d.fget F.SHU_CTL.VERIFY s.ix) then d
    else match d.slotPort sl m with
      | some p => if d.portUp p then d.preemptStart p else d
      | none => d
  if s.one F.SHU_CTL.COMMIT then d.shuCommit sl m else d

/-- Queue, shaper, meter, peephole and shutter registers. -/
def Store.queue (s : Store) (d : Dev) : Dev :=
  match s.n with
  | .SHP_CFG =>
    let was := d.fbit F.SHP_CFG.EN s.ix
    let d := s.put d []
    let on := d.fbit F.SHP_CFG.EN s.ix
    if was = on then d else (d.applyB .SHP_CFG s.ix).shpSwitch (s.i 0) (s.i 1) (s.i 2) on
  | .MTR_A | .MTR_B => d.meterWrite (s.i 0) (s.i 1) fun d => s.put d []
  | .PEP_RING =>
    let r := s.i 0
    let d := s.put d [F.PEP_RING.EN]
    if ! s.hits F.PEP_RING.EN then d
    else if s.one F.PEP_RING.EN then d.ringEnable r
    else if d.fbit F.PEP_RING.EN [r] then d.ringDisable r else d
  | .SHU_CTL => s.shutter d
  | .SHU_ENTRY => d.shuEntryWrite (s.i 0) (s.i 1) (s.i 2) (s.word d)
  | _ => s.put d []

/-- LN_PCTL (R293, R302, R305). -/
def Store.portCtl (s : Store) (d : Dev) : Dev :=
  let p := s.i 0
  let dorm := s.get d F.LN_PCTL.DORMANT
  let loop := s.get d F.LN_PCTL.LOOP
  let d := s.put d [F.LN_PCTL.DORMANT, F.LN_PCTL.LOOP, F.LN_PCTL.RETRAIN]
  let d := if d.fget F.LN_PCTL.DORMANT [p] = dorm then d else d.dormantWrite p dorm
  let d := if d.fget F.LN_PCTL.LOOP [p] = loop then d else d.loopWrite p loop
  if s.one F.LN_PCTL.RETRAIN then d.retrain p else d

/-- Lane, port and injector registers; the injector's take no write once the deadbolt is blown (R129). -/
def Store.lane (s : Store) (d : Dev) : Dev :=
  let p := s.i 0
  match s.n with
  | .LN_PORT =>
    let d := s.put d [F.LN_PORT.EN]
    if ! s.hits F.LN_PORT.EN then d else if s.one F.LN_PORT.EN then d.portEnable p [] else d.portDisable p
  | .LN_PCTL => s.portCtl d
  | .LN_SPARE =>
    let d := s.put d [F.LN_SPARE.GO]
    if s.one F.LN_SPARE.GO then Dev.spareGo (d.fset F.LN_SPARE.GO [p] 1) p else d
  | .INJ_CTL =>
    if d.fuses.deadbolt then d.raise Ev.IMG_DEADBOLT_DENY 0 unitDev
    else
      let d := s.put d [F.INJ_CTL.EN]
      if ! s.hits F.INJ_CTL.EN then d
      else if s.one F.INJ_CTL.EN then d.injEnable p
      else if d.fbit F.INJ_CTL.EN [p] then d.injDisable p else d
  | .INJ_MATCH_V | .INJ_MATCH_M | .INJ_SYM => if d.fuses.deadbolt then d.raise Ev.IMG_DEADBOLT_DENY 0 unitDev else s.put d []
  | _ => s.put d []

/-- Clock and power registers; CAP is held to 450 to 1,250 W and reads back as held. -/
def Store.power (s : Store) (d : Dev) : Dev :=
  match s.n with
  | .CLK_CTL =>
    let was := d.fget F.CLK_CTL.REF_PRI []
    let d := s.put d []
    let k := d.fget F.CLK_CTL.REF_PRI []
    if k ≠ was ∧ d.refOk k then d.selectRef k else d
  | .CLK_FMEAS_CTL =>
    let d := s.put d [F.CLK_FMEAS_CTL.GO]
    if s.one F.CLK_FMEAS_CTL.GO && ! d.fbit F.CLK_FMEAS_CTL.GO [] then d.measureStart else d
  | .PWR_STATE => if s.hits F.PWR_STATE.REQ then d.reqWrite (s.get d F.PWR_STATE.REQ) [] else d
  | .PWR_CAP =>
    let w := s.word d
    let cap := max 450 (min 1250 (wbits w 63 48))
    d.storeReg s.sq s.c s.n s.ix (wput w 63 48 cap) allOnes
  | _ => s.put d []

/-- Fabric registers; a standalone device ignores writes to them (R352). -/
def Store.fabric (s : Store) (d : Dev) : Dev :=
  if d.role = 0 then d
  else match s.n with
  | .FAB_CTL =>
    let d := s.put d [F.FAB_CTL.EN]
    if ! s.hits F.FAB_CTL.EN then d else if s.one F.FAB_CTL.EN then d.fabEnable else d.fabDisable
  | .FAB_CMD =>
    let d := if s.one F.FAB_CMD.RECLAIM then d.reclaim else d
    if s.one F.FAB_CMD.REJOIN then d.rejoin else d
  | .FAB_EPOCH_CMD =>
    if s.one F.FAB_EPOCH_CMD.GO then d.epochIssue (s.get d F.FAB_EPOCH_CMD.CYCLE) else s.put d []
  | .FAB_STK =>
    let d := s.put d []
    if s.hits F.FAB_STK.EN then d.stkEnable (s.one F.FAB_STK.EN) else d
  | _ => s.put d []

/-- Event, telemetry, global and repair registers. -/
def Store.global (s : Store) (d : Dev) : Dev :=
  match s.n with
  | .GLB_QVIOL => s.log d F.GLB_QVIOL.VALID F.GLB_QVIOL.OVERRUN
  | .GLB_RESET => if s.one F.GLB_RESET.WARM then d.warmRestart 3 else d
  | .EVT_STATUS => d.evClear (s.i 0) (wbits (s.v &&& s.m) 31 0)
  | .TEL_DIG =>
    let was := d.fbit F.TEL_DIG.EN s.ix
    let d := s.put d []
    if was && ! d.fbit F.TEL_DIG.EN s.ix then d.digestDisable (s.i 0) (s.i 1) else d
  | .TEL_DIG_FLUSH => if s.one F.TEL_DIG_FLUSH.GO then d.digestFlush (s.i 0) else d
  | .GLB_REP_CTL =>
    let d := s.put d [F.GLB_REP_CTL.GO, F.GLB_REP_CTL.CSQ_GO, F.GLB_REP_CTL.LANE_GO]
    let sl := d.fget F.GLB_REP_CTL.SLICE []
    let d := if s.one F.GLB_REP_CTL.GO then d.sliceGo sl else d
    let d := if s.one F.GLB_REP_CTL.CSQ_GO then d.csqGo (d.fget F.GLB_REP_CTL.CSQ []) else d
    if s.one F.GLB_REP_CTL.LANE_GO then d.restoreGo sl else d
  | _ => s.put d []

/-- The block that an address lies in, as the functions above divide them. -/
def Store.run (s : Store) (d : Dev) : Dev :=
  let a := s.n.spec.base
  let slice := a % 0x40000000
  if 0x4000000000 ≤ a ∧ a < 0x4800000000 then
    if slice < 0x10001000 then s.parse d
    else if slice < 0x20000000 then s.table d
    else if slice < 0x28000000 then s.parse d
    else if slice < 0x30000000 then s.queue d
    else s.global d
  else match a / 2 ^ 32 with
    | 0x00 | 0x05 => s.global d
    | 0x01 => s.control d
    | 0x02 => s.time d
    | 0x03 | 0x04 => s.power d
    | 0x06 => s.fabric d
    | 0x08 => if a < 0x840000000 then s.buffer d else if a < 0x880000000 then s.table d else s.queue d
    | 0x0A => s.spill d
    | 0x10 => s.lane d
    | _ => s.put d []

/-- The block of an address is without power: of what software can reach in Standby and Active, the lane windows, each in its lane group (R86,
R332); a slice window is served in retention (R333). -/
def Dev.blockOff (d : Dev) (a : Nat) : Bool :=
  decide (0x1000000000 ≤ a) && decide (a < 0x1000000000 + 1056 * 65536) && ! d.pwr.on.getLsbD ((a - 0x1000000000) / 65536 / 16)

/-- A store of the bits m of v by context c of sequencer sq (R5 to R12, R86, R87). -/
def Dev.busWrite (d : Dev) (sq c a : Nat) (v m : Word) : Dev :=
  match regDecode a with
  | none => d.raise Ev.GLB_BADACCESS 0 unitDev
  | some (n, ix) =>
    if d.blockOff (a / 8 * 8) then d.raise Ev.GLB_DOMAIN_OFF (ctxIx sq c) unitDev
    else
      let s : Store := { sq := sq, c := c, n := n, ix := ix, v := v, m := m }
      Dev.settlePorts d (s.run d)

/-- Every quiesce field of a store is accepted (R88); a store that meets no field has none refused. -/
def Dev.busAccepts (d : Dev) (a : Nat) (v m : Word) : Bool :=
  match regDecode a with
  | none => true
  | some (n, ix) => d.blockOff (a / 8 * 8) || d.storeAccepted n ix v m

/-- CSQ_CTX of a context (R113). -/
def Ctx.show (x : Ctx) : Word :=
  let st := match x.st with | .idle => 0 | .ready => 1 | .waiting => 2 | .inAccess => 3 | .stopped => 4
  BitVec.ofNat 64 (st * 2 ^ 61 + (if x.inh.isSome then 2 ^ 60 else 0) + (if x.hen then 2 ^ 59 else 0) + x.rstack.length * 2 ^ 55 +
    x.handler.toNat * 2 ^ 32 + x.since * 2 ^ 16 + x.pc.toNat)

/-- GLB_FUSE: the fuses, and the slot of the running image (R124, R130). -/
def Dev.fuseWord (d : Dev) : Word :=
  BitVec.ofNat 64 ((if d.fuses.deadbolt then 2 ^ 63 else 0) + d.fuses.programmed.toNat * 2 ^ 56 + d.fuses.revoked.toNat * 2 ^ 52 +
    d.fget F.GLB_FUSE.SLOT [] * 2 ^ 50 + d.fuses.rollback * 2 ^ 40)

/-- The severities of a group's events, two bits each (R389, EVT_SEV). -/
def evSevWord (g : Nat) : Word := BitVec.ofNat 64 ((List.range 32).map fun i => evSev (32 * g + i) * 4 ^ i).sum

/-- EVT_SUMMARY (R390). -/
def Dev.evSummary (d : Dev) : Word :=
  let pend := (List.range 48).map fun g =>
    if d.fget F.EVT_STATUS.STATUS [g] &&& (2 ^ 32 - 1 - d.fget F.EVT_MASK.MASK [g]) = 0 then 0 else 2 ^ g
  BitVec.ofNat 64 ((if d.alertLow then 2 ^ 63 else 0) + pend.sum)

/-- Whole bytes of a balance in units, as a 32-bit two's complement number. -/
def bytes32 (v : Int) (unit : Nat) : Nat := unsext 32 (v / (unit : Int))

/-- The value of a register as a load by context c of sequencer sq returns it: what the device brings up to date at the read, the value
latched for the context (R26), else what is stored, write-only fields reading 0. -/
def Dev.liveRead (d : Dev) (sq c : Nat) (n : RegName) (ix : List Nat) : Word :=
  let i := ix.headD 0
  let w := d.rget n ix
  match n with
  | .TIM_NOW_SEC => BitVec.ofNat 64 (tSec d.fab)
  | .TIM_NOW_NSF => (d.ctx sq c).nsf
  | .CYC_NOW_NUM => BitVec.ofNat 64 d.cycNum
  | .CYC_NOW_PHASE => (d.ctx sq c).phase
  | .CSQ_CTX => Ctx.show (d.ctx i (ix.getD 1 0))
  | .CSQ_EVSEL =>
    let x := d.ctx i (ix.getD 1 0)
    BitVec.ofNat 64 (x.evq.length * 2 ^ 48 + x.groups.toNat)
  | .PWR_DOM_ON => BitVec.ofNat 64 (d.pwr.on.toNat >>> (64 * i))
  | .GLB_UID => d.fuses.uid
  | .GLB_FUSE => d.fuseWord
  | .CLK_XO => wput w 63 48 d.fuses.xoNom
  | .AGE_REC => d.ageRec.getD i 0
  | .EVT_SEV => evSevWord i
  | .EVT_SUMMARY => d.evSummary
  | .CNT_GEN => Config.freeValue d.cntGen
  | .IMG_STATUS => wput (wput w 63 61 d.imgState) 31 0 (match d.img.staging with | some x => x.bytes.length | none => 0)
  | .IMG_BAREA => BitVec.ofNat 64 d.areaUsed
  | .SHP_STAT =>
    let k := ix.getD 2 0
    if d.shpEn i (ix.getD 1 0) k then wput w 31 0 (bytes32 (d.shpCredit i (ix.getD 1 0) k) shpUnit) else w
  | .MTR_TOK =>
    let m := d.meterNow i (ix.getD 1 0)
    BitVec.ofNat 64 (bytes32 m.tc meterUnit * 2 ^ 32 + bytes32 m.tx meterUnit)
  | _ => n.spec.fields.foldl (fun (w : Word) f => if f.acc == .wo then w &&& ~~~(fieldMask f.hi f.lo) else w) w

/-- FAB_ registers read their reset values in a standalone device (R352). -/
def Dev.fabHidden (d : Dev) (n : RegName) : Bool := d.role == 0 && decide (n.spec.base / 2 ^ 32 = 6)

/-- A load by context c of sequencer sq (R8, R26, R86): the value, and what the load does besides. -/
def Dev.busRead (d : Dev) (sq c a : Nat) : Dev × Word :=
  match regDecode a with
  | none => (d.raise Ev.GLB_BADACCESS 0 unitDev, 0)
  | some (n, ix) =>
    if d.blockOff (a / 8 * 8) then (d.raise Ev.GLB_DOMAIN_OFF (ctxIx sq c) unitDev, 0)
    else if d.fabHidden n then (d, n.resetAt ix)
    else
      let v := d.liveRead sq c n ix
      let d := match n with
        | .TIM_NOW_SEC => d.ctxMod sq c fun x => { x with nsf := BitVec.ofNat 64 (tNs d.fab * 65536 + tFrac d.fab) }
        | .CYC_NOW_NUM => d.ctxMod sq c fun x => { x with phase := BitVec.ofNat 64 (if d.phaseValid then d.phase else 2 ^ 32) }
        | _ => d
      (d, v)

/-- A store that the privilege `priv` of session sid allows (R65): 0 observer, 1 operator, 2 admin. -/
def storeAllowed (priv sid a : Nat) : Bool :=
  decide (2 ≤ priv) ||
  match regDecode a with
  | some (.TVX_EVT_SUB, [k]) => k == sid
  | some (.GLB_RESET, _) | some (.PWR_STATE, _) => false
  | _ => priv == 1 && a / 2 ^ 32 != 1

/-- A routine stops at a forbidden access (R66): REPLY PRIV and event 69. -/
def Dev.privStop (d : Dev) (sq c : Nat) : Dev :=
  (d.routineEnd sq c .idle 2 none).raise Ev.TVX_PRIV 0 unitDev

end Sys2Proof.Machine
end

