-- ==== Sys2Proof/Machine/BusCmds.lean ====
section
/-! DEFINITION. The commands of the register space itself (chapter 00): a register write, the boundary of a double-buffered field, the
clearing of GLB_QVIOL, and the restart that software asks for. -/

namespace Sys2Proof.Machine

set_option cleanup.letToHave false

/-- REGISTER_WRITE (R12): context c of sequencer sq writes v to a whole register. -/
def execRegisterWrite (sq c addr : Nat) (v : Word) (s : State) : Out :=
  s.runTables fun d => d.sw fun d => d.busWrite sq c addr v allOnes

/-- B_FIELD_TAKES_EFFECT (R10): the boundary of the block has come for the register at addr. -/
def execBFieldTakesEffect (addr : Nat) (s : State) : Out :=
  s.run fun d => d.sw fun d =>
    match regDecode addr with
    | some (n, ix) => Dev.afterBind d (d.applyB n ix)
    | none => d

/-- QVIOL_CLEAR (R24): GLB_QVIOL.VALID is written 1. -/
def execQviolClear (s : State) : Out :=
  s.run fun d => d.sw fun d => d.fsets [(F.GLB_QVIOL.VALID, 0), (F.GLB_QVIOL.OVERRUN, 0)] []

/-- SOFTWARE_RESTART (R9, R66): the routine of context c of sequencer sq writes GLB_RESET.WARM = 1 while ROLE is strapped to `role`. A routine that is
not admin's is stopped instead. -/
def execSoftwareRestart (sq c role : Nat) (s : State) : Out :=
  s.run fun d => d.sw fun d =>
    let x := d.ctx sq c
    if ! x.running then d
    else if x.priv < 2 then Dev.settlePorts d (d.privStop sq c)
    else Dev.warmRestart { d with pins := { d.pins with role := BitVec.ofNat 2 role } } 3

end Sys2Proof.Machine
end

