-- ==== Sys2Proof/Machine/Seq.lean ====
section
/-! DEFINITION. The issue of sequencer instructions (R83 to R85, R93 to R95, R98, R109): fetch, faults, predicates and safe points, and what
several instructions share. -/

namespace Sys2Proof.Machine

set_option cleanup.letToHave false

/-- A word lies in a store area of n words from b. -/
def inArea (pc b n : Nat) : Bool := decide (b ≤ pc) && decide (pc < b + n)

/-- The context may fetch from its PC (R82): its region or the library. -/
def Dev.mayFetch (d : Dev) (sq c : Nat) : Bool :=
  let pc := (d.ctx sq c).pc.toNat
  inArea pc (d.regionBase sq c) (d.regionLen sq c) || inArea pc (d.fget F.CSQ_LIB.BASE [sq]) (d.fget F.CSQ_LIB.LEN [sq])

/-- An abort or the end of the session waits at this safe point (R95). -/
def Ctx.blocked (x : Ctx) : Bool := (! x.aborts.isEmpty || x.ending) && x.atSafe

/-- The sequencer may issue the next instruction of the context (R83). -/
def Dev.canIssue (d : Dev) (sq c : Nat) : Bool :=
  d.up && d.imageLoaded && decide (sq < 2) && decide (c < 8) && d.seqInService sq && (d.ctx sq c).st == .ready && ! (d.ctx sq c).blocked

/-- A routine fault (R109): the record, the event, and the REPLY with status FAULT. -/
def Dev.routineFault (d : Dev) (sq c kind : Nat) : Dev :=
  let pc := (d.ctx sq c).pc.toNat
  let d := d.rset .CSQ_CTX_FAULT [sq, c] (BitVec.ofNat 64 (2 ^ 63 + kind * 2 ^ 56 + pc))
  let d := d.routineEnd sq c .stopped 4 (some pc)
  d.raise (if kind = 5 then Ev.CSQ_SAFEPT else Ev.CSQ_FAULT) (ctxIx sq c) unitDev

/-- An instruction that occupies its context no longer than its issue is complete (R83, R94); f is what it does to the context. -/
def Dev.finish (d : Dev) (sq c : Nat) (f : Ctx → Ctx) : Dev :=
  (d.retired sq).ctxMod sq c fun x => f { x.complete with since := x.since + 1 }

/-- P[PI] XOR PN (R85). -/
def Ctx.goes (x : Ctx) (w : Word) : Bool := x.p.getLsbD (iPi w) != (iPn w == 1)

/-- A corrected ECC error (bit 0 of e) is counted and raises event 87 (R110). -/
def Dev.eccSeen (d : Dev) (sq e : Nat) : Dev := if bitN e 0 then (d.count (Ct.CSQ_ECC_CORR 0) 1).raise Ev.CSQ_ECC_CORR sq unitDev else d

/-- While SHADOWED, the shadow's results differ from the primary's (bit 1 of e): the context stops with DIVERGE (R112). -/
def Dev.diverges (d : Dev) (e : Nat) : Bool := bitN e 1 && ! d.precision && d.fget F.CSQ_STATUS.STATE [] == 0

/-- An instruction of opcode op is issued at instant t (R82 to R85, R94, R109, R110, R112): `exe` has the word and whether it executes. A word of
another opcode is not this command's. -/
def Dev.issue (d : Dev) (t sq c e op : Nat) (exe : Dev → Word → Bool → Dev) : Dev :=
  let d := d.advanceTo t
  if ! d.canIssue sq c then d
  else
    let w := d.seqWord sq c
    let d' :=
      if ! d.mayFetch sq c then d.routineFault sq c 2
      else if (d.ctx sq c).since = 256 then d.routineFault sq c 5
      else if illegalWord w then (d.eccSeen sq e).routineFault sq c 1
      else if iOp w ≠ op then d
      else if d.diverges e then (d.eccSeen sq e).routineFault sq c 6
      else exe (d.eccSeen sq e) w ((d.ctx sq c).goes w)
    Dev.settlePorts d d'

/-- An instruction that has no effect when its predicate is false (R85). -/
def Dev.instr (d : Dev) (t sq c e op : Nat) (exe : Dev → Word → Dev) : Dev :=
  d.issue t sq c e op fun d w go => if go then exe d w else d.finish sq c id

/-- An instruction that changes only its context. -/
def Dev.local (d : Dev) (t sq c e op : Nat) (f : Word → Ctx → Ctx) : Dev :=
  d.instr t sq c e op fun d w => d.finish sq c (f w)

/-- G[n]. -/
def Ctx.reg (x : Ctx) (n : Nat) : Word := x.g.getD n 0

/-- G[n] is written. -/
def Ctx.setReg (x : Ctx) (n : Nat) (v : Word) : Ctx := { x with g := lmod x.g n fun _ => v }

/-- P[n] is written; writes to P0 are ignored (R81). -/
def Ctx.setPred (x : Ctx) (n : Nat) (b : Bool) : Ctx :=
  if n = 0 then x
  else { x with p := if b then x.p ||| BitVec.ofNat 8 (2 ^ n) else x.p &&& ~~~(BitVec.ofNat 8 (2 ^ n)) }

/-- Operand B of ALU and CMP (R90). -/
def Ctx.opB (x : Ctx) (w : Word) : Word := if iFnB w 38 then iSimm w else x.reg (iRb w)

/-- A branch target relative to the instruction's own address (R92). -/
def Ctx.target (x : Ctx) (w : Word) : BitVec 16 := x.pc + BitVec.ofNat 16 (unsext 16 (sext 32 (iImm w)))

/-- A BR whose IMM is 0 or negative is a safe point (R93). -/
def backward (w : Word) : Bool := decide (sext 32 (iImm w) ≤ 0)

/-- The handler is to be called at this safe point (R98): it is enabled, not running, has a record, and the stack has room; an abort that waits
comes first (R95). -/
def Ctx.callsHandler (x : Ctx) : Bool :=
  x.hen && x.inh.isNone && ! x.evq.isEmpty && decide (x.rstack.length < 8) && x.aborts.isEmpty && ! x.ending

/-- The implicit CALL (R98). -/
def Ctx.handlerCall (x : Ctx) (ret : BitVec 16) : Ctx :=
  { x with rstack := ret :: x.rstack, inh := some x.rstack.length, pc := x.handler, resumeDeadline := none }

/-- An ADDR fault unless bits 63:40 of the address are 0 (R86), and a stop unless the privilege allows the store (R66). -/
def Dev.storeChecked (d : Dev) (sq c : Nat) (a : Word) (k : Dev) : Dev :=
  let x := d.ctx sq c
  if 2 ^ 40 ≤ a.toNat then d.routineFault sq c 3
  else if ! storeAllowed x.priv x.sid a.toNat then d.privStop sq c
  else k

/-- ST and STF (R86 to R88): the instruction completes as the block accepts the write. -/
def Dev.storeInstr (d : Dev) (sq c : Nat) (w a v m : Word) : Dev :=
  let ok := d.busAccepts a.toNat v m
  d.storeChecked sq c a
    ((d.finish sq c fun x => if iFnB w 35 then x.setPred (iPd w) ok else x).busWrite sq c a.toNat v m)

/-- A wait condition holds (R103); a read of MEM is made as a load, which may do more. -/
def Dev.waitHolds (d : Dev) (sq c : Nat) (w : WaitSt) : Dev × Bool :=
  match w.cond with
  | 0 =>
    let r := d.busRead sq c w.a.toNat
    (r.1, ((r.2 &&& w.b) == w.d) != w.neg)
  | 2 =>
    let n := wbits w.b 47 0
    (d, d.phaseValid && (decide (n < d.cycNum) || (d.cycNum == n && decide (wbits w.a 31 0 ≤ d.phase))))
  | 3 => (d, decide (sec (wbits w.a 47 0) + ns (wbits w.b 47 16) + wbits w.b 15 0 ≤ d.fab))
  | 4 => (d, ! (d.ctx sq c).evq.isEmpty)
  | _ => (d, false)

/-- A context begins to wait (R103), with its deadline: the original one where its handler has returned (R98). -/
def Ctx.startWait (x : Ctx) (now : Nat) (w : Word) : Ctx :=
  let fresh := if iImm w = 0 then none else some (now + ns 8 * iImm w)
  let dl := if x.inh.isNone then x.resumeDeadline.getD fresh else fresh
  { x with
    st := .waiting,
    since := 0,
    resumeDeadline := if x.inh.isNone then none else x.resumeDeadline,
    wait := some { cond := iFn w 35 33, neg := iFnB w 32, a := x.reg (iRa w), b := x.reg (iRb w), d := x.reg (iRd w), pred := iPd w, deadline := dl } }

/-- A waiting context completes when its condition holds or its deadline has come (R103). -/
def Dev.waitPoll (d : Dev) (sq c : Nat) : Dev :=
  match (d.ctx sq c).wait with
  | none => d
  | some w =>
    if (d.ctx sq c).st ≠ .waiting then d
    else
      let (d, ok) := d.waitHolds sq c w
      if ok then (d.retired sq).ctxMod sq c fun x => x.finishWait true
      else if w.deadline.any fun t => decide (t ≤ d.now) then (d.retired sq).ctxMod sq c fun x => x.finishWait false
      else d

/-- WAIT issues (R98, R103): the implicit call of the handler comes first, but for EVENT; else the condition is looked at at once. -/
def Dev.waitInstr (d : Dev) (sq c : Nat) (w : Word) : Dev :=
  let x := d.ctx sq c
  if iFn w 35 33 = 0 ∧ 2 ^ 40 ≤ (x.reg (iRa w)).toNat then d.routineFault sq c 3
  else
    let now := d.now
    let waiting := fun (x : Ctx) => Ctx.startWait { x with icount := x.icount + 1 } now w
    if iFn w 35 33 ≠ 4 ∧ x.callsHandler then
      (d.retired sq).ctxMod sq c fun x =>
        let y := waiting x
        let dl := y.wait.bind (·.deadline)
        { (y.handlerCall x.pc) with st := .ready, wait := none, resumeDeadline := some dl }
    else ((d.retired sq).ctxMod sq c waiting).waitPoll sq c

/-- The free AT slot of lowest number of a sequencer (R104). -/
def Dev.freeAt (d : Dev) (sq : Nat) : Option Nat :=
  findFirst (fun i => ! d.csq.ats.any fun (a : AtSlot) => a.seq == sq && a.slot == i) (List.range 16)

/-- AT arms a store in a free slot (R104). CSQ_AT.CYCLE of an AT whose cycle is not yet known is a free value (log entry 2). -/
def Dev.atArm (d : Dev) (sq c slot : Nat) (w : Word) : Dev :=
  let x := d.ctx sq c
  let k := iFn w 35 34
  let ph := iImm w
  let ahead := if k = 0 then (if d.phaseValid then (if d.phase < ph then 0 else 1) else if 0 < ph then 0 else 1) else k
  let valid := d.phaseValid
  let a : AtSlot := { seq := sq, slot := slot, ctx := c, sid := x.sid, priv := x.priv, cyc := if valid then (d.cycNum + ahead) % 2 ^ 48 else 0,
                      phase := ph, addr := (x.reg (iRa w)).toNat, val := x.reg (iRb w), pend := if valid then none else some ahead }
  let shown := if valid then a else { a with cyc := d.freeNow.toNat }
  let d := if valid then d else d.drawn
  Dev.rset { d with csq := { d.csq with ats := d.csq.ats ++ [a] } } .CSQ_AT [sq, slot] shown.show

/-- The AT comes due now (R105). -/
def Dev.atDue (d : Dev) (a : AtSlot) : Bool := a.due || (a.pend.isNone && d.phaseReached a.cyc a.phase)

/-- A due AT is late: its phase was reached a tick ago or more (R46, R105). -/
def Dev.atLate (d : Dev) (a : AtSlot) : Bool :=
  ! a.due && (d.cycNum != a.cyc || decide (d.phaseTime a.cyc a.phase + ns 2 ≤ d.fab))

/-- Of two due ATs the one of the earlier cycle, then of the earlier phase, comes first. -/
def AtSlot.before (a b : AtSlot) : Bool :=
  if a.cyc = b.cyc then decide (a.phase < b.phase) else ! cycReached a.cyc b.cyc

/-- The due AT that comes first, of several at one phase the one armed first. -/
def Dev.nextAt (d : Dev) : Option AtSlot :=
  (d.csq.ats.filter d.atDue).foldl (fun (best : Option AtSlot) a =>
    match best with
    | none => some a
    | some b => if a.before b then some a else some b) none

/-- The first due AT makes its store, after the phase-table entries and epochs of the tick (R105). -/
def Dev.atDispatch (d : Dev) : Dev :=
  if d.phaseValid && (! d.dueEntries.isEmpty || d.dueEpoch.isSome) then d
  else match d.nextAt with
    | none => d
    | some a =>
      let d := if d.atLate a then d.count (Ct.CSQ_AT_LATE 0) 1 else d
      let d : Dev := { d with csq := { d.csq with ats := d.csq.ats.filter fun (x : AtSlot) => ! (x.seq == a.seq && x.slot == a.slot) } }
      (d.rset .CSQ_AT [a.seq, a.slot] 0).busWrite a.seq a.ctx a.addr a.val allOnes

/-- An observer may read a counter only with its READ_ALLOW (R65, R384). -/
def Dev.readAllowed (d : Dev) (priv idx : Nat) : Bool :=
  decide (1 ≤ priv) || bitN (d.fget F.CNT_ALLOW.ALLOW [bitsN idx 31 26]) (bitsN idx 25 21)

/-- The step of TBL from the copy of the data registers on (R99): the path is held, and the command starts. -/
def Dev.tblGo (d : Dev) (sq c sl : Nat) (w : Word) : Dev :=
  let x := d.ctx sq c
  let d := (List.range 8).foldl (fun (d : Dev) j => d.rset .TBL_DATA [sl, j] (x.reg (iRb w + j))) d
  let d : Dev := { d with mat := { d.mat with tblHold := mins d.mat.tblHold sl ((iRd w * 64 + iRb w) * 16 + ctxIx sq c) } }
  let cmd := BitVec.ofNat 64 (iImm w)
  let d := d.tblStart sl cmd
  if cmdOp cmd = 0 then d.tblFinish sl else d

/-- TBL issues (R65, R99): a TBL counts as a store; it waits while the path is taken. -/
def Dev.tblInstr (d : Dev) (sq c : Nat) (w : Word) : Dev :=
  let x := d.ctx sq c
  let a := (x.reg (iRa w)).toNat
  if 32 ≤ a then d.routineFault sq c 3
  else if x.priv < 1 then d.privStop sq c
  else
    let d := d.ctxMod sq c fun x => { x with st := .inAccess, since := x.since + 1 }
    if d.tblTaken a then d else d.tblGo sq c a w

/-- A TBL that waits for its command path looks again (R99 step 1). -/
def Dev.tblRetry (d : Dev) (sq c : Nat) : Dev :=
  let x := d.ctx sq c
  let w := d.seqWord sq c
  let a := (x.reg (iRa w)).toNat
  if x.st ≠ .inAccess ∨ iOp w ≠ 0x18 ∨ (d.mat.tblHold.any fun h => h.2 % 16 == ctxIx sq c) ∨ d.tblTaken a then d
  else d.tblGo sq c a w

end Sys2Proof.Machine
end

