-- ==== Sys2Proof/Machine/Xport.lean ====
section
/-! DEFINITION. The XPORT instruction (R77, R102, R268). -/

namespace Sys2Proof.Machine

set_option cleanup.letToHave false

/-- A record of n bytes fits the frame and the buffer. -/
def XFrame.fits (f : XFrame) (d : Dev) (n : Nat) : Bool :=
  decide (8 + f.recs.length + n ≤ maxPayload) && decide (d.ctl.exportUsed + 8 + f.recs.length + n ≤ exportSize)

/-- A record joins the frame, or the next frame where this one is full; none where the buffer has no room for it. -/
def XFrame.add (f : XFrame) (d : Dev) (r : List Byte) : Option (Dev × XFrame) :=
  if f.fits d r.length then some (d, { f with cnt := f.cnt + 1, recs := f.recs ++ r })
  else
    let (d, f) := f.flush d
    if f.fits d r.length then some (d, { f with cnt := 1, recs := r }) else none

/-- How a stretch of an export ends: every record is done; it waits for room; or the privilege forbids the next counter. -/
inductive XEnd where
  | done | wait | denied
  deriving DecidableEq, Repr

/-- Where an export stands: the next index, what is left, the records exported. -/
structure XPos where
  next : Nat
  left : Nat
  sent : Nat

/-- A counter record (R77). -/
def Dev.counterRecord (d : Dev) (idx : Nat) : List Byte := beBytes 4 idx ++ beBytes 8 (d.counter idx).toNat ++ beBytes 12 (t96 d.fab)

/-- Counters are exported from index `next` on, `left` of them (R102); an index that names no counter is skipped. -/
def Dev.xCounters (d : Dev) (f : XFrame) (priv next : Nat) : (left sent : Nat) → Dev × XPos × XEnd
  | 0, sent => ((f.flush d).1, { next := next, left := 0, sent := sent }, .done)
  | left + 1, sent =>
    if ! ctExists next then d.xCounters f priv (next + 1) left sent
    else if ! d.readAllowed priv next then ((f.flush d).1, { next := next, left := left + 1, sent := sent }, .denied)
    else match f.add d (d.counterRecord next) with
      | some (d, f) => d.xCounters f priv (next + 1) left (sent + 1)
      | none => ((f.flush d).1, { next := next, left := left + 1, sent := sent }, .wait)

/-- Records of a ring are exported oldest first, `left` of them at most (R102, R268). -/
def Dev.xRecords (d : Dev) (f : XFrame) (ring : Nat) : (left sent : Nat) → List PepRec → Dev × XPos × XEnd × List PepRec
  | 0, sent, l => ((f.flush d).1, { next := ring, left := 0, sent := sent }, .done, l)
  | left + 1, sent, [] => ((f.flush d).1, { next := ring, left := left + 1, sent := sent }, .done, [])
  | left + 1, sent, x :: l =>
    match f.add d x.bytes with
    | some (d, f) => d.xRecords f ring left (sent + 1) l
    | none => ((f.flush d).1, { next := ring, left := left + 1, sent := sent }, .wait, x :: l)

/-- The XPORT of a context stands at this position. -/
def Dev.xStand (d : Dev) (sq c : Nat) (p : XPos) : Dev :=
  d.ctxMod sq c fun x => { x with st := .inAccess, xport := some (p.next, p.left, p.sent) }

/-- The XPORT of a context runs on from where it stands (R77, R102, R268): stream 15 waits for the end of the ageing history (R349), and a ring
for another XPORT that drains it. An export whose session has ended exports no more. -/
def Dev.xportRun (d : Dev) (sq c : Nat) : Dev :=
  let x := d.ctx sq c
  let w := d.seqWord sq c
  let me := ctxIx sq c
  match x.xport with
  | none => d
  | some (next, left, sent) =>
    let stream := iFn w 37 34
    let f : XFrame := { n := x.sid, stream := stream, kind := iFn w 32 32 }
    if x.ending || ! d.sessionOpen x.sid then d.xportEnd sq c
    else if stream = 15 ∧ (d.session x.sid).history then d
    else if iFn w 32 32 = 0 then
      let (d, p, e) := d.xCounters f x.priv next left sent
      let d := d.xStand sq c p
      match e with
      | .done => d.xportEnd sq c
      | .wait => d
      | .denied => d.privStop sq c
    else if d.que.draining.any fun y => y.2 == next && y.1 != me then d
    else if ! d.fbit F.PEP_RING.EN [next] then d.xportEnd sq c
    else
      let (d, p, e, l) := d.xRecords f next left sent (d.ring next)
      let d : Dev := { d with que := { d.que with rings := mins d.que.rings next l, draining := (d.que.draining.filter fun y => y.1 != me) ++ [(me, next)] } }
      let d := (d.fset F.PEP_RING_STAT.USED [next] (ringBytes l)).xStand sq c p
      match e with
      | .done => d.xportEnd sq c
      | _ => d

/-- XPORT issues (R66, R102, R268). -/
def Dev.xportInstr (d : Dev) (sq c : Nat) (w : Word) : Dev :=
  let x := d.ctx sq c
  let a := (x.reg (iRa w)).toNat
  let b := (x.reg (iRb w)).toNat
  let ring := iFn w 32 32 = 1
  if ring ∧ a < 256 ∧ x.priv < 1 ∧ ¬ d.fbit F.PEP_RING.OBS [a] then d.privStop sq c
  else
    let start : Nat × Nat × Nat := if ring then (a, if a < 256 then b else 0, 0) else (a % 2 ^ 32, min b 65536, 0)
    let d := d.ctxMod sq c fun x => { x with st := .inAccess, since := x.since + 1, xport := some start }
    if ring ∧ 256 ≤ a then d.xportEnd sq c else d.xportRun sq c

end Sys2Proof.Machine
end

