-- ==== Sys2Proof/Machine/SeqCmds.lean ====
section
/-! DEFINITION. The sequencer instructions (chapter 04). Of an instruction command, t is the instant of its issue, sq and c the sequencer and the
context, and e says what ECC and shadowing found as it issued: bit 0 a corrected error, bit 1 a difference between the two sequencers. -/

namespace Sys2Proof.Machine

set_option cleanup.letToHave false

/-- A time-placed event of a sequencer's context. -/
def Dev.seqAt (d : Dev) (t sq c : Nat) (f : Dev → Dev) : Dev :=
  let d := d.advanceTo t
  if d.up && d.imageLoaded && decide (sq < 2) && decide (c < 8) && d.seqInService sq then Dev.settlePorts d (f d) else d

/-- EXPORT_BUFFER_ROOM (R77, R102). -/
def execExportBufferRoom (t sq c : Nat) (s : State) : Out :=
  s.run fun d => d.seqAt t sq c fun d => if (d.ctx sq c).st = .inAccess then d.xportRun sq c else d

/-- ABORT_AT_SAFE_POINT (R95). -/
def execAbortAtSafePoint (t sq c : Nat) (s : State) : Out :=
  s.run fun d => d.seqAt t sq c fun d => if (d.ctx sq c).running && (d.ctx sq c).blocked then d.abortNow sq c else d

/-- NOP (R85). -/
def execNop (t sq c e : Nat) (s : State) : Out := s.run fun d => d.local t sq c e 0x01 fun _ x => x

/-- HALT (R108). -/
def execHalt (t sq c e : Nat) (s : State) : Out :=
  s.run fun d => d.instr t sq c e 0x02 fun d _ => (d.finish sq c id).routineEnd sq c .idle 0 none

/-- LD (R86). -/
def execLd (t sq c e : Nat) (s : State) : Out :=
  s.run fun d => d.instr t sq c e 0x04 fun d w =>
    let a := (d.ctx sq c).reg (iRa w) + iSimm w
    if 2 ^ 40 ≤ a.toNat then d.routineFault sq c 3
    else
      let r := d.busRead sq c a.toNat
      r.1.finish sq c fun x => x.setReg (iRd w) r.2

/-- ST (R86 to R88). -/
def execSt (t sq c e : Nat) (s : State) : Out :=
  s.runTables fun d => d.instr t sq c e 0x05 fun d w =>
    let x := d.ctx sq c
    d.storeInstr sq c w (x.reg (iRa w) + iSimm w) (x.reg (iRb w)) allOnes

/-- STF (R86 to R88): the field's bits come from the low bits of G[RB], and the others are masked. -/
def execStf (t sq c e : Nat) (s : State) : Out :=
  s.runTables fun d => d.instr t sq c e 0x06 fun d w =>
    let x := d.ctx sq c
    d.storeInstr sq c w (x.reg (iRa w)) (bfi 0 (x.reg (iRb w)) (iMsb w) (iLsb w)) (fieldMask (iMsb w) (iLsb w))

/-- ALU (R90). -/
def execAlu (t sq c e : Nat) (s : State) : Out :=
  s.run fun d => d.local t sq c e 0x08 fun w x =>
    match aluOp (iFn w 35 32) (x.reg (iRa w)) (x.opB w) with
    | some v => x.setReg (iRd w) v
    | none => x

/-- MOVI (R84). -/
def execMovi (t sq c e : Nat) (s : State) : Out := s.run fun d => d.local t sq c e 0x09 fun w x => x.setReg (iRd w) (iSimm w)

/-- MOVHI (R84). -/
def execMovhi (t sq c e : Nat) (s : State) : Out :=
  s.run fun d => d.local t sq c e 0x0A fun w x => x.setReg (iRd w) (wput (x.reg (iRd w)) 63 32 (iImm w))

/-- CMP (R91). -/
def execCmp (t sq c e : Nat) (s : State) : Out :=
  s.run fun d => d.local t sq c e 0x0B fun w x => x.setPred (iPc w) (cmpCond (iFn w 34 32) (x.reg (iRa w)) (x.opB w))

/-- BFX (R91). -/
def execBfx (t sq c e : Nat) (s : State) : Out :=
  s.run fun d => d.local t sq c e 0x0C fun w x => x.setReg (iRd w) (bfx (x.reg (iRa w)) (iMsb w) (iLsb w))

/-- BFI (R91). -/
def execBfi (t sq c e : Nat) (s : State) : Out :=
  s.run fun d => d.local t sq c e 0x0D fun w x => x.setReg (iRd w) (bfi (x.reg (iRd w)) (x.reg (iRa w)) (iMsb w) (iLsb w))

/-- BR (R92, R93, R98): a backward BR is a safe point whether or not it is taken, and may call the handler from where it leads. -/
def execBr (t sq c e : Nat) (s : State) : Out :=
  s.run fun d => d.issue t sq c e 0x10 fun d w go =>
    let tgt := if go then (d.ctx sq c).target w else (d.ctx sq c).pc + 1
    d.finish sq c fun x =>
      let x : Ctx := { x with pc := tgt, since := if backward w then 0 else x.since }
      if backward w && x.callsHandler then x.handlerCall tgt else x

/-- CALL (R92). -/
def execCall (t sq c e : Nat) (s : State) : Out :=
  s.run fun d => d.instr t sq c e 0x11 fun d w =>
    let x := d.ctx sq c
    let tgt := if iFnB w 32 then BitVec.ofNat 16 (iImm w) else x.target w
    if 8 ≤ x.rstack.length then d.routineFault sq c 4
    else d.finish sq c fun x => { x with rstack := x.pc :: x.rstack, pc := tgt }

/-- RET (R92, R98): the RET that pops the address of the implicit call ends the handler. -/
def execRet (t sq c e : Nat) (s : State) : Out :=
  s.run fun d => d.instr t sq c e 0x12 fun d _ =>
    match (d.ctx sq c).rstack with
    | [] => d.routineFault sq c 4
    | a :: rest => d.finish sq c fun x => { x with rstack := rest, pc := a, inh := if x.inh = some rest.length then none else x.inh }

/-- JR (R92). -/
def execJr (t sq c e : Nat) (s : State) : Out :=
  s.run fun d => d.local t sq c e 0x13 fun w x => { x with pc := BitVec.ofNat 16 (x.reg (iRa w)).toNat }

/-- SETH (R98). -/
def execSeth (t sq c e : Nat) (s : State) : Out :=
  s.run fun d => d.local t sq c e 0x14 fun w x => { x with handler := BitVec.ofNat 16 (iImm w), hen := iFnB w 32 }

/-- EVSEL (R96). -/
def execEvsel (t sq c e : Nat) (s : State) : Out :=
  s.run fun d => d.local t sq c e 0x15 fun w x => { x with groups := BitVec.ofNat 48 (x.reg (iRa w)).toNat }

/-- TBL (R99): a context that already waits for the command path looks again. -/
def execTbl (t sq c e : Nat) (s : State) : Out :=
  s.runTables fun d =>
    if (d.ctx sq c).st = .inAccess then d.seqAt t sq c fun d => d.tblRetry sq c
    else d.instr t sq c e 0x18 fun d w => d.tblInstr sq c w

/-- CREAD (R100). -/
def execCread (t sq c e : Nat) (s : State) : Out :=
  s.run fun d => d.instr t sq c e 0x19 fun d w =>
    let x := d.ctx sq c
    let idx := (x.reg (iRa w)).toNat % 2 ^ 32
    let names := ctExists idx
    if names && ! d.readAllowed x.priv idx then d.privStop sq c
    else
      let v := if names then d.counter idx else 0
      d.finish sq c fun x =>
        (((x.setReg (iRd w) v).setReg (iRd w + 1) (BitVec.ofNat 64 (tSec d.fab))).setReg (iRd w + 2)
          (BitVec.ofNat 64 (tNs d.fab * 65536 + tFrac d.fab))).setPred (iPd w) names

/-- WAIT (R103). -/
def execWait (t sq c e : Nat) (s : State) : Out := s.run fun d => d.instr t sq c e 0x1A fun d w => d.waitInstr sq c w

/-- WAIT_COMPLETE (R103). -/
def execWaitComplete (t sq c : Nat) (s : State) : Out := s.run fun d => d.seqAt t sq c fun d => d.waitPoll sq c

/-- AT (R104). -/
def execAt (t sq c e : Nat) (s : State) : Out :=
  s.run fun d => d.instr t sq c e 0x1B fun d w =>
    let x := d.ctx sq c
    d.storeChecked sq c (x.reg (iRa w))
      (match d.freeAt sq with
      | some i => (d.atArm sq c i w).finish sq c fun x => x.setPred (iPd w) true
      | none => d.finish sq c fun x => x.setPred (iPd w) false)

/-- HINT (R106). -/
def execHint (t sq c e : Nat) (s : State) : Out :=
  s.run fun d => d.instr t sq c e 0x1C fun d w =>
    let x := d.ctx sq c
    let len := wbits (x.reg (iRb w)) 23 0
    let ph := wbits (x.reg (iRa w)) 31 0
    let d := d.finish sq c id
    if iFnB w 38 then d.hintNow (iFn w 35 32) len
    else d.hintPass { cls := iFn w 35 32, cyc := d.nextOccurrence ph, phase := ph, len := len }

/-- EMIT (R107). -/
def execEmit (t sq c e : Nat) (s : State) : Out :=
  s.run fun d => d.instr t sq c e 0x1D fun d w =>
    let x := d.ctx sq c
    let id := if iFnB w 32 then bitsN (iImm w) 10 0 else wbits (x.reg (iRa w)) 10 0
    if 1535 < id then d.routineFault sq c 1
    else if x.priv < 1 then d.privStop sq c
    else (d.finish sq c fun x => x).raiseSev id (evSev id) (wbits (x.reg (iRb w)) 17 0) unitDev

/-- XPORT (R102). -/
def execXport (t sq c e : Nat) (s : State) : Out := s.run fun d => d.instr t sq c e 0x1E fun d w => d.xportInstr sq c w

/-- POLL (R93, R97). -/
def execPoll (t sq c e : Nat) (s : State) : Out :=
  s.run fun d => d.local t sq c e 0x1F fun w x =>
    match x.evq with
    | [] => { x.setPred (iPd w) false with since := 0 }
    | r :: rest =>
      let v := r.id + r.sev * 2 ^ 11 + (if x.evLost then 2 ^ 13 else 0) + r.arg * 2 ^ 14
      { ((x.setReg (iRd w) (BitVec.ofNat 64 v)).setPred (iPd w) true) with since := 0, evq := rest, evLost := false }

/-- SAFEPT_FAULT (R94). -/
def execSafeptFault (t sq c : Nat) (s : State) : Out :=
  s.run fun d => d.seqAt t sq c fun d =>
    if d.canIssue sq c && d.mayFetch sq c && (d.ctx sq c).since == 256 then d.routineFault sq c 5 else d

/-- AT_DISPATCH (R105). -/
def execAtDispatch (t : Nat) (s : State) : Out :=
  s.runTables fun d => d.timed t fun d => Dev.settlePorts d d.atDispatch

end Sys2Proof.Machine
end

