-- ==== Sys2Proof/Machine/ImgCmds.lean ====
section
/-! DEFINITION. The commands of chapter 05: the boot ROM, image load, bundles, fuses and read-back; and the test access port (R129, R433). -/

namespace Sys2Proof.Machine

set_option cleanup.letToHave false

/-- The crystal passes its check (R115, R123, R319, R390): 41.9 ms at least since the boot ROM began it. The boot ROM verifies a retained image,
or advertises. -/
def Dev.xoPass (d : Dev) : Dev :=
  if d.img.boot ≠ .xoCheck ∨ ¬ d.since d.img.since (us 41900) then d
  else
    let now := d.now
    { d with img := { d.img with boot := if d.img.retained then .verify else .advertising, since := now, xoAlert := false, advAt := none } }

/-- XO_CHECK_PASS (R115, R319). -/
def execXoCheckPass (t : Nat) (s : State) : Out := s.run fun d => d.ctl' t fun d => d.xoPass

/-- XO_CHECK_ALERT (R115, R390). -/
def execXoCheckAlert (t : Nat) (s : State) : Out :=
  s.run fun d => d.ctl' t fun d =>
    if d.img.boot = .xoCheck ∧ d.since d.img.since (sec 1) then { d with img := { d.img with xoAlert := true } } else d

/-- IMAGE_CHUNK (R115, R116, R439): an IMAGE frame with CODE 0, or with a CODE that is discarded. -/
def execImageChunk (t : Nat) (f : TvxRx) (s : State) : Out :=
  s.run fun d => d.ctl' t fun d => d.rxType f (f.typ == 2 && f.code != 1 && f.code != 2) fun d => d.imageRx f

/-- IMAGE_CANCEL (R116). -/
def execImageCancel (t : Nat) (f : TvxRx) (s : State) : Out :=
  s.run fun d => d.ctl' t fun d => d.rxType f (f.typ == 2 && f.code == 2) fun d => d.imageRx f

/-- BUNDLE_CHUNK (R66, R116, R125, R126). -/
def execBundleChunk (t : Nat) (f : TvxRx) (s : State) : Out :=
  s.run fun d => d.ctl' t fun d => d.rxType f (f.typ == 2 && f.code == 1) fun d => d.imageRx f

/-- IMAGE_CHUNK_TIMEOUT (R115, R116). -/
def execImageChunkTimeout (t : Nat) (s : State) : Out := s.run fun d => d.ctl' t fun d => d.chunkTimeout

/-- The image being loaded: the golden copy of a retained load, else what the host has sent. -/
def Dev.loading (d : Dev) : List Byte := if d.img.retained then d.img.golden else d.img.staged

/-- The checks of R439 in VERIFY end; a retained load verifies every recorded bundle too (R123). Passed, the boot ROM powers what LOAD needs
(R115); `bad` are the failing rows that the self-tests find. -/
def Dev.imageVerified (d : Dev) (bad : List Nat) : Dev :=
  if d.img.boot ≠ .verify then d
  else
    let bundles := if d.img.retained then d.img.bundles else []
    let bundleBad := findFirst (fun (x : Option (Nat × Option Nat)) => x.isSome) (bundles.map (d.imageChecks 1))
    match d.imageChecks 0 d.loading, bundleBad with
    | some r, _ => d.bootFail r.1 r.2
    | none, some (some r) => d.bootFail r.1 r.2
    | none, _ =>
      let now := d.now
      Dev.refreshDomains { d with img := { d.img with boot := .load, since := now } } bad

/-- IMAGE_VERIFY_DONE (R115, R119, R123, R439). -/
def execImageVerifyDone (t : Nat) (bad : List Nat) (s : State) : Out := s.run fun d => d.ctl' t fun d => d.imageVerified bad

/-- A REG_INIT record is applied: address, value, mask (R118, R120). A record that restarts the device ends the load. -/
def Dev.regInit (d : Dev) (r : Nat) : Dev :=
  if d.img.boot ≠ .load then d
  else d.busWrite 0 0 (r / 2 ^ 128) (BitVec.ofNat 64 (r / 2 ^ 64)) (BitVec.ofNat 64 r)

/-- A section of the image is written (R120); of REG_INIT the records are applied in order, and its version is kept. -/
def Dev.loadSect (d : Dev) (b : List Byte) (x : Sect) : Dev :=
  if x.store = 7 then
    let d := (sectWords b x).foldl (fun (d : Dev) r => d.regInit r) d
    if d.img.boot = .load then d.setStoreVer 7 0 x.ver else d
  else (sectInsts x).foldl (fun (d : Dev) i => d.putSect b x i) d

/-- Stores in the order of R120, before and after the training of the spill PHYs. -/
def loadBefore : List Nat := [5]
def loadAfter : List Nat := [2, 1, 3, 4, 6, 7]

/-- The sections of the stores of `l` are written in that order. -/
def Dev.loadStores (d : Dev) (b : List Byte) (l : List Nat) : Dev :=
  l.foldl (fun (d : Dev) st => (sects b).foldl (fun (d : Dev) x => if x.store = st then d.loadSect b x else d) d) d

/-- A load fails (R115, R120): the domains that it powered go off, and the sequencers' stores with them. -/
def Dev.loadFail (d : Dev) (k : Option Nat) : Dev :=
  let d : Dev := { d with csq := { d.csq with store := [] } }
  let d := (List.range 2).foldl (fun (d : Dev) sq => (List.range 8).foldl (fun (d : Dev) c => d.rset .CSQ_REGION [sq, c] 0) (d.rset .CSQ_LIB [sq] 0)) d
  d.bootFail 0x15 k

/-- What the golden copy holds of bundles is applied again (R123). -/
def Dev.reapply (d : Dev) : Dev :=
  d.img.patches.foldl (fun (d : Dev) y =>
    let b := d.img.bundles.getD y.1 []
    d.putSect b (sectAt b y.2.1) y.2.2) d

/-- The registers that show the running image (R24, R119, R130, R328). -/
def Dev.showImage (d : Dev) (b : List Byte) : Dev :=
  let prof := hdrFlags b % 2
  let clk := hdrFlags b / 4 % 2
  let d := d.fsets [(F.GLB_PROFILE.LOADED, 1), (F.GLB_PROFILE.PROFILE, prof), (F.GLB_PROFILE.CLKMODE, clk)] []
  let d := d.fsets [(F.GLB_VERSION.IMAGE_VER, hdrVer b), (F.GLB_VERSION.BUNDLES, min 65535 d.img.fulls),
    (F.GLB_VERSION.MIXED, if d.img.mixed then 1 else 0), (F.GLB_VERSION.SVN, hdrSvn b % 256)] []
  let d := (d.fset F.GLB_FUSE.SLOT [] (hdrSlot b)).fset F.CSQ_STATUS.STATE [] (if prof = 1 then 4 else 0)
  if clk = 1 then
    let d : Dev := { d with clk := { d.clk with voltage := 780 } }
    d.fsets [(F.CLK_DVFS.TARGET, 1), (F.CLK_DVFS.CUR, 1)] []
  else d

/-- The device reaches STANDBY (R63, R115, R117, R123, R334, R347). -/
def Dev.loadDone (d : Dev) (b : List Byte) : Dev :=
  let retained := d.img.retained
  let now := d.now
  let d := if retained then d.reapply else d
  let d := d.showImage b
  let d : Dev := { d with img := { d.img with boot := .standby, since := now, staged := [], retained := false }, pwr := { d.pwr with replanDue := true } }
  let d := (List.range 4).foldl (fun (d : Dev) k => d.srLet k) d
  let d := (d.refreshDomains []).raise Ev.IMG_LOADED 0 unitDev
  let d := d.noteVerdict 0x10 none
  let d := if retained then d else d.verdictReply bootSess 0x10 none b
  let d := d.advertiseAll
  if d.pwr.reqHeld then d.activate [] else d

/-- LOAD ends (R115, R120): `train` says that the spill PHYs trained, `bad` are the sections whose write-back differs. -/
def Dev.imageLoaded' (d : Dev) (train : Bool) (bad : List Nat) : Dev :=
  if d.img.boot ≠ .load then d
  else
    let b := d.loading
    let failed := fun (l : List Nat) => findFirst (fun k => decide (l.contains (sectAt b k).store) && bad.contains k) (List.range (hdrSects b))
    let d := d.loadStores b loadBefore
    match failed loadBefore with
    | some k => d.loadFail (some k)
    | none =>
      if ! train then d.loadFail none
      else
        let d := (List.range 4).foldl (fun (d : Dev) k => d.fset F.SPL_STATUS.TRAINED [k] 1) d
        let d : Dev := if d.img.retained then d
          else { d with img := { d.img with golden := b, bundles := [], patches := [], fulls := 0, mixed := false } }
        let d := d.loadStores b loadAfter
        match failed loadAfter with
        | some k => d.loadFail (some k)
        | none => if d.img.boot = .load then d.loadDone b else d

/-- IMAGE_LOAD_DONE (R115, R120, R123). -/
def execImageLoadDone (t : Nat) (train : Bool) (bad : List Nat) (s : State) : Out :=
  s.runTables fun d => d.ctl' t fun d => d.imageLoaded' train bad

/-- BUNDLE_VERIFY_DONE (R125, R126, R439). -/
def execBundleVerifyDone (t : Nat) (s : State) : Out := s.run fun d => d.ctl' t fun d => d.bundleVerify

/-- PATCH_SECTION_APPLY (R127, R128). -/
def execPatchSectionApply (t : Nat) (s : State) : Out := s.run fun d => d.ctl' t fun d => d.patchApply

/-- PATCH_TIMEOUT (R128). -/
def execPatchTimeout (t : Nat) (s : State) : Out := s.run fun d => d.ctl' t fun d => d.patchTimeout

/-- IMG_FUSE_CMD is written with GO = 1 and this OP (R124). -/
def Dev.fuseWrite (d : Dev) (op : Nat) (w : Word) : Dev :=
  if w.getLsbD 63 && wbits w 62 60 == op then d.busWrite 0 0 (RegName.addr .IMG_FUSE_CMD []) w allOnes else d

/-- FUSE_REVOKE (R124). -/
def execFuseRevoke (w : Word) (s : State) : Out := s.run fun d => d.sw fun d => d.fuseWrite 1 w

/-- FUSE_ADVANCE (R124). -/
def execFuseAdvance (w : Word) (s : State) : Out := s.run fun d => d.sw fun d => d.fuseWrite 2 w

/-- FUSE_DEADBOLT (R124, R129). -/
def execFuseDeadbolt (w : Word) (s : State) : Out := s.run fun d => d.sw fun d => d.fuseWrite 3 w

/-- FUSE_COMMAND_DONE (R124, R129): the fuses of the command in progress that have had their 1 ms are blown. -/
def execFuseCommandDone (t : Nat) (s : State) : Out :=
  s.runFuses fun d => d.ctl' t fun d => d.fuseBlow

/-- STORE_READBACK (R129, R130): IMG_RDBK_ADDR is written with GO = 1. -/
def execStoreReadback (w : Word) (s : State) : Out :=
  s.run fun d => d.sw fun d => if w.getLsbD 63 then d.busWrite 0 0 (RegName.addr .IMG_RDBK_ADDR []) w allOnes else d

/-- TEST_ACCESS_INSTRUCTION (R129, R433): k is 0 BYPASS, 1 IDCODE, 2 another boundary-scan instruction of IEEE 1149.1 or 1149.6, 3 a private
instruction, 4 internal scan. Once the deadbolt is blown the last two act as BYPASS, with event 94; before it the spec does not say what they do. -/
def execTestAccessInstruction (k : Nat) (s : State) : Out :=
  if k < 3 then s.run fun d => { d with pins := { d.pins with jtag := k } }
  else if s.dev.fuses.deadbolt then
    s.run fun d => Dev.sw { d with pins := { d.pins with jtag := 0 } } fun d => d.raise Ev.IMG_DEADBOLT_DENY 0 unitDev
  else .refused .testAccessPrivate

end Sys2Proof.Machine
end

