-- ==== Sys2Proof/Machine/Dispatch.lean ====
section
/-! DEFINITION. The dispatch: one arm per command, each one direct call of its meaning. -/

namespace Sys2Proof.Machine

/-- What a command does to everything but the queue. -/
def exec (i : Instr) (s : State) : Host.Outcome State Fault Refusal :=
  match i with
  | .registerWrite sq c addr v => Sys2Proof.Machine.execRegisterWrite sq c addr v s
  | .bFieldTakesEffect addr => Sys2Proof.Machine.execBFieldTakesEffect addr s
  | .qviolClear => Sys2Proof.Machine.execQviolClear s
  | .powerUp t role => Sys2Proof.Machine.execPowerUp t role s
  | .poresetN t width role => Sys2Proof.Machine.execPoresetN t width role s
  | .resetN t width role porLow => Sys2Proof.Machine.execResetN t width role porLow s
  | .softwareRestart sq c role => Sys2Proof.Machine.execSoftwareRestart sq c role s
  | .supplyLoss t r => Sys2Proof.Machine.execSupplyLoss t r s
  | .readTimNowSec sq c rd => Sys2Proof.Machine.execReadTimNowSec sq c rd s
  | .readCycNowNum sq c rd => Sys2Proof.Machine.execReadCycNowNum sq c rd s
  | .servoDisable => Sys2Proof.Machine.execServoDisable s
  | .sourceQualifies t kind => Sys2Proof.Machine.execSourceQualifies t kind s
  | .waitToRestoreExpiry t => Sys2Proof.Machine.execWaitToRestoreExpiry t s
  | .sourceLost t kind => Sys2Proof.Machine.execSourceLost t kind s
  | .ppsInEdge t => Sys2Proof.Machine.execPpsInEdge t s
  | .dpllLock t adj => Sys2Proof.Machine.execDpllLock t adj s
  | .dpllOffsetLoss t => Sys2Proof.Machine.execDpllOffsetLoss t s
  | .holdoverHistoryValid t => Sys2Proof.Machine.execHoldoverHistoryValid t s
  | .timAdjGo mode off => Sys2Proof.Machine.execTimAdjGo mode off s
  | .slewEnd t => Sys2Proof.Machine.execSlewEnd t s
  | .ptpMessageRx t p q best msg => Sys2Proof.Machine.execPtpMessageRx t p q best msg s
  | .ptpMessageTx t p q kind => Sys2Proof.Machine.execPtpMessageTx t p q kind s
  | .calibrationStep t sl dev => Sys2Proof.Machine.execCalibrationStep t sl dev s
  | .ppsOutPulse t => Sys2Proof.Machine.execPpsOutPulse t s
  | .cycleRun => Sys2Proof.Machine.execCycleRun s
  | .cycleStop => Sys2Proof.Machine.execCycleStop s
  | .cycleBoundary t => Sys2Proof.Machine.execCycleBoundary t s
  | .realign => Sys2Proof.Machine.execRealign s
  | .cycleInEdge t => Sys2Proof.Machine.execCycleInEdge t s
  | .cycleInMiss t => Sys2Proof.Machine.execCycleInMiss t s
  | .flywheelBoundary t => Sys2Proof.Machine.execFlywheelBoundary t s
  | .phaseEntryFire t => Sys2Proof.Machine.execPhaseEntryFire t s
  | .phaseTableCommit => Sys2Proof.Machine.execPhaseTableCommit s
  | .phaseTableCheckDone t => Sys2Proof.Machine.execPhaseTableCheckDone t s
  | .phaseTableEntryWrite n w => Sys2Proof.Machine.execPhaseTableEntryWrite n w s
  | .cpLinkUp t k fec => Sys2Proof.Machine.execCpLinkUp t k fec s
  | .cpLinkLoss t k => Sys2Proof.Machine.execCpLinkLoss t k s
  | .cpModeAlternate t k => Sys2Proof.Machine.execCpModeAlternate t k s
  | .cpConfigWrite sq c k v => Sys2Proof.Machine.execCpConfigWrite sq c k v s
  | .cpFrameDiscard k control len => Sys2Proof.Machine.execCpFrameDiscard k control len s
  | .tvxMalformed t f => Sys2Proof.Machine.execTvxMalformed t f s
  | .discoverSolicit t f => Sys2Proof.Machine.execDiscoverSolicit t f s
  | .discoverOpen t f => Sys2Proof.Machine.execDiscoverOpen t f s
  | .discoverClose t f => Sys2Proof.Machine.execDiscoverClose t f s
  | .heartbeatRx t f => Sys2Proof.Machine.execHeartbeatRx t f s
  | .advertiseTimer t => Sys2Proof.Machine.execAdvertiseTimer t s
  | .ackHeartbeat t n => Sys2Proof.Machine.execAckHeartbeat t n s
  | .tvxRetransmit t n => Sys2Proof.Machine.execTvxRetransmit t n s
  | .sessionHeartbeatMiss t n => Sys2Proof.Machine.execSessionHeartbeatMiss t n s
  | .sessionCloseWrite n => Sys2Proof.Machine.execSessionCloseWrite n s
  | .heartbeatSend t n => Sys2Proof.Machine.execHeartbeatSend t n s
  | .eventRecordSend t n => Sys2Proof.Machine.execEventRecordSend t n s
  | .bulkFrameSend t n => Sys2Proof.Machine.execBulkFrameSend t n s
  | .exportBufferRoom t sq c => Sys2Proof.Machine.execExportBufferRoom t sq c s
  | .sakInstall w => Sys2Proof.Machine.execSakInstall w s
  | .sakClear w => Sys2Proof.Machine.execSakClear w s
  | .loadRun t f => Sys2Proof.Machine.execLoadRun t f s
  | .run t f => Sys2Proof.Machine.execRun t f s
  | .abort t f => Sys2Proof.Machine.execAbort t f s
  | .abortAtSafePoint t sq c => Sys2Proof.Machine.execAbortAtSafePoint t sq c s
  | .nop t sq c e => Sys2Proof.Machine.execNop t sq c e s
  | .halt t sq c e => Sys2Proof.Machine.execHalt t sq c e s
  | .ld t sq c e => Sys2Proof.Machine.execLd t sq c e s
  | .st t sq c e => Sys2Proof.Machine.execSt t sq c e s
  | .stf t sq c e => Sys2Proof.Machine.execStf t sq c e s
  | .alu t sq c e => Sys2Proof.Machine.execAlu t sq c e s
  | .movi t sq c e => Sys2Proof.Machine.execMovi t sq c e s
  | .movhi t sq c e => Sys2Proof.Machine.execMovhi t sq c e s
  | .cmp t sq c e => Sys2Proof.Machine.execCmp t sq c e s
  | .bfx t sq c e => Sys2Proof.Machine.execBfx t sq c e s
  | .bfi t sq c e => Sys2Proof.Machine.execBfi t sq c e s
  | .br t sq c e => Sys2Proof.Machine.execBr t sq c e s
  | .call t sq c e => Sys2Proof.Machine.execCall t sq c e s
  | .ret t sq c e => Sys2Proof.Machine.execRet t sq c e s
  | .jr t sq c e => Sys2Proof.Machine.execJr t sq c e s
  | .seth t sq c e => Sys2Proof.Machine.execSeth t sq c e s
  | .evsel t sq c e => Sys2Proof.Machine.execEvsel t sq c e s
  | .tbl t sq c e => Sys2Proof.Machine.execTbl t sq c e s
  | .cread t sq c e => Sys2Proof.Machine.execCread t sq c e s
  | .wait t sq c e => Sys2Proof.Machine.execWait t sq c e s
  | .waitComplete t sq c => Sys2Proof.Machine.execWaitComplete t sq c s
  | .armAt t sq c e => Sys2Proof.Machine.execAt t sq c e s
  | .hint t sq c e => Sys2Proof.Machine.execHint t sq c e s
  | .emit t sq c e => Sys2Proof.Machine.execEmit t sq c e s
  | .xport t sq c e => Sys2Proof.Machine.execXport t sq c e s
  | .poll t sq c e => Sys2Proof.Machine.execPoll t sq c e s
  | .safeptFault t sq c => Sys2Proof.Machine.execSafeptFault t sq c s
  | .atDispatch t => Sys2Proof.Machine.execAtDispatch t s
  | .sequencerFault t sq => Sys2Proof.Machine.execSequencerFault t sq s
  | .watchdogExpiry t sq => Sys2Proof.Machine.execWatchdogExpiry t sq s
  | .takeoverComplete t => Sys2Proof.Machine.execTakeoverComplete t s
  | .resyncComplete t => Sys2Proof.Machine.execResyncComplete t s
  | .xoCheckPass t => Sys2Proof.Machine.execXoCheckPass t s
  | .xoCheckAlert t => Sys2Proof.Machine.execXoCheckAlert t s
  | .imageChunk t f => Sys2Proof.Machine.execImageChunk t f s
  | .imageCancel t f => Sys2Proof.Machine.execImageCancel t f s
  | .imageChunkTimeout t => Sys2Proof.Machine.execImageChunkTimeout t s
  | .imageVerifyDone t bad => Sys2Proof.Machine.execImageVerifyDone t bad s
  | .imageLoadDone t train bad => Sys2Proof.Machine.execImageLoadDone t train bad s
  | .bundleChunk t f => Sys2Proof.Machine.execBundleChunk t f s
  | .bundleVerifyDone t => Sys2Proof.Machine.execBundleVerifyDone t s
  | .patchSectionApply t => Sys2Proof.Machine.execPatchSectionApply t s
  | .patchTimeout t => Sys2Proof.Machine.execPatchTimeout t s
  | .fuseRevoke w => Sys2Proof.Machine.execFuseRevoke w s
  | .fuseAdvance w => Sys2Proof.Machine.execFuseAdvance w s
  | .fuseDeadbolt w => Sys2Proof.Machine.execFuseDeadbolt w s
  | .fuseCommandDone t => Sys2Proof.Machine.execFuseCommandDone t s
  | .storeReadback w => Sys2Proof.Machine.execStoreReadback w s
  | .frameReceive t p fresh bytes => Sys2Proof.Machine.execFrameReceive t p fresh bytes s
  | .frameTailArrive t p err bytes => Sys2Proof.Machine.execFrameTailArrive t p err bytes s
  | .frameBind f => Sys2Proof.Machine.execFrameBind f s
  | .ext f ue => Sys2Proof.Machine.execExt f ue s
  | .extf f ue => Sys2Proof.Machine.execExtf f ue s
  | .adv f ue => Sys2Proof.Machine.execAdv f ue s
  | .sel f ue => Sys2Proof.Machine.execSel f ue s
  | .chkLength f ue => Sys2Proof.Machine.execChkLength f ue s
  | .chkCsum f ue => Sys2Proof.Machine.execChkCsum f ue s
  | .chkOption f ue => Sys2Proof.Machine.execChkOption f ue s
  | .scan f ue => Sys2Proof.Machine.execScan f ue s
  | .parseWaitBytes f ue => Sys2Proof.Machine.execParseWaitBytes f ue s
  | .parseWaitScan f ue => Sys2Proof.Machine.execParseWaitScan f ue s
  | .parseSet f ue => Sys2Proof.Machine.execParseSet f ue s
  | .parseHash f ue => Sys2Proof.Machine.execParseHash f ue s
  | .endParse f ue => Sys2Proof.Machine.execEnd f ue s
  | .parseBudgetExceeded f => Sys2Proof.Machine.execParseBudgetExceeded f s
  | .scanComplete f => Sys2Proof.Machine.execScanComplete f s
  | .hvRelease f => Sys2Proof.Machine.execHvRelease f s
  | .patternWrite sl ix => Sys2Proof.Machine.execPatternWrite sl ix s
  | .patternRead sl ix => Sys2Proof.Machine.execPatternRead sl ix s
  | .patternInvalidate sl ix => Sys2Proof.Machine.execPatternInvalidate sl ix s
  | .matchStage eg f bad ue => Sys2Proof.Machine.execMatchStage eg f bad ue s
  | .sashSwapTrigger sl scope g => Sys2Proof.Machine.execSashSwapTrigger sl scope g s
  | .sashSwapTakesEffect sl => Sys2Proof.Machine.execSashSwapTakesEffect sl s
  | .sashSettleEnd sl => Sys2Proof.Machine.execSashSettleEnd sl s
  | .tblInsert sl tab sash idx => Sys2Proof.Machine.execTblInsert sl tab sash idx s
  | .tblDelete sl tab sash idx => Sys2Proof.Machine.execTblDelete sl tab sash idx s
  | .tblUpdate sl tab sash idx => Sys2Proof.Machine.execTblUpdate sl tab sash idx s
  | .tblLookup sl tab sash idx => Sys2Proof.Machine.execTblLookup sl tab sash idx s
  | .tblRead sl tab sash idx bad => Sys2Proof.Machine.execTblRead sl tab sash idx bad s
  | .tblWrite sl tab sash idx => Sys2Proof.Machine.execTblWrite sl tab sash idx s
  | .tblAge sl tab sash idx => Sys2Proof.Machine.execTblAge sl tab sash idx s
  | .tblWdata sl tab sash idx => Sys2Proof.Machine.execTblWdata sl tab sash idx s
  | .tblRdata sl tab sash idx bad => Sys2Proof.Machine.execTblRdata sl tab sash idx bad s
  | .learnApply sl => Sys2Proof.Machine.execLearnApply sl s
  | .learnRingMessage sl => Sys2Proof.Machine.execLearnRingMessage sl s
  | .ageingPassStart t sl a => Sys2Proof.Machine.execAgeingPassStart t sl a s
  | .ageingStep sl a => Sys2Proof.Machine.execAgeingStep sl a s
  | .mcgWrite g prune => Sys2Proof.Machine.execMcgWrite g prune s
  | .mcgRead g => Sys2Proof.Machine.execMcgRead g s
  | .badlogClear sl => Sys2Proof.Machine.execBadlogClear sl s
  | .admission f => Sys2Proof.Machine.execAdmission f s
  | .cellCharge ptr => Sys2Proof.Machine.execCellCharge ptr s
  | .crossbarMatch => Sys2Proof.Machine.execCrossbarMatch s
  | .enqueue c => Sys2Proof.Machine.execEnqueue c s
  | .cellReturn ptr unit => Sys2Proof.Machine.execCellReturn ptr unit s
  | .pfcRepeat t p g => Sys2Proof.Machine.execPfcRepeat t p g s
  | .pfcFrameRx t p mask timers => Sys2Proof.Machine.execPfcFrameRx t p mask timers s
  | .pfcTimerExpire t p pri => Sys2Proof.Machine.execPfcTimerExpire t p pri s
  | .pauseFrameRx t p => Sys2Proof.Machine.execPauseFrameRx t p s
  | .queueAgeVisit t p q => Sys2Proof.Machine.execQueueAgeVisit t p q s
  | .bufferAuditCheck t => Sys2Proof.Machine.execBufferAuditCheck t s
  | .auditWalkStart => Sys2Proof.Machine.execAuditWalkStart s
  | .auditWalkDone t => Sys2Proof.Machine.execAuditWalkDone t s
  | .bufHoldRelease p => Sys2Proof.Machine.execBufHoldRelease p s
  | .schedulerSelect p => Sys2Proof.Machine.execSchedulerSelect p s
  | .frameTxStart t p => Sys2Proof.Machine.execFrameTxStart t p s
  | .frameTxEnd t p ecc corr => Sys2Proof.Machine.execFrameTxEnd t p ecc corr s
  | .spillFrame c pages => Sys2Proof.Machine.execSpillFrame c pages s
  | .spillWriteDone c perr pages => Sys2Proof.Machine.execSpillWriteDone c perr pages s
  | .returnFrame p q => Sys2Proof.Machine.execReturnFrame p q s
  | .returnReadDone c ptrs ue corr lost => Sys2Proof.Machine.execReturnReadDone c ptrs ue corr lost s
  | .refresh k b => Sys2Proof.Machine.execRefresh k b s
  | .spillTrainStep t k c margin fails => Sys2Proof.Machine.execSpillTrainStep t k c margin fails s
  | .srEnter t k => Sys2Proof.Machine.execSrEnter t k s
  | .srEntryDone t k => Sys2Proof.Machine.execSrEntryDone t k s
  | .srExitRequest t k off => Sys2Proof.Machine.execSrExitRequest t k off s
  | .srExitDone t k => Sys2Proof.Machine.execSrExitDone t k s
  | .srLatClear k => Sys2Proof.Machine.execSrLatClear k s
  | .spillAuditCheck t k => Sys2Proof.Machine.execSpillAuditCheck t k s
  | .spillWalkStart k => Sys2Proof.Machine.execSpillWalkStart k s
  | .spillWalkDone t k => Sys2Proof.Machine.execSpillWalkDone t k s
  | .pageReturn page => Sys2Proof.Machine.execPageReturn page s
  | .pageCacheRefill k => Sys2Proof.Machine.execPageCacheRefill k s
  | .splQEnable p q => Sys2Proof.Machine.execSplQEnable p q s
  | .pseudoChannelRetire k c => Sys2Proof.Machine.execPseudoChannelRetire k c s
  | .pcReadTimeout t k c => Sys2Proof.Machine.execPcReadTimeout t k c s
  | .retirementDone t k golden => Sys2Proof.Machine.execRetirementDone t k golden s
  | .shaperEligible t sl m k => Sys2Proof.Machine.execShaperEligible t sl m k s
  | .coarseSlotBegin t sl => Sys2Proof.Machine.execCoarseSlotBegin t sl s
  | .meterReset sl ix => Sys2Proof.Machine.execMeterReset sl ix s
  | .pepRingEnable r => Sys2Proof.Machine.execPepRingEnable r s
  | .pepRingDisable r => Sys2Proof.Machine.execPepRingDisable r s
  | .peepholeRecordWrite sl => Sys2Proof.Machine.execPeepholeRecordWrite sl s
  | .shutterMaskChange t p => Sys2Proof.Machine.execShutterMaskChange t p s
  | .shutterCommit sl m => Sys2Proof.Machine.execShutterCommit sl m s
  | .shutterCheckDone t sl m => Sys2Proof.Machine.execShutterCheckDone t sl m s
  | .shutterEntryWrite sl m n w => Sys2Proof.Machine.execShutterEntryWrite sl m n w s
  | .preemptionVerify t p ok => Sys2Proof.Machine.execPreemptionVerify t p ok s
  | .portEnable p bad => Sys2Proof.Machine.execPortEnable p bad s
  | .portDisable p => Sys2Proof.Machine.execPortDisable p s
  | .anComplete t p rates fec lpi recd => Sys2Proof.Machine.execAnComplete t p rates fec lpi recd s
  | .anRestart t p => Sys2Proof.Machine.execAnRestart t p s
  | .trainComplete t p margins inv theirs => Sys2Proof.Machine.execTrainComplete t p margins inv theirs s
  | .trainTimeout t p failed => Sys2Proof.Machine.execTrainTimeout t p failed s
  | .retrainDelay t p => Sys2Proof.Machine.execRetrainDelay t p s
  | .asymMeasured t p rx tx => Sys2Proof.Machine.execAsymMeasured t p rx tx s
  | .alignComplete t p rev perm inv => Sys2Proof.Machine.execAlignComplete t p rev perm inv s
  | .alignTimeout t p => Sys2Proof.Machine.execAlignTimeout t p s
  | .linkLoss t p lost => Sys2Proof.Machine.execLinkLoss t p lost s
  | .portRetrain p => Sys2Proof.Machine.execPortRetrain p s
  | .loopSet p v => Sys2Proof.Machine.execLoopSet p v s
  | .loopClear p => Sys2Proof.Machine.execLoopClear p s
  | .dormantSet p => Sys2Proof.Machine.execDormantSet p s
  | .dormantExit p => Sys2Proof.Machine.execDormantExit p s
  | .adaptFreeze t p => Sys2Proof.Machine.execAdaptFreeze t p s
  | .adaptSnapshot t n => Sys2Proof.Machine.execAdaptSnapshot t n s
  | .marginMeasure t n m => Sys2Proof.Machine.execMarginMeasure t n m s
  | .symbolTrigger t n cnt inj => Sys2Proof.Machine.execSymbolTrigger t n cnt inj s
  | .txQuietEnter t p => Sys2Proof.Machine.execTxQuietEnter t p s
  | .txQuietExit t p => Sys2Proof.Machine.execTxQuietExit t p s
  | .quietWakeBeforeOpening t p => Sys2Proof.Machine.execQuietWakeBeforeOpening t p s
  | .lpiRefresh t p => Sys2Proof.Machine.execLpiRefresh t p s
  | .rxQuietEnter t p => Sys2Proof.Machine.execRxQuietEnter t p s
  | .rxQuietExit t p => Sys2Proof.Machine.execRxQuietExit t p s
  | .laneGroupPowerOnDone t g => Sys2Proof.Machine.execLaneGroupPowerOnDone t g s
  | .laneFault t n k => Sys2Proof.Machine.execLaneFault t n k s
  | .laneFaultClear t n k => Sys2Proof.Machine.execLaneFaultClear t n k s
  | .laneSpareGo sl ix => Sys2Proof.Machine.execLaneSpareGo sl ix s
  | .spareTrainDone t sl ok => Sys2Proof.Machine.execSpareTrainDone t sl ok s
  | .spareSwitch t sl => Sys2Proof.Machine.execSpareSwitch t sl s
  | .injectorEnable p => Sys2Proof.Machine.execInjectorEnable p s
  | .injectorDisable p => Sys2Proof.Machine.execInjectorDisable p s
  | .injectDrop p => Sys2Proof.Machine.execInjectDrop p s
  | .injectCorrupt p => Sys2Proof.Machine.execInjectCorrupt p s
  | .injectReorder t p => Sys2Proof.Machine.execInjectReorder t p s
  | .reorderTimeout t p => Sys2Proof.Machine.execReorderTimeout t p s
  | .injectDelay t p => Sys2Proof.Machine.execInjectDelay t p s
  | .delayRelease t p => Sys2Proof.Machine.execDelayRelease t p s
  | .injectSymbol p => Sys2Proof.Machine.execInjectSymbol p s
  | .xoLost t => Sys2Proof.Machine.execXoLost t s
  | .xoRestored t => Sys2Proof.Machine.execXoRestored t s
  | .refLost t k => Sys2Proof.Machine.execRefLost t k s
  | .refGood t k => Sys2Proof.Machine.execRefGood t k s
  | .pllRelock t ix => Sys2Proof.Machine.execPllRelock t ix s
  | .muxSwitch t m ratio => Sys2Proof.Machine.execMuxSwitch t m ratio s
  | .muxForcedSwitch t m ratio => Sys2Proof.Machine.execMuxForcedSwitch t m ratio s
  | .dvfsStepStart t => Sys2Proof.Machine.execDvfsStepStart t s
  | .cpllRampDone t => Sys2Proof.Machine.execCpllRampDone t s
  | .settlingReport t => Sys2Proof.Machine.execSettlingReport t s
  | .settleTimeout t => Sys2Proof.Machine.execSettleTimeout t s
  | .freqMeasureStart => Sys2Proof.Machine.execFreqMeasureStart s
  | .freqMeasureDone t count => Sys2Proof.Machine.execFreqMeasureDone t count s
  | .freqMeasureTimeout t count => Sys2Proof.Machine.execFreqMeasureTimeout t count s
  | .activeRequest t bad => Sys2Proof.Machine.execActiveRequest t bad s
  | .standbyRequest t => Sys2Proof.Machine.execStandbyRequest t s
  | .restRequest t => Sys2Proof.Machine.execRestRequest t s
  | .activeDrainEnd t => Sys2Proof.Machine.execActiveDrainEnd t s
  | .restEntryComplete t => Sys2Proof.Machine.execRestEntryComplete t s
  | .warmupDone t bad => Sys2Proof.Machine.execWarmupDone t bad s
  | .warmupTimeout t bad => Sys2Proof.Machine.execWarmupTimeout t bad s
  | .jhiComparator t temp => Sys2Proof.Machine.execJhiComparator t temp s
  | .jloComparator t temp => Sys2Proof.Machine.execJloComparator t temp s
  | .vuvComparator t mv => Sys2Proof.Machine.execVuvComparator t mv s
  | .vuvRecover t mv => Sys2Proof.Machine.execVuvRecover t mv s
  | .cpedEnergy t => Sys2Proof.Machine.execCpedEnergy t s
  | .timeAlarm t => Sys2Proof.Machine.execTimeAlarm t s
  | .vddCorePresent t => Sys2Proof.Machine.execVddCorePresent t s
  | .pmbusRound t reads status est avg => Sys2Proof.Machine.execPmbusRound t reads status est avg s
  | .capLoopIteration t raw links control p0 spill compute frames cells => Sys2Proof.Machine.execCapLoopIteration t raw links control p0 spill compute frames cells s
  | .hintStart t => Sys2Proof.Machine.execHintStart t s
  | .hintEnd t => Sys2Proof.Machine.execHintEnd t s
  | .sensorRead t temps stk => Sys2Proof.Machine.execSensorRead t temps stk s
  | .throttleStep t => Sys2Proof.Machine.execThrottleStep t s
  | .ageReplan t shift => Sys2Proof.Machine.execAgeReplan t shift s
  | .ageGo t shift => Sys2Proof.Machine.execAgeGo t shift s
  | .fabEnable t => Sys2Proof.Machine.execFabEnable t s
  | .helloSend t => Sys2Proof.Machine.execHelloSend t s
  | .helloRx t m => Sys2Proof.Machine.execHelloRx t m s
  | .memberTimeout t n => Sys2Proof.Machine.execMemberTimeout t n s
  | .numberRelease t n => Sys2Proof.Machine.execNumberRelease t n s
  | .rosterSend t => Sys2Proof.Machine.execRosterSend t s
  | .rosterRx t m => Sys2Proof.Machine.execRosterRx t m s
  | .cycleMsgRx t m => Sys2Proof.Machine.execCycleMsgRx t m s
  | .epochIssue t cycle => Sys2Proof.Machine.execEpochIssue t cycle s
  | .epochRx t m => Sys2Proof.Machine.execEpochRx t m s
  | .paceRx t m => Sys2Proof.Machine.execPaceRx t m s
  | .shedRx t m => Sys2Proof.Machine.execShedRx t m s
  | .managerSilent t => Sys2Proof.Machine.execManagerSilent t s
  | .takeoverRx t m => Sys2Proof.Machine.execTakeoverRx t m s
  | .originForget t o => Sys2Proof.Machine.execOriginForget t o s
  | .fabReclaim t => Sys2Proof.Machine.execFabReclaim t s
  | .fabRejoin t => Sys2Proof.Machine.execFabRejoin t s
  | .stackControlSend t => Sys2Proof.Machine.execStackControlSend t s
  | .stackControlRx t p uid pri num => Sys2Proof.Machine.execStackControlRx t p uid pri num s
  | .stackMemberTimeout t uid => Sys2Proof.Machine.execStackMemberTimeout t uid s
  | .digestScan t sl => Sys2Proof.Machine.execDigestScan t sl s
  | .digestFlush sl => Sys2Proof.Machine.execDigestFlush sl s
  | .digestDisable sl j => Sys2Proof.Machine.execDigestDisable sl j s
  | .counterSelectionPoll t sl => Sys2Proof.Machine.execCounterSelectionPoll t sl s
  | .eventStatusClear g bits => Sys2Proof.Machine.execEventStatusClear g bits s
  | .eventMaskWrite g v => Sys2Proof.Machine.execEventMaskWrite g v s
  | .sliceRepairGo sl => Sys2Proof.Machine.execSliceRepairGo sl s
  | .sliceDrainDone t => Sys2Proof.Machine.execSliceDrainDone t s
  | .sliceRebuildDone t res rows log bad => Sys2Proof.Machine.execSliceRebuildDone t res rows log bad s
  | .sliceReturnDone t => Sys2Proof.Machine.execSliceReturnDone t s
  | .sequencerRepairGo sq => Sys2Proof.Machine.execSequencerRepairGo sq s
  | .sequencerRepairAuto t sq => Sys2Proof.Machine.execSequencerRepairAuto t sq s
  | .sequencerRepairDone t sq res => Sys2Proof.Machine.execSequencerRepairDone t sq res s
  | .laneRestoreGo sl => Sys2Proof.Machine.execLaneRestoreGo sl s
  | .laneRetestDone t sl ok => Sys2Proof.Machine.execLaneRetestDone t sl ok s
  | .flowletFlush sl => Sys2Proof.Machine.execFlowletFlush sl s
  | .supplyRemoval t r => Sys2Proof.Machine.execSupplyRemoval t r s
  | .testAccessInstruction k => Sys2Proof.Machine.execTestAccessInstruction k s
  | .rowOpenTimeExpiry k b => Sys2Proof.Machine.execRowOpenTimeExpiry k b s
  | .paceInterval t => Sys2Proof.Machine.execPaceInterval t s

end Sys2Proof.Machine
end

