-- ==== Sys2Proof/Safety.lean ====
section
/-! DEFINITION. The terms in which statements speak: a command's effect, what a change leaves of the register file, runs, and what every run keeps. -/

namespace Sys2Proof.Safety

open Sys2Proof.Machine

/-- Command i completes at s: it answers a next state that differs in the device alone, with the same waiting commands, and the device
then is as P says. -/
def Does (i : Instr) (s : State) (P : Dev → Prop) : Prop := ∃ d, exec i s = .next { s with dev := d } ∧ P d

/-- Of the register file only the registers in l have changed from d to e. -/
def OnlyRegs (l : List (RegName × List Nat)) (d e : Dev) : Prop :=
  ∀ (n : RegName) (ix : List Nat), (∀ p ∈ l, p.1.addr p.2 ≠ n.addr ix) → e.rget n ix = d.rget n ix

/-- The same, besides the event status registers EVT_STATUS[0] to EVT_STATUS[47]. -/
def OnlyRegsAndEvents (l : List (RegName × List Nat)) (d e : Dev) : Prop :=
  ∀ (n : RegName) (ix : List Nat), (∀ p ∈ l, p.1.addr p.2 ≠ n.addr ix) →
    (n.addr ix < RegName.addr .EVT_STATUS [0] ∨ RegName.addr .EVT_STATUS [48] ≤ n.addr ix) → e.rget n ix = d.rget n ix

/-- Of the register file only registers at addresses in one of the spans of l, each from its first to before its second address, have changed. -/
def OnlySpans (l : List (Nat × Nat)) (d e : Dev) : Prop :=
  ∀ (n : RegName) (ix : List Nat), (∀ p ∈ l, n.addr ix < p.1 ∨ p.2 ≤ n.addr ix) → e.rget n ix = d.rget n ix

/-- The address spans of the lanes' and ports' registers, of the event status registers, and of the slices' windows. -/
def laneSpan : Nat × Nat := (0x1000000000, 0x1100000000)
def eventSpan : Nat × Nat := (RegName.addr .EVT_STATUS [0], RegName.addr .EVT_STATUS [48])
def sliceSpan : Nat × Nat := (0x4000000000, 0x4800000000)

/-- Every port that the device remembers exists. -/
def PortsNamed (d : Dev) : Prop := ∀ x ∈ d.lane.ports, x.1 < 1024

/-- The status bit of event id (R389): the event has happened since the bit was last cleared. -/
def Happened (d : Dev) (id : Nat) : Prop := bitN (d.fget F.EVT_STATUS.STATUS [id / 32]) (id % 32) = true

/-- An unprotected TVX frame of version 1 that holds the payload it announces reaches a control port with link, addressed to the device, in
Standby or Active, where the port does not require protection. -/
def PlainFrame (d : Dev) (f : TvxRx) : Prop :=
  d.up = true ∧ f.port < 2 ∧ d.cpLink f.port = true ∧ (f.dst = discoveryMac ∨ f.dst = d.ctlMac f.port) ∧ f.sec = 0 ∧
    d.fbit F.CTL_MSEC.REQUIRE [f.port] = false ∧ f.ver = 1 ∧ f.len ≤ 8192 ∧ f.len ≤ f.payload.length

/-- Control port k can send, and sends without protection. -/
def SendsPlainly (d : Dev) (k : Nat) : Prop := d.cpUsable k = true ∧ d.fbit F.CTL_MSEC.TXEN [k] = false

/-- No REPLY waits for a window or a port in any session or in the boot ROM's exchange. -/
def NothingWaits (d : Dev) : Prop := ∀ n ≤ 8, (d.sess n).outq = []

/-- Context c of sequencer sq is to issue the word w next: the sequencer serves it, it is ready and not held at a safe point, its PC lies where it
may fetch, and fewer than 256 instructions have been issued since the last safe point. -/
def Fetches (d : Dev) (sq c : Nat) (w : Word) : Prop :=
  d.canIssue sq c = true ∧ d.mayFetch sq c = true ∧ (d.ctx sq c).since < 256 ∧ d.seqWord sq c = w

/-- That word is legal and of opcode op. -/
def IssuesOp (d : Dev) (sq c op : Nat) (w : Word) : Prop := Fetches d sq c w ∧ illegalWord w = false ∧ iOp w = op

/-- And its predicate is true (R85). -/
def Issues (d : Dev) (sq c op : Nat) (w : Word) : Prop := IssuesOp d sq c op w ∧ (d.ctx sq c).goes w = true

/-- From d to e context c of sequencer sq has completed one instruction, and beside counting it and stepping its PC the instruction has done f to
the context; nothing else of the device has changed but the instant of the sequencer's last retirement. -/
def Retires (d e : Dev) (sq c : Nat) (f : Ctx → Ctx) : Prop :=
  e = { d with csq := { d.csq with
    ctxs := lmod d.csq.ctxs (ctxIx sq c) fun x => f { x with pc := x.pc + 1, icount := x.icount + 1, since := x.since + 1, st := .ready },
    lastRetire := d.csq.lastRetire.set sq d.now } }

/-- G[n] of a context takes v. -/
def setG (n : Nat) (v : Word) (x : Ctx) : Ctx := { x with g := lmod x.g n fun _ => v }

/-- P[n] of a context takes b; P0 takes nothing (R81). -/
def setP (n : Nat) (b : Bool) (x : Ctx) : Ctx :=
  if n = 0 then x else { x with p := if b then x.p ||| (1#8 <<< n) else x.p &&& ~~~(1#8 <<< n) }

/-- The routine of a context has stopped at a fault of this kind (R109): the context holds what it held, and CSQ_CTX_FAULT has the record. -/
def Faulted (d e : Dev) (sq c kind : Nat) : Prop :=
  (e.ctx sq c).st = .stopped ∧ (e.ctx sq c).pc = (d.ctx sq c).pc ∧ (e.ctx sq c).g = (d.ctx sq c).g ∧ (e.ctx sq c).p = (d.ctx sq c).p ∧
    e.rget .CSQ_CTX_FAULT [sq, c] = BitVec.ofNat 64 (2 ^ 63 + kind * 2 ^ 56 + (d.ctx sq c).pc.toNat) ∧ Happened e (if kind = 5 then 81 else 80)

/-- The opcodes whose false predicate only takes the instruction's place (all but BR), with their commands. -/
def seqOps : List (Nat × (Nat → Nat → Nat → Nat → Instr)) :=
  [(0x01, .nop), (0x02, .halt), (0x04, .ld), (0x05, .st), (0x06, .stf), (0x08, .alu), (0x09, .movi), (0x0A, .movhi), (0x0B, .cmp),
   (0x0C, .bfx), (0x0D, .bfi), (0x11, .call), (0x12, .ret), (0x13, .jr), (0x14, .seth), (0x15, .evsel)] ++
  [(0x18, .tbl), (0x19, .cread), (0x1A, .wait), (0x1B, .armAt), (0x1C, .hint), (0x1D, .emit), (0x1E, .xport), (0x1F, .poll)]

/-- Frame x, whose identity is f, is bound and about to execute the parse word w of opcode op: its parse has not ended, its budget is not used up,
and the word's marks stay within the loop and depth limits (R133, R136 to R142). -/
def Parses (d : Dev) (f op : Nat) (x : Frame) (w : PWord) : Prop :=
  d.active = true ∧ d.frame? f = some x ∧ x.loc = .bound ∧ x.parse.ended = false ∧ x.parse.slots < x.parse.budget ∧
    d.parseWordAt (d.portSlice x.port) x.parse.pc = w ∧ w.get 127 122 = op ∧
    (w.get 109 109 = 1 → x.parse.loops + 1 ≤ x.parse.loopMax) ∧ (w.get 108 108 = 1 → x.parse.depth + 1 ≤ x.parse.depthMax)

/-- The bytes of the frame below offset h are there, before its FCS and within the head window. -/
def Present (x : Frame) (h : Nat) : Prop := h ≤ x.parse.window ∧ h ≤ (if x.ended then x.bytes.length - 4 else x.bytes.length)

/-- From d to e only frame f has changed, to y. -/
def FrameBecomes (d e : Dev) (f : Nat) (y : Frame) : Prop :=
  e = { d with prs := { d.prs with frames := d.prs.frames.map fun z => if z.id = f then y else z } }

/-- Frame x after the parse word w, but for what its body does: one slot used, its loop and depth marks counted, the next word at pc. -/
def stepParse (x : Frame) (w : PWord) (pc : Nat) : Frame :=
  { x with parse := { x.parse with pc := pc, slots := x.parse.slots + 1, loops := x.parse.loops + w.get 109 109, depth := x.parse.depth + w.get 108 108 } }

/-- The command path of slice sl is free and the slice is in service, in Standby or Active; td is table t of the slice, with operation op allowed
(R176, R179, R180). -/
def TableFree (d : Dev) (sl t op : Nat) (td : TDesc) : Prop :=
  d.up = true ∧ sl < 32 ∧ t < 64 ∧ d.tblTaken sl = false ∧ d.sliceOn sl = true ∧ d.sliceHeld sl = false ∧ td = d.tdesc sl t ∧ td.allows op = true

/-- The command of slice sl has completed with this result code (R176). -/
def Answered (d : Dev) (sl code : Nat) : Prop := d.fbit F.TBL_CMD.BUSY [sl] = false ∧ d.fget F.TBL_CMD.RESULT [sl] = code

/-- Every byte of table memory outside the n bytes from address lo of slice sl reads as before. -/
def MemSame (sl lo n : Nat) (d e : Dev) : Prop :=
  ∀ a, (a < sl * 4194304 + lo ∨ sl * 4194304 + lo + n ≤ a) → mget 0 e.tmem a = mget 0 d.tmem a

/-- The registers of slice sl's command path. -/
def cmdRegs (sl : Nat) : List (RegName × List Nat) := (.TBL_CMD, [sl]) :: (List.range 8).map fun j => (.TBL_DATA, [sl, j])

/-- Frame x, whose identity is f, is whole and of one cell and stands at admission with nothing holding it. It asks for one copy, to queue q of port
p; no boundary field pends; it is neither mirrored nor dropped already nor shed, and its colour is green. -/
def AtAdmission (d : Dev) (f : Nat) (x : Frame) (p q : Nat) : Prop :=
  d.active = true ∧ p < 1024 ∧ x.port < 1024 ∧ d.frame? f = some x ∧ d.canAdmit x = true ∧ x.ended = true ∧ 0 < x.bytes.length ∧ x.bytes.length ≤ 256 ∧ x.cells = 0 ∧
    d.copySet x = [(p, q)] ∧ d.inForce = [] ∧ x.mir = none ∧ x.vec.dropped = false ∧ bitN d.fabric.shedMask q = false ∧
    Disp.fget x.vec.disp 4 = 0 ∧ ∀ c ∈ d.buf.copies, c.fid ≠ some f

/-- Every cell that is not free is charged to a pool and a priority group that exist. -/
def CellsNamed (d : Dev) : Prop := ∀ x ∈ d.buf.cells, x.2.pool < 4 ∧ ∀ g, x.2.pg = some g → g < 8192

/-- Domain message m of type typ reaches a domain link of a device that takes part in its domain, in the right form, from another device, and not seen
before (R355, R356). -/
def Heard (d : Dev) (typ : Nat) (m : DomRx) : Prop :=
  d.up = true ∧ d.fabEn = true ∧ m.port ∈ d.domainLinks ∧ domFormatOk m = true ∧ m.typ = typ ∧ m.domain = d.fget F.FAB_CTL.DOMAIN [] ∧ m.origin ≠ d.uid ∧
    ∀ x, d.lastSeqOf m.origin = some x → seqAbove m.seq x.1 = true

/-- The claim of charge in a message wins over the one that the device follows or makes: it follows none yet, the TERM is higher, or it is equal and the UID
no higher (R363). -/
def Prevails (d : Dev) (m : DomRx) : Prop :=
  d.mgrUid = 0 ∨ d.fget F.FAB_STATUS.TERM [] < m.term ∨ (m.term = d.fget F.FAB_STATUS.TERM [] ∧ m.origin ≤ d.mgrUid)

/-- The domain message that the device would originate now, of this type, direction and payload, on all its domain links (R354, R356). -/
def ownMessage (d : Dev) (typ : Nat) (tomgr : Bool) (payload : List Byte) : DomMsg :=
  { typ := typ, hops := 15, tomgr := tomgr, origin := d.uid, term := d.fget F.FAB_STATUS.TERM [], seq := d.fabSeq, ports := d.domainLinks, payload := payload }

/-- The exact-match memory of all slices is in its canonical form. -/
abbrev Memory.wf (m : List Host.Cell) : Bool := mwf 0 m

/-- What a run must keep: table memory in canonical form. -/
def Inv (s : State) : Prop := Memory.wf s.dev.tmem = true

/-- Fuses go one way (R124): no revoked slot comes back, the rollback counter never falls, the deadbolt stays blown, and the slots'
keys and the device's identity stay as they are. -/
def FusesGrow (a b : Fuses) : Prop :=
  (∀ i, a.revoked.getLsbD i = true → b.revoked.getLsbD i = true) ∧ a.rollback ≤ b.rollback ∧ (a.deadbolt = true → b.deadbolt = true) ∧
    b.uid = a.uid ∧ b.programmed = a.programmed ∧ b.keyHash = a.keyHash ∧ b.xoNom = a.xoNom

/-- A safe step: it answers a next state, the canonical form holds in it, and its fuses have only grown. -/
def SafeStep (s : State) : Prop := ∃ t, step s = .next t ∧ Inv t ∧ FusesGrow s.dev.fuses t.dev.fuses

end Sys2Proof.Safety
end

