-- ==== Sys2Proof/Certificates/Slice0/Obligations.lean ====
section
/-! DEFINITION. The statements about the machine, each a proposition of its own. -/

open Sys2Proof Sys2Proof.Machine Sys2Proof.Safety

/-! ### The block as a machine: the queue, steps, reset -/

/-- A step takes the command at the front of the queue and runs it on the rest of the queue. With no command waiting the block idles: the step
answers the same state (the model's choice, log entry 1). -/
def Obligations.StepRunsFrontCommand : Prop :=
  (∀ (c : Instr) (rest : List Instr) (d : Dev), step { pending := c :: rest, dev := d } = exec c { pending := rest, dev := d }) ∧
  (∀ d : Dev, step { pending := [], dev := d } = .next { pending := [], dev := d })

/-- No word spells a command, since the table gives no row any bits: decodeTableWord answers none for every word and withFetchWord leaves
the state. -/
def Obligations.NoWordSpellsACommand : Prop :=
  ∀ (n w : Nat) (s : State), decodeTableWord n w = none ∧ s.withFetchWord n w = s

/-- No command adds to the queue or takes from it: whenever exec answers a next state, the commands that wait are the same. -/
def Obligations.ExecKeepsTheQueue : Prop := ∀ (c : Instr) (s t : State), exec c s = .next t → t.pending = s.pending

/-- The state after reset is the one that POWER_UP and then PORESET_N bring about from Off: device state Standby, boot ROM in XO_CHECK, nothing
queued, table memory empty and so in canonical form, and the CTL_MAC addresses R55 gives for a UID of 0 (the model's choice of UID, log entry 5). -/
def Obligations.ResetState : Prop :=
  State.reset.pending = [] ∧ Inv State.reset ∧ State.reset.dev.pwr.dev = .standby ∧ State.reset.dev.img.boot = .xoCheck ∧
  State.reset.dev.tmem = [] ∧ State.reset.dev.counters = [] ∧ State.reset.dev.fget F.GLB_RESET.CAUSE [] = 0 ∧
  State.reset.dev.fget F.CTL_MAC.ADDR [0] = 0x020000000000 ∧ State.reset.dev.fget F.CTL_MAC.ADDR [1] = 0x060000000000 ∧
  State.reset.dev.fget F.CLK_DVFS.CUR [] = 5 ∧ State.reset.dev = (({} : Dev).powerUp).poresetN

/-- Every step keeps table memory in its canonical form: from every state in which no listed byte is 0 and the addresses rise strictly, a
step that answers a next state answers one in which that holds again. -/
def Obligations.StepKeepsTableMemoryCanonical : Prop := ∀ s t : State, Inv s → step s = .next t → Inv t

/-- Over every run, of any length and from any state, and so over every step: once a slot is revoked it stays revoked, once the deadbolt is blown
it stays blown, the rollback counter never falls, and slot keys, UID and crystal frequency never change, whatever the commands. -/
def Obligations.RunsOnlyBlowFuses : Prop :=
  ∀ (n : Nat) (s t : State), core.run n s = .next t → FusesGrow s.dev.fuses t.dev.fuses

/-- Once the deadbolt is blown, STORE_READBACK reads 0 in every data register and raises event 94, in Standby and in Active. -/
def Obligations.DeadboltClosesReadback : Prop :=
  ∀ (s : State) (w : Word) (k : Nat), s.dev.up = true → s.dev.fuses.deadbolt = true → w.getLsbD 63 = true → k < 8 →
    Does (.storeReadback w) s fun d => d.rget .IMG_RDBK_DATA [k] = 0 ∧ Happened d 94

/-! ### Registers, restarts and supplies (chapters 00 and 19) -/

/-- REGISTER_WRITE of an EVT_MASK register, a register of live RW fields: the field takes the low 32 bits, no other register changes, and
nothing is counted. BADLOG and Q fields have statements of their own. -/
def Obligations.RegisterWriteStores : Prop :=
  ∀ (s : State) (sq c a g : Nat) (v : Word), s.dev.up = true → regDecode a = some (.EVT_MASK, [g]) →
    Does (.registerWrite sq c a v) s fun d =>
      d.fget F.EVT_MASK.MASK [g] = v.toNat % 2 ^ 32 ∧ OnlyRegs [(.EVT_MASK, [g])] s.dev d ∧
      d.counters = s.dev.counters ∧ d.inForce = s.dev.inForce ∧ d.tmem = s.dev.tmem

/-- A write of a field of class Q that its block does not accept (here CYC_ANCHOR_SEC while the cycle is not STOPPED and nothing is being
loaded) is dropped: the register keeps its value, GLB_QVIOL records the address and the accessor when it was clear, and event 3 is raised. -/
def Obligations.QuiesceWriteDropped : Prop :=
  ∀ (s : State) (sq c a : Nat) (v : Word), s.dev.up = true → sq < 2 → c < 8 → regDecode a = some (.CYC_ANCHOR_SEC, []) → s.dev.cycState ≠ 0 →
    s.dev.img.boot ≠ .load → s.dev.role ≠ 1 → s.dev.fbit F.GLB_QVIOL.VALID [] = false → wbits v 47 0 ≠ s.dev.fget F.CYC_ANCHOR_SEC.SEC [] →
    Does (.registerWrite sq c a v) s fun d =>
      d.rget .CYC_ANCHOR_SEC [] = s.dev.rget .CYC_ANCHOR_SEC [] ∧ d.fbit F.GLB_QVIOL.VALID [] = true ∧
      d.fget F.GLB_QVIOL.SEQ [] = sq ∧ d.fget F.GLB_QVIOL.CONTEXT [] = c ∧ d.fget F.GLB_QVIOL.ADDR [] = RegName.addr .CYC_ANCHOR_SEC [] ∧
      Happened d 3

/-- B_FIELD_TAKES_EFFECT and QVIOL_CLEAR, in Standby and Active. The boundary of a register outside the learning settings: its values in force
become the values most recently written, no other register's pending values change, and nothing else changes. The clear: VALID and OVERRUN
read 0, and no other register changes. -/
def Obligations.BoundaryAndViolationClear : Prop :=
  (∀ (s : State) (a : Nat) (n : RegName) (ix : List Nat), s.dev.up = true → regDecode a = some (n, ix) → n.addr ix < 0x4000000000 →
    Does (.bFieldTakesEffect a) s fun d => d = s.dev.applyB n ix ∧ d.rforce n ix = s.dev.rget n ix) ∧
  (∀ s : State, s.dev.up = true →
    Does .qviolClear s fun d => d.fget F.GLB_QVIOL.VALID [] = 0 ∧ d.fget F.GLB_QVIOL.OVERRUN [] = 0 ∧
      d.fget F.GLB_QVIOL.ADDR [] = s.dev.fget F.GLB_QVIOL.ADDR [] ∧ OnlyRegs [(.GLB_QVIOL, [])] s.dev d ∧ d.cyc = s.dev.cyc ∧ d.counters = s.dev.counters)

/-- PORESET_N low for at least 1 µs with VDD_AON present is a cold restart: device time and fabric time return to 0, the counters are zeroed
under a new CNT_GEN, CAUSE reads 1 (0 where the release ends a power-up), ROLE is the strap, the stores and table memory are empty, and only
fuses and the milestone record survive. RESET_N low for at least 1 µs in Standby or Active is a warm restart: time, counters, CNT_GEN and
table memory are kept, CAUSE reads 2 and ROLE is the strap. A pulse below 100 ns changes nothing but the time. -/
def Obligations.ResetPins : Prop :=
  (∀ (s : State) (t w role : Nat), role < 4 → 1000 ≤ w → s.dev.pwr.supplies.contains .aon = true →
    Does (.poresetN t w role) s fun d =>
      d.now = 0 ∧ d.fab = 0 ∧ d.counters = [] ∧ d.cntGen = s.dev.freeCtr ∧ d.tmem = [] ∧ d.csq.store = [] ∧ d.prs.store = [] ∧ d.mat.store = [] ∧
      d.fuses = s.dev.fuses ∧ d.ageRec = s.dev.ageRec ∧ d.pwr.dev = .standby ∧
      d.fget F.GLB_RESET.CAUSE [] = (if s.dev.pwr.fresh then 0 else 1) ∧ d.fget F.GLB_PROFILE.ROLE [] = role) ∧
  (∀ (s : State) (t w role : Nat), role < 4 → 1000 ≤ w → s.dev.up = true → s.dev.pwr.fresh = false →
    Does (.resetN t w role false) s fun d =>
      d.now = max s.dev.now t ∧ d.counters = s.dev.counters ∧ d.cntGen = s.dev.cntGen ∧ d.tmem = s.dev.tmem ∧ d.pwr.dev = .standby ∧
      d.fget F.GLB_RESET.CAUSE [] = 2 ∧ d.fget F.GLB_PROFILE.ROLE [] = role) ∧
  (∀ (s : State) (t w role : Nat), w < 100 → s.dev.pwr.fresh = false →
    Does (.resetN t w role false) s fun d => d = s.dev.advanceTo t)

/-- SOFTWARE_RESTART by a running admin routine is a warm restart with CAUSE 3 that samples ROLE; table memory and the counters stay. POWER_UP
brings up every supply and samples ROLE. In Standby or Active the loss of VDD_AON takes the device to Off: registers, counters and table memory
are lost, fuses stay. In Rest, with every other rail gone, so does its removal. TEST_ACCESS_INSTRUCTION of a standard instruction selects it. -/
def Obligations.SupplyAndRestartCommands : Prop :=
  (∀ (s : State) (sq c role : Nat), role < 4 → s.dev.up = true → (s.dev.ctx sq c).running = true → 2 ≤ (s.dev.ctx sq c).priv →
    Does (.softwareRestart sq c role) s fun d =>
      d.now = s.dev.now ∧ d.counters = s.dev.counters ∧ d.tmem = s.dev.tmem ∧ d.pwr.dev = .standby ∧
      d.fget F.GLB_RESET.CAUSE [] = 3 ∧ d.fget F.GLB_PROFILE.ROLE [] = role) ∧
  (∀ (s : State) (t role : Nat), s.dev.pwr.dev ≠ .rest →
    Does (.powerUp t role) s fun d =>
      d.pwr.supplies = Supply.all ∧ d.pins.role = BitVec.ofNat 2 role ∧ d.regs = s.dev.regs ∧ d.tmem = s.dev.tmem) ∧
  (∀ (s : State) (t : Nat), s.dev.up = true → s.dev.pwr.supplies.contains .aon = true →
    Does (.supplyLoss t 0) s fun d =>
      d.pwr.dev = .off ∧ d.pwr.supplies = [] ∧ d.regs = [] ∧ d.counters = [] ∧ d.tmem = [] ∧ d.fuses = s.dev.fuses) ∧
  (∀ (s : State) (t : Nat), s.dev.pwr.dev = .rest → s.dev.pwr.supplies = [.aon] →
    Does (.supplyRemoval t 0) s fun d => d.pwr.dev = .off ∧ d.pwr.supplies = [] ∧ d.regs = [] ∧ d.tmem = [] ∧ d.fuses = s.dev.fuses) ∧
  (∀ (s : State) (k : Nat), k < 3 →
    Does (.testAccessInstruction k) s fun d => d = { s.dev with pins := { s.dev.pins with jtag := k } })

/-! ### Fabric time and the cycle (chapter 02) -/

/-- READ_TIM_NOW_SEC puts SEC into G[rd] of the reading context and latches NS and FRAC of that instant for it; READ_CYC_NOW_NUM puts the cycle
number there and latches phase, with bit 32 set (and phase 0) while phase is invalid. Neither changes another context or anything else. -/
def Obligations.ClockReadsLatch : Prop :=
  (∀ (s : State) (sq c rd : Nat), s.dev.up = true →
    Does (.readTimNowSec sq c rd) s fun d =>
      d = s.dev.ctxMod sq c fun x => { x with g := x.g.set rd (BitVec.ofNat 64 (tSec s.dev.fab)),
                                              nsf := BitVec.ofNat 64 (tNs s.dev.fab * 2 ^ 16 + tFrac s.dev.fab) }) ∧
  (∀ (s : State) (sq c rd : Nat), s.dev.up = true → s.dev.phaseValid = true →
    Does (.readCycNowNum sq c rd) s fun d =>
      d = s.dev.ctxMod sq c fun x => { x with g := x.g.set rd (BitVec.ofNat 64 s.dev.cycNum), phase := BitVec.ofNat 64 s.dev.phase }) ∧
  (∀ (s : State) (sq c rd : Nat), s.dev.up = true → s.dev.phaseValid = false →
    Does (.readCycNowNum sq c rd) s fun d =>
      d = s.dev.ctxMod sq c fun x => { x with g := x.g.set rd (BitVec.ofNat 64 s.dev.cyc.num), phase := BitVec.ofNat 64 (2 ^ 32) })

/-- The DPLL and its sources. SERVO_DISABLE takes a running DPLL to FREERUN with event 96, and event 98 where it was LOCKED. A source that
qualifies joins the qualified kinds, and a list with no selection selects its best entry. A wait-to-restore time that has run out for the
frequency list selects its best entry. A selected source of the frequency list that is lost raises event 97 and is no longer qualified. Ten
seconds in ACQUIRE without a phase source lock the DPLL at the correction reached; 1 s of offset loss takes it back to ACQUIRE; 60 s LOCKED
set HISTORY. -/
def Obligations.DpllMoves : Prop :=
  (∀ s : State, s.dev.up = true → s.dev.fget F.TIM_STATUS.DPLL_STATE [] ≠ 0 →
    Does .servoDisable s fun d =>
      d.fbit F.TIM_CTL.SERVO_EN [] = false ∧ d.fget F.TIM_STATUS.DPLL_STATE [] = 0 ∧ Happened d 96 ∧
      (s.dev.fget F.TIM_STATUS.DPLL_STATE [] = 2 → Happened d 98) ∧ OnlyRegsAndEvents [(.TIM_CTL, []), (.TIM_STATUS, [])] s.dev d ∧ d.cyc = s.dev.cyc) ∧
  (∀ (s : State) (t kind : Nat), s.dev.up = true → s.dev.fbit F.TIM_CTL.SERVO_EN [] = false → s.dev.fget F.TIM_STATUS.FSEL [] = 7 →
    s.dev.fget F.TIM_STATUS.PSEL [] = 7 →
    Does (.sourceQualifies t kind) s fun d =>
      kind ∈ d.tim.qual ∧ d.fget F.TIM_STATUS.FSEL [] = d.bestEntry d.freqEntry ∧ d.fget F.TIM_STATUS.PSEL [] = d.bestEntry d.phaseEntry ∧
      OnlyRegs [(.TIM_STATUS, [])] s.dev d) ∧
  (∀ (s : State) (t t0 : Nat), s.dev.up = true → s.dev.fbit F.TIM_SRC.REVERT [] = true → s.dev.tim.wtrF = some t0 → s.dev.tim.wtrP = none →
    t0 + sec (60 * s.dev.fget F.TIM_SRC.WTR []) ≤ max s.dev.now t →
    Does (.waitToRestoreExpiry t) s fun d =>
      d.tim.wtrF = none ∧ d.fget F.TIM_STATUS.FSEL [] = d.bestEntry d.freqEntry ∧ OnlyRegs [(.TIM_STATUS, [])] s.dev d) ∧
  (∀ (s : State) (t kind : Nat), s.dev.up = true → 3 ≤ kind → s.dev.fget F.TIM_STATUS.FSEL [] < 4 →
    s.dev.freqEntry (s.dev.fget F.TIM_STATUS.FSEL []) = kind →
    Does (.sourceLost t kind) s fun d =>
      kind ∉ d.tim.qual ∧ Happened d 97 ∧ OnlyRegsAndEvents [(.TIM_STATUS, [])] s.dev d ∧ d.cyc = s.dev.cyc) ∧
  (∀ (s : State) (t adj : Nat), s.dev.up = true → s.dev.fget F.TIM_STATUS.DPLL_STATE [] = 1 → s.dev.fget F.TIM_STATUS.PSEL [] = 7 →
    s.dev.tim.dpllSince + sec 10 ≤ max s.dev.now t →
    Does (.dpllLock t adj) s fun d =>
      d.fget F.TIM_STATUS.DPLL_STATE [] = 2 ∧ d.fget F.TIM_FREQ.ADJ [] = adj % 2 ^ 40 ∧ Happened d 96 ∧ d.tim.dpllSince = max s.dev.now t ∧
      OnlyRegsAndEvents [(.TIM_STATUS, []), (.TIM_FREQ, [])] s.dev d) ∧
  (∀ (s : State) (t t0 : Nat), s.dev.up = true → s.dev.fget F.TIM_STATUS.DPLL_STATE [] = 2 → s.dev.tim.offSince = some t0 →
    t0 + sec 1 ≤ max s.dev.now t →
    Does (.dpllOffsetLoss t) s fun d =>
      d.fget F.TIM_STATUS.DPLL_STATE [] = 1 ∧ Happened d 96 ∧ OnlyRegsAndEvents [(.TIM_STATUS, [])] s.dev d) ∧
  (∀ (s : State) (t : Nat), s.dev.up = true → s.dev.fget F.TIM_STATUS.DPLL_STATE [] = 2 → s.dev.tim.dpllSince + sec 60 ≤ max s.dev.now t →
    Does (.holdoverHistoryValid t) s fun d =>
      d.fget F.TIM_STATUS.HISTORY [] = 1 ∧ d.fget F.TIM_STATUS.DPLL_STATE [] = 2 ∧ OnlyRegs [(.TIM_STATUS, [])] s.dev d)

/-- Steps, slews, calibration and outputs of fabric time. A TIM_ADJ write with GO while the servo is off: MODE 1 steps fabric time by OFFSET
at once (counted, event 100) and MODE 0 starts a slew of OFFSET with GO left at 1; the servo running in ACQUIRE or LOCKED refuses it. A slew
with nothing left ends and GO reads 0. A PPS edge while PPS is the selected phase source shows the distance from the second. A calibration
step that departs by more than 100 ps clears CALVALID with event 106. PPS_OUT rises at a second it has not yet shown. -/
def Obligations.TimeAdjustments : Prop :=
  (∀ (s : State) (off : Nat), s.dev.up = true → s.dev.fbit F.TIM_CTL.SERVO_EN [] = false → s.dev.cycState ≠ 2 →
    Does (.timAdjGo 1 off) s fun d =>
      d.fab = ((s.dev.fab : Int) + sext 48 off * 256).toNat ∧ d.tim.slew = none ∧ d.fbit F.TIM_ADJ.GO [] = false ∧
      d.counter (Ct.TIM_STEP_CNT 0) = s.dev.counter (Ct.TIM_STEP_CNT 0) + 1 ∧ Happened d 100 ∧
      OnlyRegsAndEvents [(.TIM_ADJ, [])] s.dev d ∧ d.cyc = s.dev.cyc) ∧
  (∀ (s : State) (off : Nat), s.dev.up = true → s.dev.fbit F.TIM_CTL.SERVO_EN [] = false →
    Does (.timAdjGo 0 off) s fun d =>
      d.tim.slew = some (sext 48 off * 256) ∧ d.fab = s.dev.fab ∧ d.fbit F.TIM_ADJ.GO [] = true ∧ OnlyRegs [(.TIM_ADJ, [])] s.dev d ∧
      d.counters = s.dev.counters) ∧
  (∀ (s : State) (mode off : Nat), s.dev.up = true → s.dev.fbit F.TIM_CTL.SERVO_EN [] = true →
    s.dev.fget F.TIM_STATUS.DPLL_STATE [] = 1 ∨ s.dev.fget F.TIM_STATUS.DPLL_STATE [] = 2 →
    Does (.timAdjGo mode off) s fun d =>
      d.fab = s.dev.fab ∧ d.tim = s.dev.tim ∧ Happened d 107 ∧ OnlyRegsAndEvents [] s.dev d ∧
      d.counter (Ct.TIM_ADJ_REFUSED 0) = s.dev.counter (Ct.TIM_ADJ_REFUSED 0) + 1) ∧
  (∀ (s : State) (t : Nat), s.dev.up = true → t ≤ s.dev.now → s.dev.tim.slew = some 0 →
    Does (.slewEnd t) s fun d => d.tim.slew = none ∧ d.fbit F.TIM_ADJ.GO [] = false ∧ d.fab = s.dev.fab ∧ OnlyRegs [(.TIM_ADJ, [])] s.dev d) ∧
  (∀ (s : State) (t : Nat), s.dev.up = true → s.dev.fget F.TIM_STATUS.PSEL [] < 4 → s.dev.phaseEntry (s.dev.fget F.TIM_STATUS.PSEL []) = 4 →
    s.dev.fbit F.TIM_CTL.SERVO_EN [] = false →
    Does (.ppsInEdge t) s fun d =>
      d.fget F.TIM_STATUS.OFFSET [] = unsext 32 ((s.dev.advanceTo t).secondOffset) % 2 ^ 32 ∧ d.fab = (s.dev.advanceTo t).fab ∧
      OnlyRegs [(.TIM_STATUS, [])] s.dev d) ∧
  (∀ (s : State) (t sl : Nat) (dev : Int), s.dev.up = true → s.dev.precision = true → mget? s.dev.tim.calAt sl = none → 100 < dev.natAbs →
    Does (.calibrationStep t sl dev) s fun d =>
      d.fget F.TIM_STATUS.CALVALID [] = 0 ∧ Happened d 106 ∧ mget? d.tim.calAt sl = some (max s.dev.now t) ∧
      d.tim.calCorr = s.dev.tim.calCorr ∧ OnlyRegsAndEvents [(.TIM_STATUS, [])] s.dev d) ∧
  (∀ (s : State) (t : Nat), s.dev.up = true → t ≤ s.dev.now → s.dev.fbit F.TIM_CTL.PPS_OUT_EN [] = true → s.dev.fget F.TIM_CTL.PPS_COMP [] = 0 →
    s.dev.tim.ppsSec < s.dev.fab / sec 1 →
    Does (.ppsOutPulse t) s fun d =>
      d.tim.ppsSec = s.dev.fab / sec 1 ∧ d.tim.ppsUntil = s.dev.now + us (2 ^ min 18 (s.dev.fget F.TIM_CTL.PPS_WIDTH [])) ∧ d.regs = s.dev.regs)

/-- PTP messages. A two-step Sync of the engine's domain that reaches an enabled port in SLAVE state is used: its origin time and correction are
kept as t1 and its corrected arrival as t2, and no register changes. For a port in MASTER state whose Sync is due, the engine puts a frame of the
device's own on the queue that the command names. -/
def Obligations.PtpMessages : Prop :=
  (∀ (s : State) (t p q best : Nat) (msg : List Byte), s.dev.up = true → s.dev.fbit F.TIM_PORT.EN [p] = true → 44 ≤ msg.length →
    beNat (slice msg 4 1) = s.dev.fget F.TIM_PTP_CLOCK.DOMAIN [] → beNat (slice msg 0 1) % 16 = 0 → s.dev.ptpState p = 9 →
    bitN (beNat (slice msg 6 2)) 9 = true →
    Does (.ptpMessageRx t p q best msg) s fun d =>
      (d.ptpPort p).t1 = ptpTime msg + ptpCorr msg ∧
      (d.ptpPort p).t2 = (tStamp (s.dev.advanceTo t).fab : Int) + sext 32 (s.dev.fgetB F.TIM_TSCORR.ING [p]) * 256 ∧
      (∀ r, r ≠ p → d.ptpPort r = s.dev.ptpPort r) ∧ d.regs = s.dev.regs ∧ d.buf = s.dev.buf) ∧
  (∀ (s : State) (t p q : Nat), s.dev.up = true → s.dev.fbit F.TIM_PORT.EN [p] = true → s.dev.ptpState p = 6 →
    mget? s.dev.tim.ptpSent (16 * p) = none →
    Does (.ptpMessageTx t p q 0) s fun d =>
      d.buf.copies.length = s.dev.buf.copies.length + 1 ∧
      (d.buf.copies.getLast?.map fun c => (c.port, c.queue, c.domMsg)) = some (p, q, true) ∧ d.regs = s.dev.regs)

/-- Starting and stopping the cycle. RUN = 1 in STOPPED enters WAIT_START; in LOCAL the first boundary lies on the grid of the anchor with the
period in force, no earlier than the anchor and at least 1 µs ahead, and it is the first such; with another source no boundary is computed.
RUN = 0 while the cycle runs waits for the next boundary. REALIGN in RUN parks the unit, counted and with event 101, until a boundary at least
250 ns ahead. -/
def Obligations.CycleStartsAndStops : Prop :=
  (∀ s : State, s.dev.up = true → s.dev.role ≠ 3 → s.dev.cycState = 0 → s.dev.cycSrc ≠ 0 →
    Does .cycleRun s fun d =>
      d.cycState = 1 ∧ d.fbit F.CYC_CTL.RUN [] = true ∧ d.cyc.startAt = none ∧ d.cyc.stopReq = false ∧
      OnlyRegs [(.CYC_CTL, []), (.CYC_STATUS, [])] s.dev d ∧ d.counters = s.dev.counters) ∧
  (∀ s : State, s.dev.up = true → s.dev.role ≠ 3 → s.dev.cycState = 0 → s.dev.cycSrc = 0 →
    Does .cycleRun s fun d =>
      let anchor := (sec (s.dev.fget F.CYC_ANCHOR_SEC.SEC []) + ns (s.dev.fget F.CYC_ANCHOR_NSF.NS []) + s.dev.fget F.CYC_ANCHOR_NSF.FRAC []) * 65536
      d.cycState = 1 ∧ d.fbit F.CYC_CTL.RUN [] = true ∧
      d.cyc.per = perOf (periodOf (s.dev.rget .CYC_PERIOD [])) (s.dev.fget F.CYC_PERIOD.STRETCH []) ∧
      (∃ b, d.cyc.startAt = some b ∧ anchor ≤ b ∧ (s.dev.fab + us 1) * 65536 ≤ b ∧ d.cyc.per ∣ b - anchor ∧
        b < max anchor ((s.dev.fab + us 1) * 65536) + d.cyc.per ∧ d.cyc.startNum = (b - anchor) / d.cyc.per % 2 ^ 48) ∧
      OnlyRegs [(.CYC_CTL, []), (.CYC_STATUS, [])] s.dev d) ∧
  (∀ s : State, s.dev.up = true → 2 ≤ s.dev.cycState →
    Does .cycleStop s fun d =>
      d.cyc = { s.dev.cyc with stopReq := true } ∧ d.fbit F.CYC_CTL.RUN [] = false ∧ OnlyRegs [(.CYC_CTL, [])] s.dev d) ∧
  (∀ s : State, s.dev.up = true → s.dev.cycState = 2 → s.dev.cyc.per ≠ 0 →
    Does .realign s fun d =>
      d.cycState = 3 ∧ Happened d 101 ∧ d.cyc.carry = [] ∧ ∃ b, d.cyc.startAt = some b ∧ (s.dev.fab + ns 250) * 65536 ≤ b)

/-- Boundaries. In RUN and LOCAL or DOMAIN, a boundary that has come starts the next cycle one period on, its number one higher modulo 2^48; a stop
that waited for it stops the unit there instead. An accepted CYCLE_IN edge is a boundary. A missing edge is synthesised at
t_e + T × P_est and adds one to the run of synthesised boundaries. In FLYWHEEL a boundary comes every P_est. -/
def Obligations.CycleBoundaries : Prop :=
  (∀ (s : State) (t : Nat), s.dev.up = true → s.dev.cycState = 2 → s.dev.cycSrc ≠ 2 → s.dev.cyc.per ≠ 0 → s.dev.cyc.stopReq = false →
    s.dev.cyc.base + s.dev.cyc.per ≤ (s.dev.advanceTo t).fab * 65536 →
    Does (.cycleBoundary t) s fun d =>
      d.cyc.base = s.dev.cyc.base + s.dev.cyc.per ∧ d.cyc.num = (s.dev.cyc.num + 1) % 2 ^ 48 ∧ d.fab = (s.dev.advanceTo t).fab) ∧
  (∀ (s : State) (t : Nat), s.dev.up = true → s.dev.cycSrc = 2 → s.dev.cycState = 2 → s.dev.cyc.lastEdge = none → s.dev.cyc.intervals = [] →
    s.dev.cyc.stopReq = false →
    Does (.cycleInEdge t) s fun d =>
      d.cyc.base = (s.dev.advanceTo t).fab * 65536 ∧ d.cyc.num = (s.dev.cyc.num + 1) % 2 ^ 48 ∧
      d.cyc.lastEdge = some (s.dev.advanceTo t).fab ∧ d.cyc.lastReal = true ∧ d.cyc.synth = 0) ∧
  (∀ (s : State) (t : Nat), s.dev.up = true → s.dev.cycSrc = 2 → s.dev.cycState = 2 → s.dev.pEst ≠ 0 → s.dev.cyc.stopReq = false →
    s.dev.cyc.base / 65536 + s.dev.pEst + s.dev.cycTol * s.dev.pEst / 256 ≤ (s.dev.advanceTo t).fab →
    Does (.cycleInMiss t) s fun d =>
      d.cyc.base = (s.dev.cyc.base / 65536 + s.dev.pEst + s.dev.cycTol * s.dev.pEst / 256) * 65536 ∧
      d.cyc.num = (s.dev.cyc.num + 1) % 2 ^ 48 ∧ d.cyc.synth = s.dev.cyc.synth + 1 ∧ d.cyc.lastReal = false) ∧
  (∀ (s : State) (t : Nat), s.dev.up = true → s.dev.cycState = 4 → s.dev.cyc.per ≠ 0 → s.dev.cyc.stopReq = false →
    s.dev.cyc.base + s.dev.cyc.per ≤ (s.dev.advanceTo t).fab * 65536 →
    Does (.flywheelBoundary t) s fun d =>
      d.cyc.base = s.dev.cyc.base + s.dev.cyc.per ∧ d.cyc.num = (s.dev.cyc.num + 1) % 2 ^ 48 ∧ d.cyc.lastReal = false)

/-- The phase table. A COMMIT of a table that none is committing starts the check. A check that finds no bad entry leaves the table checked for the
next boundary while the cycle runs; a bad entry is shown in ERR, ERRKIND and ERRIDX with event 105, and COMMIT reads 0. An entry written while
COMMIT reads 0 goes to the shadow with bit 63 cleared; while it reads 1 it is dropped, counted and raises event 105. On a tick with room, the
one entry left of the cycle, an EMIT whose phase is reached, fires: its event is raised and it does not fire again. -/
def Obligations.PhaseTable : Prop :=
  (∀ s : State, s.dev.up = true → s.dev.fbit F.CYC_PT_CTL.COMMIT [] = false →
    Does .phaseTableCommit s fun d =>
      d.cyc = { s.dev.cyc with checking := true } ∧ d.fbit F.CYC_PT_CTL.COMMIT [] = true ∧ OnlyRegs [(.CYC_PT_CTL, [])] s.dev d) ∧
  (∀ (s : State) (t : Nat), s.dev.up = true → s.dev.cyc.checking = true → s.dev.ptFault = none → s.dev.cycState ≠ 0 →
    Does (.phaseTableCheckDone t) s fun d =>
      d.cyc = { s.dev.cyc with checking := false, checked := true } ∧ d.regs = s.dev.regs) ∧
  (∀ (s : State) (t n k : Nat), s.dev.up = true → s.dev.cyc.checking = true → s.dev.ptFault = some (n, k) →
    Does (.phaseTableCheckDone t) s fun d =>
      d.cyc = { s.dev.cyc with checking := false } ∧ d.fbit F.CYC_PT_CTL.ERR [] = true ∧ d.fget F.CYC_PT_CTL.ERRKIND [] = k ∧
      d.fget F.CYC_PT_CTL.ERRIDX [] = n ∧ d.fbit F.CYC_PT_CTL.COMMIT [] = false ∧ Happened d 105 ∧ OnlyRegsAndEvents [(.CYC_PT_CTL, [])] s.dev d) ∧
  (∀ (s : State) (n : Nat) (w : Word), s.dev.up = true → n < 4096 → s.dev.fbit F.CYC_PT_CTL.COMMIT [] = false →
    Does (.phaseTableEntryWrite n w) s fun d => d.rget .CYC_PT_ENTRY [n] = wput w 63 63 0 ∧ OnlyRegs [(.CYC_PT_ENTRY, [n])] s.dev d ∧ d.cyc = s.dev.cyc) ∧
  (∀ (s : State) (n : Nat) (w : Word), s.dev.up = true → n < 4096 → s.dev.fbit F.CYC_PT_CTL.COMMIT [] = true →
    Does (.phaseTableEntryWrite n w) s fun d =>
      d.counter (Ct.CYC_PT_DROP 0) = s.dev.counter (Ct.CYC_PT_DROP 0) + 1 ∧ Happened d 105 ∧ OnlyRegsAndEvents [] s.dev d ∧ d.cyc = s.dev.cyc) ∧
  (∀ (s : State) (t : Nat), s.dev.up = true → t ≤ s.dev.now → s.dev.phaseValid = true → s.dev.cyc.tick ≠ s.dev.now / 131072 →
    s.dev.cyc.carry = [] → s.dev.cyc.epochs = [] → s.dev.cyc.fired + 1 = s.dev.cyc.activeLen →
    wbits (s.dev.ptActive s.dev.cyc.fired) 62 60 = 4 → wbits (s.dev.ptActive s.dev.cyc.fired) 42 32 < 1536 →
    wbits (s.dev.ptActive s.dev.cyc.fired) 31 0 ≤ s.dev.phase → s.dev.cycElapsed < 131072 * 65536 →
    Does (.phaseEntryFire t) s fun d =>
      d.cyc.fired = d.cyc.activeLen ∧ d.cyc.tickFires = 1 ∧ Happened d (wbits (s.dev.ptActive s.dev.cyc.fired) 42 32) ∧ OnlyRegsAndEvents [] s.dev d)

/-! ### Control ports, discovery and sessions (chapter 03) -/

/-- The control ports. A port that is enabled and gains block lock has LINK 1, raises event 64 and sends one ADVERTISE to the discovery address.
A port that loses it while the other has no link reads LINK 0, with events 64 and 74. An enabled port without link in AUTO changes between
25GBASE-KR and 25GAUI after 500 ms. CTL_CP written with EN = 1 on a disabled port takes every field and starts the search in KR. A MAC control
frame, or one of more than 9,000 B, is counted and discarded. -/
def Obligations.ControlPorts : Prop :=
  (∀ (s : State) (t k : Nat) (fec : Bool), s.dev.up = true → k < 2 → s.dev.fbit F.CTL_CP.EN [k] = true → s.dev.cpLink k = false →
    s.dev.ctl.stopped = [] → s.dev.fbit F.CTL_MSEC.TXEN [k] = false → NothingWaits s.dev →
    Does (.cpLinkUp t k fec) s fun d =>
      d.cpLink k = true ∧ Happened d 64 ∧
      (d.ctl.sent.head?.map fun a => (a.port, a.typ, a.code, a.dst)) = some (k, 1, 1, discoveryMac) ∧ OnlyRegsAndEvents [(.CTL_CP, [k])] s.dev d) ∧
  (∀ (s : State) (t k : Nat), s.dev.up = true → k < 2 → s.dev.cpLink k = true → s.dev.cpLink (1 - k) = false →
    Does (.cpLinkLoss t k) s fun d =>
      d.cpLink k = false ∧ d.fget F.CTL_CP.CUR_MODE [k] = 0 ∧ Happened d 64 ∧ Happened d 74 ∧ OnlyRegsAndEvents [(.CTL_CP, [k])] s.dev d) ∧
  (∀ (s : State) (t k : Nat), s.dev.up = true → k < 2 → s.dev.fbit F.CTL_CP.EN [k] = true → s.dev.cpLink k = false →
    s.dev.fget F.CTL_CP.MODE [k] = 0 → s.dev.ctl.modeSince.getD k 0 + ms 500 ≤ max s.dev.now t →
    Does (.cpModeAlternate t k) s fun d =>
      d.ctl.inKr = lmod s.dev.ctl.inKr k (!·) ∧ d.ctl.modeSince = s.dev.ctl.modeSince.set k (max s.dev.now t) ∧ d.regs = s.dev.regs) ∧
  (∀ (s : State) (sq c k : Nat) (v : Word), s.dev.up = true → k < 2 → s.dev.fbit F.CTL_CP.EN [k] = false → s.dev.cpLink k = false →
    v.getLsbD 63 = true →
    Does (.cpConfigWrite sq c k v) s fun d =>
      d.fbit F.CTL_CP.EN [k] = true ∧ d.fget F.CTL_CP.MODE [k] = wbits v 62 61 ∧ d.fget F.CTL_CP.FEC [k] = wbits v 60 60 ∧
      d.cpLink k = false ∧ d.ctl.inKr = s.dev.ctl.inKr.set k true ∧ d.ctl.modeSince = s.dev.ctl.modeSince.set k s.dev.now ∧
      OnlyRegs [(.CTL_CP, [k])] s.dev d) ∧
  (∀ (s : State) (k len : Nat) (control : Bool), s.dev.up = true → k < 2 → s.dev.cpLink k = true → (control = true ∨ 9000 < len) →
    Does (.cpFrameDiscard k control len) s fun d => d = s.dev.count (Ct.TVX_RX_DISCARD 0) 1)

/-- Discovery. A frame of another version than 1 is discarded, counted and raises event 75. A SOLICIT is answered by ADVERTISE to its sender. An
OPEN for which no reason to refuse holds, and whose TAG was not answered within the second, opens a session that was closed: ACCEPT names it
and event 66 is raised. A CLOSE of an open session closes it with event 66. In ADVERTISING both usable ports send ADVERTISE at the timer. -/
def Obligations.Discovery : Prop :=
  (∀ (s : State) (t : Nat) (f : TvxRx), s.dev.up = true → f.port < 2 → s.dev.cpLink f.port = true → f.dst = discoveryMac → f.sec = 0 →
    s.dev.fbit F.CTL_MSEC.REQUIRE [f.port] = false → f.ver ≠ 1 →
    Does (.tvxMalformed t f) s fun d =>
      d.counter (Ct.TVX_RX_DISCARD 0) = s.dev.counter (Ct.TVX_RX_DISCARD 0) + 1 ∧ Happened d 75 ∧ OnlyRegsAndEvents [] s.dev d ∧
      d.ctl.sent = s.dev.ctl.sent) ∧
  (∀ (s : State) (t : Nat) (f : TvxRx), PlainFrame s.dev f → f.typ = 1 → f.code = 0 → SendsPlainly s.dev f.port →
    Does (.discoverSolicit t f) s fun d =>
      d.ctl.sent = { port := f.port, typ := 1, code := 1, sid := 0xFF, dst := f.src, payload := s.dev.advertisePayload } :: s.dev.ctl.sent ∧
      d.regs = s.dev.regs ∧ d.counters = s.dev.counters) ∧
  (∀ (s : State) (t : Nat) (f : TvxRx), PlainFrame s.dev f → f.typ = 1 → f.code = 2 → 16 ≤ f.len → SendsPlainly s.dev f.port →
    s.dev.ctl.opens = [] → s.dev.openRefusal f = 0 →
    Does (.discoverOpen t f) s fun d =>
      ∃ n < 8, s.dev.sessionOpen n = false ∧ d.sessionOpen n = true ∧ Happened d 66 ∧
        (d.ctl.sent.head?.map fun a => (a.port, a.typ, a.code, a.sid, a.dst)) = some (f.port, 1, 3, n, f.src)) ∧
  (∀ (s : State) (t : Nat) (f : TvxRx), PlainFrame s.dev f → f.typ = 1 → f.code = 4 → s.dev.sessionOpen f.sid = true →
    Does (.discoverClose t f) s fun d => d.sessionOpen f.sid = false ∧ Happened d 66) ∧
  (∀ (s : State) (t k : Nat), s.dev.up = true → s.dev.img.boot = .advertising → s.dev.img.advAt = none → k < 2 →
    SendsPlainly s.dev 0 → SendsPlainly s.dev 1 →
    Does (.advertiseTimer t) s fun d =>
      d.img.advAt = some (max s.dev.now t) ∧ (∃ a ∈ d.ctl.sent, a.port = k ∧ a.typ = 1 ∧ a.code = 1 ∧ a.dst = discoveryMac) ∧
      d.ctl.sent.length = s.dev.ctl.sent.length + 2 ∧ d.regs = s.dev.regs)

/-- What keeps a session going. A HEARTBEAT without acknowledgement notes the time and the host's window. An acknowledgement that has come due
leaves as a HEARTBEAT of CODE 1 that carries the next expected SEQ; a session that has sent nothing for an interval sends one of CODE 0. A timeout
short of RETRIES doubles, at most to 6.4 ms, and keeps the frames. A session without a frame for HB_MISS intervals is lost with event 67, and
TVX_SESSION.CLOSE closes one with event 66. -/
def Obligations.SessionUpkeep : Prop :=
  (∀ (s : State) (t : Nat) (f : TvxRx), PlainFrame s.dev f → f.typ = 7 → f.sid < 8 → s.dev.sessionOpen f.sid = true → f.ackv = false →
    NothingWaits s.dev →
    Does (.heartbeatRx t f) s fun d =>
      d.ctl.sessions = lmod s.dev.ctl.sessions f.sid (fun x => { x with lastRx := max s.dev.now t, hostWin := f.win }) ∧
      d.ctl.sent = s.dev.ctl.sent ∧ d.regs = s.dev.regs) ∧
  (∀ (s : State) (t n a : Nat), s.dev.up = true → n < 8 → (s.dev.session n).ackDue = some a → a ≤ max s.dev.now t →
    SendsPlainly s.dev (s.dev.sessPort n) →
    Does (.ackHeartbeat t n) s fun d =>
      (d.ctl.sent.head?.map fun x => (x.typ, x.code, x.sid, x.ackv, x.ack)) = some (7, 1, n, true, (s.dev.session n).rxNext) ∧
      (d.session n).ackDue = none ∧ (d.session n).unacked = (s.dev.session n).unacked ∧ d.regs = s.dev.regs) ∧
  (∀ (s : State) (t n : Nat), s.dev.up = true → n < 8 → (s.dev.session n).rto ≠ 0 → (s.dev.session n).rtoStart + (s.dev.session n).rto ≤ max s.dev.now t →
    (s.dev.session n).again ≠ [] → (s.dev.session n).retries + 1 < s.dev.fget F.TVX_CTL.RETRIES [] →
    s.dev.fbit F.CTL_MSEC.TXEN [0] = false → s.dev.fbit F.CTL_MSEC.TXEN [1] = false →
    Does (.tvxRetransmit t n) s fun d =>
      (d.session n).retries = (s.dev.session n).retries + 1 ∧ (d.session n).rto = min (us 6400) (2 * (s.dev.session n).rto) ∧
      (d.session n).rtoStart = max s.dev.now t ∧ (d.session n).unacked = (s.dev.session n).unacked ∧ d.regs = s.dev.regs) ∧
  (∀ (s : State) (t n : Nat), s.dev.up = true → s.dev.sessionOpen n = true →
    (s.dev.session n).lastRx + s.dev.hbInt * atLeast1 (s.dev.fget F.TVX_CTL.HB_MISS []) ≤ max s.dev.now t →
    Does (.sessionHeartbeatMiss t n) s fun d => d.sessionOpen n = false ∧ Happened d 67) ∧
  (∀ (s : State) (n : Nat), s.dev.up = true → s.dev.sessionOpen n = true → s.dev.fbit F.CTL_MSEC.TXEN [s.dev.sessPort n] = false →
    Does (.sessionCloseWrite n) s fun d => d.sessionOpen n = false ∧ Happened d 66) ∧
  (∀ (s : State) (t n : Nat), s.dev.up = true → s.dev.sessionOpen n = true → (s.dev.session n).lastTx + s.dev.hbInt ≤ max s.dev.now t →
    SendsPlainly s.dev (s.dev.sessPort n) →
    Does (.heartbeatSend t n) s fun d =>
      (d.ctl.sent.head?.map fun x => (x.port, x.typ, x.code, x.sid)) = some (s.dev.sessPort n, 7, 0, n) ∧ d.regs = s.dev.regs)

/-- What sessions carry. Event records that wait leave, at most 32 in one EVENT frame, when the window is open and the port can send; none of them
being late, the rest stays. The oldest BULK frame leaves when the port's share allows it, and its bytes leave the export buffer. -/
def Obligations.SessionTraffic : Prop :=
  (∀ (s : State) (t n : Nat), s.dev.up = true → n < 8 → s.dev.sessionOpen n = true → (s.dev.session n).evq ≠ [] →
    (s.dev.session n).unacked.length < (s.dev.session n).hostWin → SendsPlainly s.dev (s.dev.sessPort n) →
    (∀ r ∈ (s.dev.session n).evq.take 32, max s.dev.now t ≤ r.raised + us 2) →
    Does (.eventRecordSend t n) s fun d =>
      (d.session n).evq = (s.dev.session n).evq.drop 32 ∧
      (d.ctl.sent.head?.map fun x => (x.typ, x.sid, x.seq, x.payload)) =
        some (5, n, (s.dev.session n).txNext, ((s.dev.session n).evq.take 32).flatMap EvRec.wire) ∧ d.regs = s.dev.regs ∧ d.counters = s.dev.counters) ∧
  (∀ (s : State) (t n : Nat) (f : CpFrame) (rest : List CpFrame), s.dev.up = true → n < 8 → s.dev.sessionOpen n = true →
    (s.dev.session n).bulkq = f :: rest → (s.dev.session n).history = false → (s.dev.session n).unacked.length < (s.dev.session n).hostWin →
    SendsPlainly s.dev (s.dev.sessPort n) → s.dev.ctl.bulkNext.getD (s.dev.sessPort n) 0 ≤ max s.dev.now t →
    Does (.bulkFrameSend t n) s fun d =>
      (d.session n).bulkq = rest ∧ d.ctl.exportUsed = s.dev.ctl.exportUsed - f.payload.length ∧
      (d.ctl.sent.head?.map fun x => (x.typ, x.sid, x.seq, x.payload)) = some (f.typ, n, (s.dev.session n).txNext, f.payload) ∧ d.regs = s.dev.regs)

/-- MACsec keys. CTL_SAK_CMD with GO = 1 and CLEAR = 0 puts the staged key, AN and PN into the slot that the write names and makes it valid; with
CLEAR = 1 it invalidates the slot. Either way GO reads 0 afterwards and the key registers read 0. -/
def Obligations.MacsecKeys : Prop :=
  (∀ (s : State) (w : Word), s.dev.up = true → NothingWaits s.dev → w.getLsbD 63 = true → w.getLsbD 57 = false →
    Does (.sakInstall w) s fun d =>
      let k := wbits w F.CTL_SAK_CMD.PORT.hi F.CTL_SAK_CMD.PORT.lo
      let x := d.sa k (wbits w F.CTL_SAK_CMD.DIR.hi F.CTL_SAK_CMD.DIR.lo) (wbits w F.CTL_SAK_CMD.SA.hi F.CTL_SAK_CMD.SA.lo)
      x.valid = true ∧ x.an = wbits w F.CTL_SAK_CMD.AN.hi F.CTL_SAK_CMD.AN.lo ∧ x.pn = wbits w F.CTL_SAK_CMD.PN.hi F.CTL_SAK_CMD.PN.lo ∧
      x.key = (List.range 4).map (fun j => s.dev.rget .CTL_SAK_KEY [j]) ∧ d.fbit F.CTL_SAK_CMD.GO [] = false ∧
      (∀ j < 4, d.rget .CTL_SAK_KEY [j] = 0) ∧ d.counters = s.dev.counters) ∧
  (∀ (s : State) (w : Word), s.dev.up = true → NothingWaits s.dev → w.getLsbD 63 = true → w.getLsbD 57 = true →
    Does (.sakClear w) s fun d =>
      let k := wbits w F.CTL_SAK_CMD.PORT.hi F.CTL_SAK_CMD.PORT.lo
      (d.sa k (wbits w F.CTL_SAK_CMD.DIR.hi F.CTL_SAK_CMD.DIR.lo) (wbits w F.CTL_SAK_CMD.SA.hi F.CTL_SAK_CMD.SA.lo)).valid = false ∧
      d.fbit F.CTL_SAK_CMD.GO [] = false ∧ (∀ j < 4, d.rget .CTL_SAK_KEY [j] = 0) ∧ d.counters = s.dev.counters)

/-- A COMMAND that arrives whole in one frame with the SEQ that its session expects, for a context in service. RUN on an idle context starts it at
its region's BASE + ENTRY with G0 and G1 as given; LOAD_RUN also loads one word. ABORT of a routine that runs between its safe points is kept until
the next of them. Every other context stays as it was. -/
def Obligations.Commands : Prop :=
  (∀ (s : State) (t : Nat) (f : TvxRx) (bytes : List Byte), PlainFrame s.dev f → f.typ = 3 → s.dev.sessionOpen f.sid = true → NothingWaits s.dev →
    f.seq = (s.dev.session f.sid).rxNext → f.ackv = false → f.more = false → (s.dev.session f.sid).cmdBytes = [] →
    bytes = f.payload.take f.len → bytes.length = 32 → (bytes.getD 0 0).toNat = 1 → beNat (slice bytes 12 4) = 0 →
    (s.dev.precision = true → s.dev.seqInService (s.dev.sessSeq f.sid) = true) →
    (s.dev.ctx (s.dev.sessSeq f.sid) f.sid).running = false →
    beNat (slice bytes 4 4) < s.dev.regionLen (s.dev.sessSeq f.sid) f.sid → beNat (slice bytes 8 4) ≤ s.dev.regionLen (s.dev.sessSeq f.sid) f.sid →
    Does (.run t f) s fun d =>
      d.csq.ctxs = lmod s.dev.csq.ctxs (ctxIx (s.dev.sessSeq f.sid) f.sid) (fun x =>
        { x with st := .ready, pc := BitVec.ofNat 16 (s.dev.regionBase (s.dev.sessSeq f.sid) f.sid + beNat (slice bytes 4 4)),
                 g := (x.g.set 0 (beWord bytes 2)).set 1 (beWord bytes 3), rstack := [], hen := false, inh := none, since := 0, icount := 0,
                 tag := if (s.dev.session f.sid).cmdFrames = 0 then f.tag else (s.dev.session f.sid).cmdTag,
                 sid := f.sid, priv := s.dev.fget F.TVX_SESSION.PRIV [f.sid], wait := none, resumeDeadline := none, xport := none,
                 aborts := [], ending := false }) ∧
      d.csq.store = s.dev.csq.store ∧ d.ctl.sent = s.dev.ctl.sent) ∧
  (∀ (s : State) (t : Nat) (f : TvxRx) (bytes : List Byte), PlainFrame s.dev f → f.typ = 3 → s.dev.sessionOpen f.sid = true → NothingWaits s.dev →
    f.seq = (s.dev.session f.sid).rxNext → f.ackv = false → f.more = false → (s.dev.session f.sid).cmdBytes = [] →
    bytes = f.payload.take f.len → bytes.length = 40 → (bytes.getD 0 0).toNat = 0 → beNat (slice bytes 12 4) = 1 →
    (s.dev.precision = true → s.dev.seqInService (s.dev.sessSeq f.sid) = true) →
    (s.dev.ctx (s.dev.sessSeq f.sid) f.sid).running = false →
    beNat (slice bytes 4 4) < s.dev.regionLen (s.dev.sessSeq f.sid) f.sid → beNat (slice bytes 8 4) < s.dev.regionLen (s.dev.sessSeq f.sid) f.sid →
    Does (.loadRun t f) s fun d =>
      let sq := s.dev.sessSeq f.sid
      mget 0 d.csq.store (sq * 65536 + (s.dev.regionBase sq f.sid + beNat (slice bytes 8 4)) % 65536) = beWord (bytes.drop 32) 0 ∧
      (∀ k, ctxIx sq f.sid ≠ k → d.csq.ctxs[k]? = s.dev.csq.ctxs[k]?) ∧
      (∀ x, d.csq.ctxs[ctxIx sq f.sid]? = some x →
        x.st = .ready ∧ x.pc = BitVec.ofNat 16 (s.dev.regionBase sq f.sid + beNat (slice bytes 4 4)) ∧ x.sid = f.sid) ∧
      d.ctl.sent = s.dev.ctl.sent) ∧
  (∀ (s : State) (t : Nat) (f : TvxRx) (bytes : List Byte), PlainFrame s.dev f → f.typ = 3 → s.dev.sessionOpen f.sid = true → NothingWaits s.dev →
    f.seq = (s.dev.session f.sid).rxNext → f.ackv = false → f.more = false → (s.dev.session f.sid).cmdBytes = [] →
    (s.dev.session f.sid).cmdFrames = 0 → bytes = f.payload.take f.len → bytes.length = 32 → (bytes.getD 0 0).toNat = 2 →
    beNat (slice bytes 12 4) = 0 → (s.dev.precision = true → s.dev.seqInService (s.dev.sessSeq f.sid) = true) →
    (s.dev.ctx (s.dev.sessSeq f.sid) f.sid).st = .ready →
    Does (.abort t f) s fun d =>
      d.csq.ctxs = lmod s.dev.csq.ctxs (ctxIx (s.dev.sessSeq f.sid) f.sid) (fun x => { x with aborts := f.tag :: x.aborts }) ∧
      d.csq.store = s.dev.csq.store ∧ d.ctl.sent = s.dev.ctl.sent)

/-! ### The sequencers (chapter 04) -/

/-- ALU, MOVI, MOVHI, BFX and BFI write the register RD alone, with the result R84, R90 and R91 give; operand B is the immediate with FN[38] = 1. -/
def Obligations.SequencerArithmetic : Prop :=
  (∀ (s : State) (t sq c : Nat) (w : Word), Issues s.dev sq c 0x08 w →
    let a := (s.dev.ctx sq c).g.getD (iRa w) 0
    let b := if w.getLsbD 38 then BitVec.signExtend 64 (w.setWidth 32) else (s.dev.ctx sq c).g.getD (iRb w) 0
    let k := (w >>> 32).toNat % 16
    ∃ v : Word, (k = 0 → v = a + b) ∧ (k = 1 → v = a - b) ∧ (k = 2 → v = a &&& b) ∧ (k = 3 → v = a ||| b) ∧ (k = 4 → v = a ^^^ b) ∧
      (k = 5 → v = a <<< (b.toNat % 64)) ∧ (k = 6 → v.toNat = a.toNat / 2 ^ (b.toNat % 64)) ∧
      (k = 7 → v = a.sshiftRight (b.toNat % 64)) ∧
      (k = 8 → v.toNat = a.toNat * b.toNat % 2 ^ 64) ∧ (k = 9 → v.toNat = a.toNat * b.toNat / 2 ^ 64) ∧
      (k = 10 → v.toNat = if b = 0 then 2 ^ 64 - 1 else a.toNat / b.toNat) ∧ (k = 11 → v.toNat = a.toNat % b.toNat) ∧
      (k = 12 → v.toNat = min a.toNat b.toNat) ∧ (k = 13 → v.toNat = max a.toNat b.toNat) ∧ (k = 14 → v = b) ∧ k < 15 ∧
      Does (.alu t sq c 0) s fun d => Retires (s.dev.advanceTo t) d sq c (setG (iRd w) v)) ∧
  (∀ (s : State) (t sq c : Nat) (w : Word), Issues s.dev sq c 0x09 w →
    Does (.movi t sq c 0) s fun d => Retires (s.dev.advanceTo t) d sq c (setG (iRd w) (BitVec.signExtend 64 (w.setWidth 32)))) ∧
  (∀ (s : State) (t sq c : Nat) (w : Word), Issues s.dev sq c 0x0A w →
    ∃ v : Word, v.toNat = w.toNat % 2 ^ 32 * 2 ^ 32 + ((s.dev.ctx sq c).g.getD (iRd w) 0).toNat % 2 ^ 32 ∧
      Does (.movhi t sq c 0) s fun d => Retires (s.dev.advanceTo t) d sq c (setG (iRd w) v)) ∧
  (∀ (s : State) (t sq c : Nat) (w : Word), Issues s.dev sq c 0x0C w →
    ∃ v : Word, (∀ i < 64, v.getLsbD i = (decide (iLsb w + i ≤ iMsb w) && ((s.dev.ctx sq c).g.getD (iRa w) 0).getLsbD (iLsb w + i))) ∧
      Does (.bfx t sq c 0) s fun d => Retires (s.dev.advanceTo t) d sq c (setG (iRd w) v)) ∧
  (∀ (s : State) (t sq c : Nat) (w : Word), Issues s.dev sq c 0x0D w →
    ∃ v : Word, (∀ i < 64, v.getLsbD i =
        if iLsb w ≤ i ∧ i ≤ iMsb w then ((s.dev.ctx sq c).g.getD (iRa w) 0).getLsbD (i - iLsb w) else ((s.dev.ctx sq c).g.getD (iRd w) 0).getLsbD i) ∧
      Does (.bfi t sq c 0) s fun d => Retires (s.dev.advanceTo t) d sq c (setG (iRd w) v))

/-- CMP writes P[FN[37:35]] with the result of the condition in FN[34:32] (a write of P0 is ignored, R81), and nothing else. A word of CMP, MOVI,
MOVHI, BFX or BFI with another FN bit set, or of BFX or BFI with msb < lsb, is ILLEGAL: the routine stops with the record of fault kind 1. -/
def Obligations.CompareAndFieldForms : Prop :=
  (∀ (s : State) (t sq c : Nat) (w : Word), Issues s.dev sq c 0x0B w →
    let a := (s.dev.ctx sq c).g.getD (iRa w) 0
    let b := if w.getLsbD 38 then BitVec.signExtend 64 (w.setWidth 32) else (s.dev.ctx sq c).g.getD (iRb w) 0
    let k := (w >>> 32).toNat % 8
    ∃ v : Bool, (k = 0 → (v = true ↔ a = b)) ∧ (k = 1 → (v = true ↔ a ≠ b)) ∧ (k = 2 → (v = true ↔ a.toNat < b.toNat)) ∧
      (k = 3 → (v = true ↔ b.toNat ≤ a.toNat)) ∧ (k = 4 → (v = true ↔ a.toInt < b.toInt)) ∧ (k = 5 → (v = true ↔ b.toInt ≤ a.toInt)) ∧
      (k = 6 → (v = true ↔ a &&& b ≠ 0)) ∧ (k = 7 → (v = true ↔ a &&& b = 0)) ∧
      Does (.cmp t sq c 0) s fun d => Retires (s.dev.advanceTo t) d sq c (setP ((w >>> 35).toNat % 8) v)) ∧
  (∀ (s : State) (t sq c : Nat) (w : Word) (mk : Nat → Nat → Nat → Nat → Instr), Fetches s.dev sq c w →
    (iOp w, mk) ∈ ([(0x09, .movi), (0x0A, .movhi), (0x0C, .bfx), (0x0D, .bfi)] : List (Nat × (Nat → Nat → Nat → Nat → Instr))) →
    ((w >>> 32).toNat % 128 ≠ 0 ∨ ((iOp w = 0x0C ∨ iOp w = 0x0D) ∧ (w >>> 6).toNat % 64 < w.toNat % 64)) →
    Does (mk t sq c 0) s fun d => Faulted (s.dev.advanceTo t) d sq c 1)

/-- NOP changes nothing. A taken BR leads to PC + sext(IMM), an untaken one to the next word, and one whose IMM is 0 or negative is a safe point
either way; with the handler enabled and a record waiting it calls the handler, pushing the address that the branch resolved to. CALL pushes
PC + 1 and jumps, RET pops, JR jumps, SETH names the handler, EVSEL selects groups. POLL fetches the oldest record. HALT ends the routine. -/
def Obligations.SequencerFlow : Prop :=
  (∀ (s : State) (t sq c : Nat) (w : Word), Issues s.dev sq c 0x01 w →
    Does (.nop t sq c 0) s fun d => Retires (s.dev.advanceTo t) d sq c fun x => x) ∧
  (∀ (s : State) (t sq c : Nat) (w : Word), IssuesOp s.dev sq c 0x10 w →
    let x := s.dev.ctx sq c
    let tgt := if x.goes w then x.pc + w.setWidth 16 else x.pc + 1
    let back := w.setWidth 32 = (0 : BitVec 32) ∨ w.getLsbD 31 = true
    ((¬ back → Does (.br t sq c 0) s fun d => Retires (s.dev.advanceTo t) d sq c fun x => { x with pc := tgt }) ∧
     (back → x.callsHandler = false → Does (.br t sq c 0) s fun d => Retires (s.dev.advanceTo t) d sq c fun x => { x with pc := tgt, since := 0 }) ∧
     (back → x.callsHandler = true →
       Does (.br t sq c 0) s fun d => Retires (s.dev.advanceTo t) d sq c fun x =>
         { x with since := 0, rstack := tgt :: x.rstack, inh := some x.rstack.length, pc := x.handler, resumeDeadline := none }))) ∧
  (∀ (s : State) (t sq c : Nat) (w : Word), Issues s.dev sq c 0x11 w → (s.dev.ctx sq c).rstack.length < 8 →
    let pc := (s.dev.ctx sq c).pc
    Does (.call t sq c 0) s fun d => Retires (s.dev.advanceTo t) d sq c fun x =>
      { x with rstack := (pc + 1) :: x.rstack, pc := if w.getLsbD 32 then w.setWidth 16 else pc + w.setWidth 16 }) ∧
  (∀ (s : State) (t sq c : Nat) (w : Word) (a : BitVec 16) (rest : List (BitVec 16)), Issues s.dev sq c 0x12 w →
    (s.dev.ctx sq c).rstack = a :: rest →
    Does (.ret t sq c 0) s fun d => Retires (s.dev.advanceTo t) d sq c fun x =>
      { x with rstack := rest, pc := a, inh := if x.inh = some rest.length then none else x.inh }) ∧
  (∀ (s : State) (t sq c : Nat) (w : Word), Issues s.dev sq c 0x13 w →
    Does (.jr t sq c 0) s fun d => Retires (s.dev.advanceTo t) d sq c fun x => { x with pc := ((s.dev.ctx sq c).g.getD (iRa w) 0).setWidth 16 }) ∧
  (∀ (s : State) (t sq c : Nat) (w : Word), Issues s.dev sq c 0x14 w →
    Does (.seth t sq c 0) s fun d => Retires (s.dev.advanceTo t) d sq c fun x => { x with handler := w.setWidth 16, hen := w.getLsbD 32 }) ∧
  (∀ (s : State) (t sq c : Nat) (w : Word), Issues s.dev sq c 0x15 w →
    Does (.evsel t sq c 0) s fun d => Retires (s.dev.advanceTo t) d sq c fun x => { x with groups := ((s.dev.ctx sq c).g.getD (iRa w) 0).setWidth 48 }) ∧
  (∀ (s : State) (t sq c : Nat) (w : Word), Issues s.dev sq c 0x1F w → (s.dev.ctx sq c).evq = [] →
    Does (.poll t sq c 0) s fun d => Retires (s.dev.advanceTo t) d sq c fun x => { setP (iPd w) false x with since := 0 }) ∧
  (∀ (s : State) (t sq c : Nat) (w : Word) (r : EvRec) (rest : List EvRec), Issues s.dev sq c 0x1F w → (s.dev.ctx sq c).evq = r :: rest →
    Does (.poll t sq c 0) s fun d => Retires (s.dev.advanceTo t) d sq c fun x =>
      { setP (iPd w) true (setG (iRd w) (BitVec.ofNat 64 (r.id + 2 ^ 11 * r.sev + (if x.evLost then 2 ^ 13 else 0) + 2 ^ 14 * r.arg)) x) with
        since := 0, evq := rest, evLost := false }) ∧
  (∀ (s : State) (t sq c : Nat) (w : Word), Issues s.dev sq c 0x02 w → (s.dev.ctx sq c).aborts = [] → (s.dev.ctx sq c).ending = false →
    let n := (s.dev.ctx sq c).sid
    n < 8 → (s.dev.session n).outq = [] → (s.dev.session n).unacked.length < (s.dev.session n).hostWin → SendsPlainly s.dev (s.dev.sessPort n) →
    Does (.halt t sq c 0) s fun d =>
      (d.ctl.sent.head?.map fun f => (f.typ, f.code, f.sid, f.tag)) = some (4, 0, n, (s.dev.ctx sq c).tag) ∧
      d.csq.ctxs = lmod s.dev.csq.ctxs (ctxIx sq c) (fun x =>
        { x with pc := x.pc + 1, icount := x.icount + 1, since := x.since + 1, st := .idle, wait := none, xport := none, resumeDeadline := none }) ∧
      d.csq.ats = s.dev.csq.ats ∧ d.regs = s.dev.regs ∧ d.counters = s.dev.counters)

/-- Accesses. LD takes what the register reads, 0 with event 4 where no block decodes the address. ST and STF write, here EVT_MASK (an RW field that
takes effect at once): STF only the bits of its field. With FN[35] = 1 they report whether every quiesce field was accepted. CREAD reads a
counter with its time, 0 for an index that names none. EMIT raises its event. A TBL whose slice is without power completes at once, and one
whose command path is taken waits. -/
def Obligations.SequencerAccesses : Prop :=
  (∀ (s : State) (t sq c g : Nat) (w : Word), Issues s.dev sq c 0x04 w →
    let a := ((s.dev.ctx sq c).g.getD (iRa w) 0 + BitVec.signExtend 64 (w.setWidth 32)).toNat
    a < 2 ^ 40 → regDecode a = some (.EVT_MASK, [g]) →
    Does (.ld t sq c 0) s fun d => Retires (s.dev.advanceTo t) d sq c (setG (iRd w) (s.dev.rget .EVT_MASK [g]))) ∧
  (∀ (s : State) (t sq c : Nat) (w : Word) (n : RegName) (ix : List Nat), Issues s.dev sq c 0x04 w →
    let a := ((s.dev.ctx sq c).g.getD (iRa w) 0 + BitVec.signExtend 64 (w.setWidth 32)).toNat
    a < 2 ^ 40 → regDecode a = some (n, ix) → n ≠ .TIM_NOW_SEC → n ≠ .CYC_NOW_NUM → s.dev.blockOff (a / 8 * 8) = false →
    s.dev.fabHidden n = false →
    Does (.ld t sq c 0) s fun d => Retires (s.dev.advanceTo t) d sq c (setG (iRd w) ((s.dev.advanceTo t).liveRead sq c n ix))) ∧
  (∀ (s : State) (t sq c : Nat) (w : Word), Issues s.dev sq c 0x04 w →
    let a := ((s.dev.ctx sq c).g.getD (iRa w) 0 + BitVec.signExtend 64 (w.setWidth 32)).toNat
    a < 2 ^ 40 → regDecode a = none →
    Does (.ld t sq c 0) s fun d =>
      (d.ctx sq c).g = lmod (s.dev.ctx sq c).g (iRd w) (fun _ => 0) ∧ (d.ctx sq c).pc = (s.dev.ctx sq c).pc + 1 ∧ Happened d 4 ∧
      OnlyRegsAndEvents [] s.dev d) ∧
  (∀ (s : State) (t sq c g : Nat) (w : Word), Issues s.dev sq c 0x05 w →
    let x := s.dev.ctx sq c
    let a := (x.g.getD (iRa w) 0 + BitVec.signExtend 64 (w.setWidth 32)).toNat
    a < 2 ^ 40 → 1 ≤ x.priv → regDecode a = some (.EVT_MASK, [g]) →
    Does (.st t sq c 0) s fun d =>
      d.fget F.EVT_MASK.MASK [g] = (x.g.getD (iRb w) 0).toNat % 2 ^ 32 ∧ OnlyRegs [(.EVT_MASK, [g])] s.dev d ∧
      Retires { s.dev.advanceTo t with regs := d.regs } d sq c (if w.getLsbD 35 then setP (iPd w) true else id)) ∧
  (∀ (s : State) (t sq c g : Nat) (w : Word), Issues s.dev sq c 0x06 w →
    let x := s.dev.ctx sq c
    let a := (x.g.getD (iRa w) 0).toNat
    a < 2 ^ 40 → 1 ≤ x.priv → regDecode a = some (.EVT_MASK, [g]) →
    Does (.stf t sq c 0) s fun d =>
      (∀ i < 32, bitN (d.fget F.EVT_MASK.MASK [g]) i =
        if iLsb w ≤ i ∧ i ≤ iMsb w then (x.g.getD (iRb w) 0).getLsbD (i - iLsb w) else bitN (s.dev.fget F.EVT_MASK.MASK [g]) i) ∧
      OnlyRegs [(.EVT_MASK, [g])] s.dev d ∧
      Retires { s.dev.advanceTo t with regs := d.regs } d sq c (if w.getLsbD 35 then setP (iPd w) true else id)) ∧
  (∀ (s : State) (t sq c : Nat) (w : Word), Issues s.dev sq c 0x05 w →
    let x := s.dev.ctx sq c
    let a := (x.g.getD (iRa w) 0 + BitVec.signExtend 64 (w.setWidth 32)).toNat
    a < 2 ^ 40 → 1 ≤ x.priv → regDecode a = some (.CYC_ANCHOR_SEC, []) → s.dev.cycState ≠ 0 → s.dev.img.boot ≠ .load → s.dev.role ≠ 1 →
    wbits (x.g.getD (iRb w) 0) 47 0 ≠ s.dev.fget F.CYC_ANCHOR_SEC.SEC [] → w.getLsbD 35 = true →
    Does (.st t sq c 0) s fun d =>
      d.rget .CYC_ANCHOR_SEC [] = s.dev.rget .CYC_ANCHOR_SEC [] ∧ (d.ctx sq c).p = (setP (iPd w) false x).p ∧ (d.ctx sq c).pc = x.pc + 1 ∧
      Happened d 3) ∧
  (∀ (s : State) (t sq c : Nat) (w : Word), Issues s.dev sq c 0x05 w → (s.dev.ctx sq c).priv = 0 →
    let a := ((s.dev.ctx sq c).g.getD (iRa w) 0 + BitVec.signExtend 64 (w.setWidth 32)).toNat
    a < 2 ^ 40 → regDecode a ≠ some (.TVX_EVT_SUB, [(s.dev.ctx sq c).sid]) →
    Does (.st t sq c 0) s fun d => (d.ctx sq c).st = .idle ∧ (d.ctx sq c).pc = (s.dev.ctx sq c).pc ∧ Happened d 69) ∧
  (∀ (s : State) (t sq c : Nat) (w : Word), Issues s.dev sq c 0x19 w →
    let x := s.dev.ctx sq c
    let idx := (x.g.getD (iRa w) 0).toNat % 2 ^ 32
    let names := ctExists idx
    let fab := (s.dev.advanceTo t).fab
    1 ≤ x.priv →
    Does (.cread t sq c 0) s fun d => Retires (s.dev.advanceTo t) d sq c fun x =>
      setP (iPd w) names (setG (iRd w + 2) (BitVec.ofNat 64 (tNs fab * 65536 + tFrac fab))
        (setG (iRd w + 1) (BitVec.ofNat 64 (tSec fab)) (setG (iRd w) (if names then s.dev.counter idx else 0) x)))) ∧
  (∀ (s : State) (t sq c : Nat) (w : Word), Issues s.dev sq c 0x1D w →
    let x := s.dev.ctx sq c
    let id := if w.getLsbD 32 then w.toNat % 2 ^ 11 else (x.g.getD (iRa w) 0).toNat % 2 ^ 11
    id < 1536 → 1 ≤ x.priv →
    Does (.emit t sq c 0) s fun d =>
      Happened d id ∧ (d.ctx sq c).pc = x.pc + 1 ∧ (d.ctx sq c).g = x.g ∧ (d.ctx sq c).p = x.p ∧ OnlyRegsAndEvents [] s.dev d ∧
      d.cyc = s.dev.cyc ∧ d.tmem = s.dev.tmem) ∧
  (∀ (s : State) (t sq c : Nat) (w : Word), Issues s.dev sq c 0x18 w →
    let sl := ((s.dev.ctx sq c).g.getD (iRa w) 0).toNat
    sl < 32 → 1 ≤ (s.dev.ctx sq c).priv → s.dev.tblTaken sl = true →
    Does (.tbl t sq c 0) s fun d =>
      d = (s.dev.advanceTo t).ctxMod sq c (fun x => { x with st := .inAccess, since := x.since + 1 })) ∧
  (∀ (s : State) (t sq c : Nat) (w : Word), Issues s.dev sq c 0x18 w →
    let sl := ((s.dev.ctx sq c).g.getD (iRa w) 0).toNat
    sl < 32 → 1 ≤ (s.dev.ctx sq c).priv → s.dev.tblTaken sl = false → s.dev.sliceOn sl = false → w.toNat / 2 ^ 28 % 16 = 4 →
    Does (.tbl t sq c 0) s fun d =>
      d.fbit F.TBL_CMD.BUSY [sl] = false ∧ d.fget F.TBL_CMD.RESULT [sl] = 8 ∧ (d.ctx sq c).st = .ready ∧
      (d.ctx sq c).pc = (s.dev.ctx sq c).pc + 1 ∧ d.tmem = s.dev.tmem)

/-- AT arms a store in the free slot of lowest number, and arms none where all sixteen are taken; a due AT makes its store and its slot is free
again. HINT of length 0 is ignored, and a hint that starts now joins the hints. XPORT of one counter puts one BULK frame of one record into the
export buffer and writes 1 to G[RD]; of a ring above 255 it exports nothing and writes 0; one that waited for room goes on when there is some. -/
def Obligations.SequencerArmsHintsExports : Prop :=
  (∀ (s : State) (t sq c i : Nat) (w : Word), Issues s.dev sq c 0x1B w → s.dev.freeAt sq = some i → s.dev.phaseValid = true →
    let x := s.dev.ctx sq c
    let d0 := s.dev.advanceTo t
    let k := (w >>> 34).toNat % 4
    let ph := w.toNat % 2 ^ 32
    (x.g.getD (iRa w) 0).toNat < 2 ^ 40 → 2 ≤ x.priv →
    Does (.armAt t sq c 0) s fun d =>
      ∃ a : AtSlot, d.csq.ats = s.dev.csq.ats ++ [a] ∧ a.seq = sq ∧ a.slot = i ∧ a.ctx = c ∧ a.sid = x.sid ∧ a.priv = x.priv ∧ a.phase = ph ∧
        a.addr = (x.g.getD (iRa w) 0).toNat ∧ a.val = x.g.getD (iRb w) 0 ∧ a.pend = none ∧ a.due = false ∧
        a.cyc = (d0.cycNum + (if k = 0 then (if d0.phase < ph then 0 else 1) else k)) % 2 ^ 48 ∧
        (d.ctx sq c).p = (setP (iPd w) true x).p ∧ (d.ctx sq c).pc = x.pc + 1 ∧ d.fbit F.CSQ_AT.VALID [sq, i] = true ∧
        OnlyRegs [(.CSQ_AT, [sq, i])] s.dev d) ∧
  (∀ (s : State) (t sq c : Nat) (w : Word), Issues s.dev sq c 0x1B w → s.dev.freeAt sq = none → 2 ≤ (s.dev.ctx sq c).priv →
    ((s.dev.ctx sq c).g.getD (iRa w) 0).toNat < 2 ^ 40 →
    Does (.armAt t sq c 0) s fun d => Retires (s.dev.advanceTo t) d sq c (setP (iPd w) false)) ∧
  (∀ (s : State) (t g : Nat) (a : AtSlot), s.dev.up = true → s.dev.phaseValid = false → s.dev.csq.ats = [a] → a.due = true → a.seq < 2 → a.slot < 16 →
    regDecode a.addr = some (.EVT_MASK, [g]) →
    Does (.atDispatch t) s fun d =>
      d.csq.ats = [] ∧ d.fget F.EVT_MASK.MASK [g] = a.val.toNat % 2 ^ 32 ∧ d.rget .CSQ_AT [a.seq, a.slot] = 0 ∧
      d.counters = s.dev.counters ∧ OnlyRegs [(.EVT_MASK, [g]), (.CSQ_AT, [a.seq, a.slot])] s.dev d) ∧
  (∀ (s : State) (t sq c : Nat) (w : Word), Issues s.dev sq c 0x1C w → ((s.dev.ctx sq c).g.getD (iRb w) 0).toNat % 2 ^ 24 = 0 →
    Does (.hint t sq c 0) s fun d => Retires (s.dev.advanceTo t) d sq c id) ∧
  (∀ (s : State) (t sq c : Nat) (w : Word), Issues s.dev sq c 0x1C w → w.getLsbD 38 = true → s.dev.pwr.hints.length < 16 →
    let d0 := s.dev.advanceTo t
    let len := ((s.dev.ctx sq c).g.getD (iRb w) 0).toNat % 2 ^ 24
    len ≠ 0 →
    Does (.hint t sq c 0) s fun d =>
      d.pwr.hints = s.dev.pwr.hints ++ [{
        cls := (w >>> 32).toNat % 16, cyc := some d0.cycNum, phase := d0.phase, len := len,
        stop := some (d0.fab + len * s.dev.cyc.per / 2 ^ 40) }] ∧
      d.fbit F.PWR_STATUS.HINT [] = true ∧ (d.ctx sq c).pc = (s.dev.ctx sq c).pc + 1 ∧ OnlyRegs [(.PWR_STATUS, [])] s.dev d) ∧
  (∀ (s : State) (t sq c : Nat) (w : Word), Issues s.dev sq c 0x1E w →
    let x := s.dev.ctx sq c
    let idx := (x.g.getD (iRa w) 0).toNat % 2 ^ 32
    (w >>> 32).toNat % 2 = 0 → (w >>> 34).toNat % 16 ≠ 15 → x.g.getD (iRb w) 0 = 1 → ctExists idx = true → 1 ≤ x.priv → x.ending = false →
    s.dev.sessionOpen x.sid = true → x.sid < s.dev.ctl.sessions.length → s.dev.ctl.exportUsed + 32 ≤ 262144 →
    Does (.xport t sq c 0) s fun d =>
      (d.ctx sq c).g = lmod x.g (iRd w) (fun _ => 1) ∧ (d.ctx sq c).st = .ready ∧ (d.ctx sq c).pc = x.pc + 1 ∧
      d.ctl.exportUsed = s.dev.ctl.exportUsed + 32 ∧ d.regs = s.dev.regs ∧ d.counters = s.dev.counters ∧
      ∃ f : CpFrame, (d.session x.sid).bulkq = (s.dev.session x.sid).bulkq ++ [f] ∧
        f.payload.take 4 = beBytes 1 ((w >>> 34).toNat % 16) ++ beBytes 1 0 ++ beBytes 2 1 ∧
        f.payload.drop 8 = beBytes 4 idx ++ beBytes 8 (s.dev.counter idx).toNat ++ beBytes 12 (t96 (s.dev.advanceTo t).fab)) ∧
  (∀ (s : State) (t sq c : Nat) (w : Word), Issues s.dev sq c 0x1E w → (w >>> 32).toNat % 2 = 1 →
    256 ≤ ((s.dev.ctx sq c).g.getD (iRa w) 0).toNat → (s.dev.ctx sq c).xport = none →
    s.dev.que.draining = [] →
    Does (.xport t sq c 0) s fun d =>
      Retires (s.dev.advanceTo t) d sq c (setG (iRd w) 0)) ∧
  (∀ (s : State) (t sq c next k : Nat), s.dev.up = true → s.dev.imageLoaded = true → sq < 2 → c < 8 → s.dev.seqInService sq = true →
    let x := s.dev.ctx sq c
    let w := s.dev.seqWord sq c
    x.st = .inAccess → x.xport = some (next, 1, k) → (w >>> 32).toNat % 2 = 0 → (w >>> 34).toNat % 16 ≠ 15 → ctExists next = true →
    1 ≤ x.priv → x.ending = false → s.dev.sessionOpen x.sid = true → s.dev.ctl.exportUsed + 32 ≤ 262144 →
    Does (.exportBufferRoom t sq c) s fun d =>
      (d.ctx sq c).g = lmod x.g (iRd w) (fun _ => BitVec.ofNat 64 (k + 1)) ∧ (d.ctx sq c).st = .ready ∧ (d.ctx sq c).pc = x.pc + 1 ∧
      d.ctl.exportUsed = s.dev.ctl.exportUsed + 32 ∧ d.regs = s.dev.regs)

/-- Waiting, and what waits for a safe point. A WAIT on PTWAKE blocks its context, with the deadline IMM × 8 ns after its issue or none; one on EVENT
with a record waiting completes at once with predicate 1; any other calls an enabled handler that has a record, keeping its own address to return
to. A waiting TIME completes with 1 once fabric time is there, and with 0 at its deadline. An abort that waits is taken at a safe point. -/
def Obligations.SequencerWaits : Prop :=
  (∀ (s : State) (t sq c : Nat) (w : Word), Issues s.dev sq c 0x1A w → (w >>> 33).toNat % 8 = 1 → (s.dev.ctx sq c).callsHandler = false →
    (s.dev.ctx sq c).inh = none → (s.dev.ctx sq c).resumeDeadline = none →
    let d0 := s.dev.advanceTo t
    let x := s.dev.ctx sq c
    Does (.wait t sq c 0) s fun d =>
      d = (d0.retired sq).ctxMod sq c (fun x => { x with icount := x.icount + 1, st := .waiting, since := 0, wait := (d.ctx sq c).wait }) ∧
      (d.ctx sq c).wait = some {
        cond := 1, neg := false, a := x.g.getD (iRa w) 0, b := x.g.getD (iRb w) 0, d := x.g.getD (iRd w) 0,
        pred := (w >>> 36).toNat % 8, deadline := if w.toNat % 2 ^ 32 = 0 then none else some (d0.now + 8 * 65536 * (w.toNat % 2 ^ 32)) } ∧
      (d.ctx sq c).st = .waiting) ∧
  (∀ (s : State) (t sq c : Nat) (w : Word), Issues s.dev sq c 0x1A w → (w >>> 33).toNat % 8 = 4 → (s.dev.ctx sq c).evq ≠ [] →
    Does (.wait t sq c 0) s fun d =>
      (d.ctx sq c).p = (setP ((w >>> 36).toNat % 8) true (s.dev.ctx sq c)).p ∧ (d.ctx sq c).st = .ready ∧
      (d.ctx sq c).pc = (s.dev.ctx sq c).pc + 1 ∧ (d.ctx sq c).since = 0 ∧ (d.ctx sq c).evq = (s.dev.ctx sq c).evq ∧ d.regs = s.dev.regs) ∧
  (∀ (s : State) (t sq c : Nat) (w : Word), Issues s.dev sq c 0x1A w → (w >>> 33).toNat % 8 ∈ [1, 2, 3] → (s.dev.ctx sq c).callsHandler = true →
    let x := s.dev.ctx sq c
    Does (.wait t sq c 0) s fun d =>
      (d.ctx sq c).pc = x.handler ∧ (d.ctx sq c).rstack = x.pc :: x.rstack ∧ (d.ctx sq c).inh = some x.rstack.length ∧
      (d.ctx sq c).st = .ready ∧ (d.ctx sq c).wait = none ∧ (d.ctx sq c).p = x.p ∧ d.regs = s.dev.regs) ∧
  (∀ (s : State) (t sq c : Nat) (w : WaitSt), s.dev.up = true → s.dev.imageLoaded = true → sq < 2 → c < 8 → s.dev.seqInService sq = true →
    (s.dev.ctx sq c).st = .waiting → (s.dev.ctx sq c).wait = some w → w.cond = 3 →
    let d0 := s.dev.advanceTo t
    let due := 65536 * 10 ^ 9 * (w.a.toNat % 2 ^ 48) + w.b.toNat
    (due ≤ d0.fab ∨ ∃ dl, w.deadline = some dl ∧ dl ≤ d0.now) → wbits w.b 63 48 = 0 →
    Does (.waitComplete t sq c) s fun d =>
      d = (d0.retired sq).ctxMod sq c (fun x => { setP w.pred (decide (due ≤ d0.fab)) x with pc := x.pc + 1, st := .ready, wait := none, since := 0 })) ∧
  (∀ (s : State) (t sq c : Nat), s.dev.up = true → s.dev.imageLoaded = true → sq < 2 → c < 8 → s.dev.seqInService sq = true →
    (s.dev.ctx sq c).running = true → (s.dev.ctx sq c).ending = true → (s.dev.ctx sq c).atSafe = true →
    Does (.abortAtSafePoint t sq c) s fun d =>
      (d.ctx sq c).st = .idle ∧ (d.ctx sq c).pc = (s.dev.ctx sq c).pc ∧ (d.ctx sq c).g = (s.dev.ctx sq c).g ∧ d.regs = s.dev.regs ∧
      d.ctl = s.dev.ctl ∧ d.counters = s.dev.counters)

/-- Faults. A false predicate makes every instruction but BR only take its place. A fetch outside the region and the library, the 257th instruction
since a safe point, an illegal word, an address with bits above 39, and a full or empty return stack stop the routine with their records. A
sequencer fault: in Precision the other sequencer runs on, with event 86; in Endurance a primary that is shadowed is taken over with event 82, a
shadow is lost with event 83, and a primary alone causes a warm restart. -/
def Obligations.SequencerFaults : Prop :=
  (∀ (s : State) (t sq c : Nat) (w : Word) (mk : Nat → Nat → Nat → Nat → Instr), (iOp w, mk) ∈ seqOps → IssuesOp s.dev sq c (iOp w) w →
    (s.dev.ctx sq c).goes w = false → Does (mk t sq c 0) s fun d => Retires (s.dev.advanceTo t) d sq c id) ∧
  (∀ (s : State) (t sq c e : Nat), s.dev.canIssue sq c = true → s.dev.mayFetch sq c = false →
    Does (.nop t sq c e) s fun d => Faulted (s.dev.advanceTo t) d sq c 2) ∧
  (∀ (s : State) (t sq c : Nat), s.dev.canIssue sq c = true → s.dev.mayFetch sq c = true → (s.dev.ctx sq c).since = 256 →
    Does (.safeptFault t sq c) s fun d => Faulted (s.dev.advanceTo t) d sq c 5) ∧
  (∀ (s : State) (t sq c : Nat) (w : Word), Fetches s.dev sq c w → w = 0 → Does (.nop t sq c 0) s fun d => Faulted (s.dev.advanceTo t) d sq c 1) ∧
  (∀ (s : State) (t sq c : Nat) (w : Word), Issues s.dev sq c 0x06 w → 2 ^ 40 ≤ ((s.dev.ctx sq c).g.getD (iRa w) 0).toNat →
    Does (.stf t sq c 0) s fun d => Faulted (s.dev.advanceTo t) d sq c 3) ∧
  (∀ (s : State) (t sq c : Nat) (w : Word), Issues s.dev sq c 0x11 w → 8 ≤ (s.dev.ctx sq c).rstack.length →
    Does (.call t sq c 0) s fun d => Faulted (s.dev.advanceTo t) d sq c 4) ∧
  (∀ (s : State) (t sq c : Nat) (w : Word), Issues s.dev sq c 0x12 w → (s.dev.ctx sq c).rstack = [] →
    Does (.ret t sq c 0) s fun d => Faulted (s.dev.advanceTo t) d sq c 4) ∧
  (∀ (s : State) (t sq : Nat), sq < 2 → s.dev.up = true → s.dev.imageLoaded = true → s.dev.precision = true → s.dev.csq.faulted = [] →
    s.dev.csq.repairing = [] →
    Does (.sequencerFault t sq) s fun d =>
      d.csq.faulted = [sq] ∧ d.seqInService (1 - sq) = true ∧ Happened d 86 ∧ d.tmem = s.dev.tmem ∧ d.cyc = s.dev.cyc) ∧
  (∀ (s : State) (t sq : Nat), sq < 2 → s.dev.up = true → s.dev.imageLoaded = true → s.dev.precision = false → s.dev.csq.faulted = [] →
    s.dev.fget F.CSQ_STATUS.STATE [] = 0 →
    Does (.sequencerFault t sq) s fun d =>
      d.csq.faulted = [sq] ∧ OnlyRegsAndEvents [(.CSQ_STATUS, [])] s.dev d ∧ d.tmem = s.dev.tmem ∧ d.cyc = s.dev.cyc ∧
      (sq = s.dev.primary → d.fget F.CSQ_STATUS.STATE [] = 1 ∧ Happened d 82) ∧
      (sq ≠ s.dev.primary → d.fget F.CSQ_STATUS.STATE [] = 2 ∧ Happened d 83)) ∧
  (∀ (s : State) (t sq : Nat), sq < 2 → s.dev.up = true → s.dev.imageLoaded = true → s.dev.precision = false → sq = s.dev.primary →
    s.dev.fget F.CSQ_STATUS.STATE [] = 2 →
    Does (.sequencerFault t sq) s fun d => d.fget F.GLB_RESET.CAUSE [] = 5 ∧ d.pwr.dev = .standby ∧ d.tmem = s.dev.tmem ∧ d.counters = s.dev.counters) ∧
  (∀ (s : State) (t c : Nat), s.dev.up = true → s.dev.precision = false → s.dev.csq.faulted = [] → s.dev.csq.repairing = [] → c < 8 →
    s.dev.fget F.CSQ_STATUS.STATE [] = 0 → (s.dev.ctx s.dev.primary c).st = .ready → t ≤ s.dev.now →
    s.dev.csq.lastRetire.getD s.dev.primary 0 + s.dev.coreTime (2 ^ max 16 (s.dev.fget F.CSQ_CTL.WDOG [s.dev.primary])) ≤ s.dev.now →
    Does (.watchdogExpiry t s.dev.primary) s fun d =>
      d.csq.faulted = [s.dev.primary] ∧ d.fget F.CSQ_STATUS.STATE [] = 1 ∧ Happened d 82 ∧ OnlyRegsAndEvents [(.CSQ_STATUS, [])] s.dev d) ∧
  (∀ (s : State) (t : Nat), s.dev.up = true → s.dev.precision = false → s.dev.fget F.CSQ_STATUS.STATE [] = 1 →
    Does (.takeoverComplete t) s fun d =>
      d.fget F.CSQ_STATUS.STATE [] = 2 ∧ d.primary = 1 - s.dev.primary ∧ Happened d 82 ∧ Happened d 421 ∧
      (∀ c < 8, (d.ctx d.primary c).g = (s.dev.ctx s.dev.primary c).g ∧ (d.ctx d.primary c).icount = (s.dev.ctx s.dev.primary c).icount) ∧
      d.csq.ats = s.dev.csq.ats ∧ d.csq.store = s.dev.csq.store) ∧
  (∀ (s : State) (t : Nat), s.dev.up = true → s.dev.precision = false → s.dev.fget F.CSQ_STATUS.STATE [] = 3 → s.dev.seqAtSafe s.dev.primary = true →
    Does (.resyncComplete t) s fun d =>
      d.fget F.CSQ_STATUS.STATE [] = 0 ∧ (∀ a < 65536, mget 0 d.csq.store ((1 - s.dev.primary) * 65536 + a) = mget 0 s.dev.csq.store (s.dev.primary * 65536 + a)) ∧
      d.counters = s.dev.counters ∧ d.csq.ctxs = s.dev.csq.ctxs)

/-! ### Images, boot and live patches (chapter 05) -/

/-- The boot ROM. Once the crystal has passed its check the ROM advertises, and after 1 s in the check it drives ALERT_N. The first chunk of an
image binds its sender and starts the exchange; CODE 2 from that sender cancels it, and 1 s without a chunk ends it, with the verdicts 0x1C and
0x16. Verification refuses in the order header, key, signature, rollback, and an image that passes starts LOAD. An image whose load succeeds
becomes the golden copy and takes the device to STANDBY with event 88; spill PHYs that do not train fail the load with 0x15. -/
def Obligations.BootAndImages : Prop :=
  (∀ (s : State) (t : Nat), s.dev.up = true → s.dev.img.boot = .xoCheck → s.dev.img.retained = false →
    s.dev.img.since + us 41900 ≤ max s.dev.now t →
    Does (.xoCheckPass t) s fun d =>
      d.img = { s.dev.img with boot := .advertising, since := max s.dev.now t, xoAlert := false, advAt := none } ∧ d.regs = s.dev.regs ∧
      d.ctl = s.dev.ctl ∧ d.pwr = s.dev.pwr) ∧
  (∀ (s : State) (t : Nat), s.dev.up = true → s.dev.img.boot = .xoCheck → s.dev.img.since + sec 1 ≤ max s.dev.now t →
    Does (.xoCheckAlert t) s fun d => d.alertLow = true ∧ d.img = { s.dev.img with xoAlert := true } ∧ d.regs = s.dev.regs) ∧
  (∀ (s : State) (t : Nat) (f : TvxRx), PlainFrame s.dev f → f.typ = 2 → f.code = 0 → f.sid = 0xFF → f.seq = 0 → f.tag = 0 → f.ackv = false →
    0 < f.len → f.len < 12 → s.dev.img.boot = .advertising →
    Does (.imageChunk t f) s fun d =>
      d.img.boot = .receiving ∧ d.img.bound = some f.src ∧ d.img.staged = f.payload.take f.len ∧ d.img.lastChunk = max s.dev.now t ∧
      d.ctl.sent = s.dev.ctl.sent ∧ d.regs = s.dev.regs ∧ d.counters = s.dev.counters) ∧
  (∀ (s : State) (t : Nat) (f : TvxRx), PlainFrame s.dev f → f.typ = 2 → f.code = 2 → f.sid = 0xFF → f.ackv = false → f.seq = s.dev.ctl.boot.rxNext →
    s.dev.img.boot = .receiving → s.dev.img.bound = some f.src → s.dev.img.retained = false → s.dev.ctl.boot.outq = [] → SendsPlainly s.dev f.port →
    Does (.imageCancel t f) s fun d =>
      d.img.boot = .advertising ∧ d.img.staged = [] ∧ d.fget F.IMG_STATUS.VERDICT [] = 0x1C ∧ OnlyRegs [(.IMG_STATUS, [])] s.dev d) ∧
  (∀ (s : State) (t : Nat), s.dev.up = true → s.dev.img.boot = .receiving → s.dev.img.staging = none → s.dev.img.retained = false →
    s.dev.img.lastChunk + sec 1 ≤ max s.dev.now t →
    Does (.imageChunkTimeout t) s fun d => d.img.boot = .advertising ∧ d.img.staged = [] ∧ d.fget F.IMG_STATUS.VERDICT [] = 0x16) ∧
  (∀ (s : State) (t : Nat) (bad : List Nat), s.dev.up = true → s.dev.img.boot = .verify → s.dev.img.retained = false →
    let b := s.dev.img.staged
    (headerOk 0 b = false → Does (.imageVerifyDone t bad) s fun d => d.fget F.IMG_STATUS.VERDICT [] = 0x11 ∧ d.img.boot = .advertising) ∧
    (headerOk 0 b = true → s.dev.keyOk b = false →
      Does (.imageVerifyDone t bad) s fun d => d.fget F.IMG_STATUS.VERDICT [] = 0x12 ∧ d.img.boot = .advertising) ∧
    (headerOk 0 b = true → s.dev.keyOk b = true → sigOk b = false →
      Does (.imageVerifyDone t bad) s fun d => d.fget F.IMG_STATUS.VERDICT [] = 0x13 ∧ d.img.boot = .advertising) ∧
    (headerOk 0 b = true → s.dev.keyOk b = true → sigOk b = true → hdrSvn b < s.dev.fuses.rollback →
      Does (.imageVerifyDone t bad) s fun d => d.fget F.IMG_STATUS.VERDICT [] = 0x14 ∧ d.img.boot = .advertising) ∧
    (headerOk 0 b = true → s.dev.keyOk b = true → sigOk b = true → s.dev.fuses.rollback ≤ hdrSvn b → badSect 0 b = none →
      Does (.imageVerifyDone t []) s fun d =>
        d.img = { s.dev.img with boot := .load, since := max s.dev.now t } ∧ d.regs = s.dev.regs ∧ d.ctl = s.dev.ctl)) ∧
  (∀ (s : State) (t : Nat), s.dev.up = true → s.dev.img.boot = .load → s.dev.img.retained = false → s.dev.pwr.reqHeld = false →
    let b := s.dev.img.staged
    (∀ k < hdrSects b, (sectAt b k).store ≠ 7) →
    Does (.imageLoadDone t true []) s fun d =>
      d.img.boot = .standby ∧ d.imageLoaded = true ∧ d.img.golden = b ∧ d.img.staged = [] ∧ Happened d 88 ∧
      d.fget F.IMG_STATUS.VERDICT [] = 0x10 ∧ d.fbit F.GLB_PROFILE.LOADED [] = true ∧ d.fget F.GLB_PROFILE.PROFILE [] = hdrFlags b % 2 ∧
      d.fget F.GLB_VERSION.IMAGE_VER [] = hdrVer b) ∧
  (∀ (s : State) (t : Nat), s.dev.up = true → s.dev.img.boot = .load → s.dev.img.retained = false →
    Does (.imageLoadDone t false []) s fun d =>
      d.img.boot = .advertising ∧ d.csq.store = [] ∧ d.fget F.IMG_STATUS.VERDICT [] = 0x15 ∧ d.img.golden = s.dev.img.golden)

/-- Bundles. The first chunk from an admin session is staged; one from another session is discarded and counted, with event 69. A staged bundle whose
header fails is refused with verdict 0x11 and event 89; one that passes, and whose section (here of the power microcode) has its base version,
begins to apply. A part whose safe point is here goes into the golden copy and the live store; the last one ends the bundle with event 90. No
safe point within PATCH_TMO leaves it partly applied, with MIXED, event 91 and verdict 0x19. -/
def Obligations.BundlesAndPatches : Prop :=
  (∀ (s : State) (t : Nat) (f : TvxRx), PlainFrame s.dev f → f.typ = 2 → f.code = 1 → s.dev.sessionOpen f.sid = true →
    s.dev.fget F.TVX_SESSION.PRIV [f.sid] = 2 → NothingWaits s.dev → f.ackv = false → f.seq = (s.dev.session f.sid).rxNext → f.tag = 0 →
    0 < f.len → f.len < 12 → s.dev.img.staging = none →
    Does (.bundleChunk t f) s fun d =>
      (d.img.staging.map fun x => (x.sid, x.bytes, x.lastChunk, x.whole, x.applying)) =
        some (f.sid, f.payload.take f.len, max s.dev.now t, false, false) ∧ d.ctl.sent = s.dev.ctl.sent ∧ d.counters = s.dev.counters) ∧
  (∀ (s : State) (t : Nat) (f : TvxRx), PlainFrame s.dev f → f.typ = 2 → f.code = 1 → s.dev.sessionOpen f.sid = true →
    s.dev.fget F.TVX_SESSION.PRIV [f.sid] ≠ 2 →
    Does (.bundleChunk t f) s fun d =>
      d.img = s.dev.img ∧ d.counter (Ct.TVX_RX_DISCARD 0) = s.dev.counter (Ct.TVX_RX_DISCARD 0) + 1 ∧ Happened d 69 ∧ OnlyRegsAndEvents [] s.dev d) ∧
  (∀ (s : State) (t : Nat) (x : Staging), s.dev.up = true → s.dev.img.staging = some x → x.whole = true → x.applying = false →
    headerOk 1 x.bytes = false →
    Does (.bundleVerifyDone t) s fun d =>
      d.img.staging = none ∧ d.fget F.IMG_STATUS.VERDICT [] = 0x11 ∧ Happened d 89 ∧ d.img.golden = s.dev.img.golden ∧ d.img.bundles = s.dev.img.bundles) ∧
  (∀ (s : State) (t : Nat) (x : Staging), s.dev.up = true → s.dev.img.staging = some x → x.whole = true → x.applying = false →
    s.dev.imageChecks 1 x.bytes = none → hdrFlags x.bytes % 2 = s.dev.fget F.GLB_PROFILE.PROFILE [] →
    hdrFlags x.bytes / 4 % 2 = s.dev.fget F.GLB_PROFILE.CLKMODE [] → hdrVer x.bytes = s.dev.fget F.GLB_VERSION.IMAGE_VER [] →
    hdrSects x.bytes = 1 → (sectAt x.bytes 0).store = 5 → (sectAt x.bytes 0).inst = 0xFFFF →
    (sectAt x.bytes 0).base = s.dev.fget F.GLB_STORE_VER.VERSION [66] → (sectAt x.bytes 0).ver ≠ (sectAt x.bytes 0).base → s.dev.img.bundles = [] →
    Does (.bundleVerifyDone t) s fun d =>
      d.img.bundles = [x.bytes] ∧ d.regs = s.dev.regs ∧ d.ctl = s.dev.ctl ∧
      d.img.staging = some { x with applying := true, bundle := 0, parts := [(0, 5, 0)], since := max s.dev.now t }) ∧
  (∀ (s : State) (t k : Nat) (x : Staging), s.dev.up = true → s.dev.img.staging = some x → x.applying = true → x.parts = [(k, 5, 0)] →
    (sectAt x.bytes k).store = 5 →
    Does (.patchSectionApply t) s fun d =>
      d.img.staging = none ∧ d.img.patches = s.dev.img.patches ++ [(x.bundle, k, 0)] ∧ d.img.fulls = s.dev.img.fulls + 1 ∧ d.img.mixed = false ∧
      d.fget F.GLB_STORE_VER.VERSION [66] = (sectAt x.bytes k).ver ∧ d.fget F.IMG_STATUS.VERDICT [] = 0x10 ∧ Happened d 90 ∧
      d.img.pwrUcode = storePut s.dev.img.pwrUcode (sectAt x.bytes k).word (sectWords x.bytes (sectAt x.bytes k))) ∧
  (∀ (s : State) (t : Nat) (x : Staging), s.dev.up = true → s.dev.img.staging = some x → x.applying = true →
    x.since + ms (max 1 (s.dev.fget F.IMG_CTL.PATCH_TMO [])) ≤ max s.dev.now t →
    Does (.patchTimeout t) s fun d =>
      d.img.staging = none ∧ d.img.mixed = true ∧ d.fbit F.GLB_VERSION.MIXED [] = true ∧ d.fget F.IMG_STATUS.VERDICT [] = 0x19 ∧ Happened d 91 ∧
      d.img.patches = s.dev.img.patches)

/-- Fuses and read-back. IMG_FUSE_CMD with CONFIRM 0x4C58 starts to revoke a slot that is not the running image's nor the last live one, to
advance the counter to a target that the running image's SVN reaches, or to blow the deadbolt; with another CONFIRM it is refused, RESULT 2 with
event 92. 1 ms later a revocation or the deadbolt is blown, RESULT 1 with event 92; the counter grows by one each ms. Before the deadbolt,
STORE_READBACK reads a word of a sequencer store. -/
def Obligations.FusesAndReadback : Prop :=
  (∀ (s : State) (w : Word), s.dev.up = true → s.dev.img.fuseBusy = none → w.getLsbD 63 = true → wbits w 47 32 = 0x4C58 →
    (wbits w 62 60 = 1 → s.dev.fbit F.GLB_PROFILE.LOADED [] = true → wbits w 59 58 ≠ s.dev.fget F.GLB_FUSE.SLOT [] →
      s.dev.fuses.programmed = 0b1111#4 → s.dev.fuses.revoked = 0#4 →
      Does (.fuseRevoke w) s fun d =>
        d.img.fuseBusy = some { op := 1, slot := wbits w 59 58, target := wbits w 55 48, start := s.dev.now, base := s.dev.fuses.rollback } ∧
        d.fuses = s.dev.fuses ∧ OnlyRegs [(.IMG_FUSE_CMD, [])] s.dev d) ∧
    (wbits w 62 60 = 2 → s.dev.fuses.rollback < wbits w 55 48 → wbits w 55 48 ≤ s.dev.fget F.GLB_VERSION.SVN [] → wbits w 55 48 ≤ 128 →
      Does (.fuseAdvance w) s fun d =>
        d.img.fuseBusy = some { op := 2, slot := wbits w 59 58, target := wbits w 55 48, start := s.dev.now, base := s.dev.fuses.rollback } ∧
        d.fuses = s.dev.fuses ∧ OnlyRegs [(.IMG_FUSE_CMD, [])] s.dev d) ∧
    (wbits w 62 60 = 3 → s.dev.fuses.deadbolt = false →
      Does (.fuseDeadbolt w) s fun d =>
        d.img.fuseBusy = some { op := 3, slot := wbits w 59 58, target := wbits w 55 48, start := s.dev.now, base := s.dev.fuses.rollback } ∧
        d.fuses = s.dev.fuses ∧ OnlyRegs [(.IMG_FUSE_CMD, [])] s.dev d)) ∧
  (∀ (s : State) (w : Word), s.dev.up = true → s.dev.img.fuseBusy = none → w.getLsbD 63 = true → wbits w 62 60 = 3 → wbits w 47 32 ≠ 0x4C58 →
    Does (.fuseDeadbolt w) s fun d =>
      d.img.fuseBusy = none ∧ d.fget F.IMG_FUSE_CMD.RESULT [] = 2 ∧ d.fbit F.IMG_FUSE_CMD.GO [] = false ∧ Happened d 92 ∧ d.fuses = s.dev.fuses ∧
      OnlyRegsAndEvents [(.IMG_FUSE_CMD, [])] s.dev d) ∧
  (∀ (s : State) (t : Nat) (x : FuseCmd), s.dev.up = true → s.dev.img.fuseBusy = some x → x.start + ms 1 ≤ max s.dev.now t →
    let n := (max s.dev.now t - x.start) / ms 1
    (x.op = 1 → Does (.fuseCommandDone t) s fun d =>
      d.fuses = { s.dev.fuses with revoked := s.dev.fuses.revoked ||| BitVec.ofNat 4 (2 ^ x.slot) } ∧ d.img.fuseBusy = none ∧
      d.fget F.IMG_FUSE_CMD.RESULT [] = 1 ∧ Happened d 92) ∧
    (x.op = 2 → n < x.target - x.base → Does (.fuseCommandDone t) s fun d =>
      d.fuses = { s.dev.fuses with rollback := max s.dev.fuses.rollback (x.base + n) } ∧ d.img.fuseBusy = some x ∧ d.regs = s.dev.regs) ∧
    (x.op = 3 → Does (.fuseCommandDone t) s fun d =>
      d.fuses = { s.dev.fuses with deadbolt := true } ∧ d.img.fuseBusy = none ∧ d.fget F.IMG_FUSE_CMD.RESULT [] = 1 ∧ Happened d 92)) ∧
  (∀ (s : State) (w : Word), s.dev.up = true → s.dev.fuses.deadbolt = false → w.getLsbD 63 = true → wbits w 62 56 = 1 → wbits w 55 40 < 2 →
    wbits w 31 0 < 65536 →
    Does (.storeReadback w) s fun d =>
      d.rget .IMG_RDBK_DATA [0] = mget 0 s.dev.csq.store (wbits w 55 40 * 65536 + wbits w 31 0) ∧ d.rget .IMG_RDBK_DATA [1] = 0 ∧
      d.fbit F.IMG_RDBK_ADDR.GO [] = false ∧ d.counters = s.dev.counters ∧
      OnlyRegs ((.IMG_RDBK_ADDR, []) :: (List.range 8).map fun k => (.IMG_RDBK_DATA, [k])) s.dev d)

/-! ### Frames, parse words and patterns (chapter 06) -/

/-- The header vector as bytes and bits: a byte string written at byte b puts its bytes there, big end first, and leaves the others; a bit field
written is read back, and no bit outside it changes. -/
def Obligations.HeaderVectorWrites : Prop :=
  (∀ (h : Hv) (b i : Nat) (l : List Byte), b + l.length ≤ 704 → i < 768 →
    (h.setBytes b l 704).byte i = if b ≤ i ∧ i < b + l.length then l.getD (i - b) 0 else h.byte i) ∧
  (∀ (h : Hv) (hi lo v i : Nat), lo ≤ hi → hi < 6144 →
    (h.put hi lo v).getLsbD i = if lo ≤ i ∧ i ≤ hi then v.testBit (i - lo) else h.getLsbD i)

/-- Frames at the MAC. The first bytes of a frame on an UP port with room in its FIFO begin a frame that carries the port, the bytes and the time; a
tail that makes fewer than 64 B is a runt, counted and gone; one with the right FCS ends the frame. A frame whose condition is met and that is the
oldest of its port's FIFO is bound to a free context, at its port's ENTRY with CUR 0; without a free context it waits and is counted. -/
def Obligations.FrameArrival : Prop :=
  (∀ (s : State) (t p : Nat) (bytes : List Byte), s.dev.active = true → p < 1024 → s.dev.portUp p = true → s.dev.arriving p = none →
    s.dev.fifoBytes p + bytes.length ≤ s.dev.fifoSize p → s.dev.fbit F.FAB_STK.EN [] = false → s.dev.fget F.TIM_TSCORR.ING [p] = 0 →
    s.dev.phaseValid = false →
    Does (.frameReceive t p true bytes) s fun d =>
      d.prs.frames = s.dev.prs.frames ++
        [{ id := s.dev.prs.nextId, port := p, bytes := bytes, ts := tStamp (s.dev.advanceTo t).fab, loc := .fifo, pinv := true }] ∧
      d.prs.nextId = s.dev.prs.nextId + 1 ∧ d.counters = s.dev.counters) ∧
  (∀ (s : State) (t p : Nat) (x : Frame) (bytes : List Byte), s.dev.active = true → s.dev.arriving p = some x → s.dev.frame? x.id = some x →
    x.bytes.length + bytes.length < 64 → x.caps = [] → s.dev.buf.copies = [] →
    Does (.frameTailArrive t p 0 bytes) s fun d =>
      d.prs.frames = s.dev.prs.frames.filter (fun y => y.id != x.id) ∧
      d.counter (Ct.LN_RX_RUNT_CNT p) = s.dev.counter (Ct.LN_RX_RUNT_CNT p) + 1 ∧ d.regs = s.dev.regs) ∧
  (∀ (s : State) (t p : Nat) (x : Frame) (bytes : List Byte), s.dev.active = true → s.dev.arriving p = some x → s.dev.frame? x.id = some x →
    x.loc = .fifo → x.bad = none → x.caps = [] → x.metered = [] → x.digested = [] → x.parse.deferred = [] → x.stk = [] → s.dev.buf.copies = [] →
    let all := x.bytes ++ bytes
    64 ≤ all.length → all.length ≤ s.dev.maxFrame p → all.drop (all.length - 4) = fcsOf (all.take (all.length - 4)) →
    Does (.frameTailArrive t p 0 bytes) s fun d =>
      d.frame? x.id = some { x with bytes := all, ended := true } ∧
      d.counter (Ct.LN_RX_FRAMES p) = s.dev.counter (Ct.LN_RX_FRAMES p) + 1 ∧
      d.counter (Ct.LN_RX_BYTES p) = s.dev.counter (Ct.LN_RX_BYTES p) + BitVec.ofNat 64 all.length ∧ d.regs = s.dev.regs) ∧
  (∀ (s : State) (f : Nat) (x : Frame), s.dev.active = true → s.dev.frame? f = some x → s.dev.canBind x = true →
    s.dev.boundCount (s.dev.portSlice x.port) < 96 →
    Does (.frameBind f) s fun d =>
      ∃ y, d.frame? f = some y ∧ y.loc = .bound ∧ y.bytes = x.bytes ∧ y.parse.cur = 0 ∧ y.parse.slots = 0 ∧ y.parse.ended = false ∧
        y.boundSeq = s.dev.prs.nextBind ∧ y.vec.disp = dispReset ∧ y.vec.hv.get 31 22 = x.port % 1024 ∧ (∀ i < 704, x.stk = [] → y.vec.hv.byte i = 0) ∧
        d.prs.nextBind = s.dev.prs.nextBind + 1) ∧
  (∀ (s : State) (f : Nat) (x : Frame), s.dev.active = true → s.dev.frame? f = some x → s.dev.canBind x = true →
    96 ≤ s.dev.boundCount (s.dev.portSlice x.port) →
    Does (.frameBind f) s fun d => d = s.dev.count (Ct.PRS_CTX_WAIT (s.dev.portSlice x.port)) 1)

/-- Parse words that read or write the header vector, the cursor and the scratch registers. Of the whole device each changes its frame alone: the
header vector, CUR, a mark, the flags, a scratch register or a hash selection as the word's body says, and the next word. -/
def Obligations.ParseWordsMove : Prop :=
  (∀ (s : State) (f : Nat) (x : Frame) (w : PWord), Parses s.dev f 1 x w → w.get 57 0 = 0 →
    let put := fun (h : Hv) (en off len dst : Nat) => if en = 1 then h.setBytes dst (slice x.bytes (x.parse.cur + off) (len + 1)) 704 else h
    (w.get 107 107 = 1 → w.get 92 83 + w.get 97 93 + 1 ≤ 704 ∧ Present x (x.parse.cur + w.get 106 98 + w.get 97 93 + 1)) →
    (w.get 82 82 = 1 → w.get 67 58 + w.get 72 68 + 1 ≤ 704 ∧ Present x (x.parse.cur + w.get 81 73 + w.get 72 68 + 1)) →
    Does (.ext f false) s fun d => FrameBecomes s.dev d f
      { stepParse x w (w.get 121 110) with vec := { x.vec with
          hv := put (put x.vec.hv (w.get 107 107) (w.get 106 98) (w.get 97 93) (w.get 92 83)) (w.get 82 82) (w.get 81 73) (w.get 72 68) (w.get 67 58) } }) ∧
  (∀ (s : State) (f : Nat) (x : Frame) (w : PWord), Parses s.dev f 2 x w → w.get 45 0 = 0 →
    let put := fun (h : Hv) (en src n dst : Nat) => if en = 1 then h.put (dst + n) dst (x.field src (n + 1)) else h
    (w.get 107 107 = 1 → 512 ≤ w.get 89 77 ∧ w.get 89 77 + w.get 94 90 + 1 ≤ 6144 ∧ Present x (x.parse.cur + (w.get 106 95 + w.get 94 90) / 8 + 1)) →
    (w.get 76 76 = 1 → 512 ≤ w.get 58 46 ∧ w.get 58 46 + w.get 63 59 + 1 ≤ 6144 ∧ Present x (x.parse.cur + (w.get 75 64 + w.get 63 59) / 8 + 1)) →
    Does (.extf f false) s fun d => FrameBecomes s.dev d f
      { stepParse x w (w.get 121 110) with vec := { x.vec with
          hv := put (put x.vec.hv (w.get 107 107) (w.get 106 95) (w.get 94 90) (w.get 89 77)) (w.get 76 76) (w.get 75 64) (w.get 63 59) (w.get 58 46) } }) ∧
  (∀ (s : State) (f len : Nat) (x : Frame) (w : PWord), Parses s.dev f 3 x w → w.get 55 0 = 0 → w.get 106 104 ≤ 5 → w.get 80 76 ≤ 15 →
    let y := stepParse x w (w.get 121 110)
    let k := w.get 106 104
    ((w.get 103 102 = 0 ∧ len = w.get 101 93) ∨
     (w.get 103 102 = 1 ∧ Present x (x.parse.cur + (w.get 92 81 + w.get 80 76) / 8 + 1) ∧ w.get 64 56 ≤ len ∧
       len = x.field (w.get 92 81) (w.get 80 76 + 1) * 2 ^ w.get 75 74 + w.get 73 65) ∨
     (w.get 103 102 = 2 ∧ w.get 92 81 ≤ 3 ∧ w.get 64 56 ≤ len ∧ len = x.parse.scratch.getD (w.get 92 81) 0 * 2 ^ w.get 75 74 + w.get 73 65)) →
    x.parse.cur + len ≤ 65535 →
    Does (.adv f false) s fun d => FrameBecomes s.dev d f
      { y with parse := { y.parse with cur := x.parse.cur + len },
               vec := { x.vec with hv := if w.get 107 107 = 1 then x.vec.hv.put (393 + 10 * k) (384 + 10 * k) (min 1022 x.parse.cur) else x.vec.hv } }) ∧
  (∀ (s : State) (f raw : Nat) (x : Frame) (w : PWord), Parses s.dev f 4 x w → w.get 88 84 = 0 →
    ((w.get 101 100 = 0 ∧ Present x (x.parse.cur + w.get 107 102 + 2) ∧ raw = beNat (slice x.bytes (x.parse.cur + w.get 107 102) 2)) ∨
     (w.get 101 100 = 1 ∧ Present x (x.parse.cur + w.get 107 102 + 1) ∧ raw = beNat (slice x.bytes (x.parse.cur + w.get 107 102) 1)) ∨
     (w.get 101 100 = 2 ∧ w.get 107 102 ≤ 3 ∧ raw = x.parse.scratch.getD (w.get 107 102) 0)) →
    let n := if w.get 95 92 = 0 then 16 else w.get 95 92
    let key := raw / 2 ^ w.get 99 96 % 2 ^ n
    let hit := fun k => w.get (89 + k) (89 + k) = 1 ∧ w.get (83 - 28 * k) (68 - 28 * k) % 2 ^ n = key
    ∃ pc, (hit 0 → pc = w.get 67 56) ∧ (¬ hit 0 → hit 1 → pc = w.get 39 28) ∧ (¬ hit 0 → ¬ hit 1 → hit 2 → pc = w.get 11 0) ∧
      (¬ hit 0 → ¬ hit 1 → ¬ hit 2 → pc = w.get 121 110) ∧
      Does (.sel f false) s fun d => FrameBecomes s.dev d f (stepParse x w pc)) ∧
  (∀ (s : State) (f v : Nat) (x : Frame) (w : PWord), Parses s.dev f 8 x w → w.get 23 0 = 0 →
    let old := x.parse.scratch.getD (w.get 41 40) 0
    let y := stepParse x w (w.get 121 110)
    ((w.get 43 42 = 0 ∧ v = old) ∨ (w.get 43 42 = 1 ∧ v = w.get 39 28) ∨
     (w.get 43 42 = 2 ∧ Present x (x.parse.cur + (w.get 39 28 + w.get 27 24) / 8 + 1) ∧ v = x.field (w.get 39 28) (w.get 27 24 + 1)) ∨
     (w.get 43 42 = 3 ∧ v = old - 1)) →
    Does (.parseSet f false) s fun d => FrameBecomes s.dev d f
      { y with parse := { y.parse with scratch := x.parse.scratch.set (w.get 41 40) (v % 65536) },
               vec := { x.vec with hv := x.vec.hv.put 479 448 ((x.vec.hv.flags &&& (2 ^ 32 - 1 - w.get 75 44)) ||| w.get 107 76) } }) ∧
  (∀ (s : State) (f : Nat) (x : Frame) (w : PWord), Parses s.dev f 9 x w → w.get 102 0 = 0 →
    let y := stepParse x w (w.get 121 110)
    Does (.parseHash f false) s fun d => FrameBecomes s.dev d f
      { y with parse := { y.parse with h0 := if w.get 107 107 = 0 then some (w.get 106 103) else x.parse.h0,
                                       h1 := if w.get 107 107 = 1 then some (w.get 106 103) else x.parse.h1 } })

/-- Parse words that check, wait and end. A CHK that holds only leads on; a LENGTH relation that cannot be made yet is deferred. A check that fails
drops the frame under its class's action 0 and is counted. SCAN asks for its window, WAIT leads to NEXT or ALT or stalls for one slot, END ends the
parse with SLOTS and DEPTH, and so does a budget that is used up, as class 4. -/
def Obligations.ParseWordsCheck : Prop :=
  (∀ (s : State) (f : Nat) (x : Frame) (w : PWord), Parses s.dev f 5 x w → w.get 107 106 = 0 → w.get 64 0 = 0 → w.get 93 89 ≤ 15 → x.ended = true →
    Present x (x.parse.cur + (w.get 105 94 + w.get 93 89) / 8 + 1) →
    let v := x.field (w.get 105 94) (w.get 93 89 + 1)
    let n := v * 2 ^ w.get 88 87 + w.get 86 78
    let rem := x.bytes.length - 4 - x.parse.cur
    w.get 77 69 ≤ v → (if w.get 68 68 = 1 then n = rem else n ≤ rem) →
    Does (.chkLength f false) s fun d => FrameBecomes s.dev d f (stepParse x w (w.get 121 110))) ∧
  (∀ (s : State) (f : Nat) (x : Frame) (w : PWord), Parses s.dev f 5 x w → w.get 107 106 = 0 → w.get 64 0 = 0 → w.get 93 89 ≤ 15 → x.ended = false →
    Present x (x.parse.cur + (w.get 105 94 + w.get 93 89) / 8 + 1) → w.get 77 69 ≤ x.field (w.get 105 94) (w.get 93 89 + 1) →
    let y := stepParse x w (w.get 121 110)
    Does (.chkLength f false) s fun d => FrameBecomes s.dev d f
      { y with parse := { y.parse with deferred := x.parse.deferred ++ [{
          value := x.field (w.get 105 94) (w.get 93 89 + 1) * 2 ^ w.get 88 87 + w.get 86 78, rel := w.get 68 68 == 1, cur := x.parse.cur }] } }) ∧
  (∀ (s : State) (f : Nat) (x : Frame) (w : PWord), Parses s.dev f 5 x w → w.get 107 106 = 1 → w.get 64 0 = 0 → w.get 93 89 ≤ 15 →
    Present x (x.parse.cur + (w.get 105 94 + w.get 93 89) / 8 + 1) →
    let n := x.field (w.get 105 94) (w.get 93 89 + 1) * 2 ^ w.get 88 87 + w.get 86 78
    Present x (x.parse.cur + n) →
    (onesSumBytes (slice x.bytes x.parse.cur n) = 0xFFFF →
      Does (.chkCsum f false) s fun d => FrameBecomes s.dev d f (stepParse x w (w.get 121 110))) ∧
    (onesSumBytes (slice x.bytes x.parse.cur n) ≠ 0xFFFF → x.port < 1024 → x.ended = true → x.parse.get F.PRS_MALF.ACTION [s.dev.portSlice x.port, 3] = 0 →
      Does (.chkCsum f false) s fun d =>
        d.prs.frames = s.dev.prs.frames.filter (fun z => z.id != f) ∧
        d.counter (Ct.PRS_MALF_CNT (16 * x.port + 3)) = s.dev.counter (Ct.PRS_MALF_CNT (16 * x.port + 3)) + 1)) ∧
  (∀ (s : State) (f : Nat) (x : Frame) (w : PWord), Parses s.dev f 5 x w → w.get 107 106 = 2 → w.get 64 0 = 0 → w.get 93 89 ≤ 5 →
    Present x (x.parse.cur + (w.get 105 94 + w.get 93 89) / 8 + 1) →
    bitN (x.parse.get F.PRS_OPTSET.ALLOW [s.dev.portSlice x.port, w.get 67 65]) (x.field (w.get 105 94) (w.get 93 89 + 1)) = true →
    Does (.chkOption f false) s fun d => FrameBecomes s.dev d f (stepParse x w (w.get 121 110))) ∧
  (∀ (s : State) (f : Nat) (x : Frame) (w : PWord), Parses s.dev f 6 x w → w.get 87 0 = 0 → 0 < w.get 97 88 → w.get 97 88 ≤ 512 → x.parse.scan = none →
    let st := (if w.get 107 107 = 1 then x.parse.cur else 0) + w.get 106 98
    st < (if x.ended then x.bytes.length - 4 else x.bytes.length) → st + w.get 97 88 ≤ x.parse.window →
    let y := stepParse x w (w.get 121 110)
    Does (.scan f false) s fun d => FrameBecomes s.dev d f
      { y with parse := { y.parse with scan := some (st, w.get 97 88) }, vec := { x.vec with hv := x.vec.hv.put 493 493 1 } }) ∧
  (∀ (s : State) (f : Nat) (x : Frame) (w : PWord), Parses s.dev f 7 x w → w.get 107 106 = 0 → w.get 19 0 = 0 → 0 < w.get 105 96 → w.get 105 96 ≤ 512 →
    let here := x.parse.cur + w.get 105 96 ≤ (if x.ended then x.bytes.length - 4 else x.bytes.length)
    ((here → Does (.parseWaitBytes f false) s fun d => FrameBecomes s.dev d f (stepParse x w (w.get 121 110))) ∧
     (¬ here → x.ended = true → Does (.parseWaitBytes f false) s fun d => FrameBecomes s.dev d f (stepParse x w (w.get 95 84))) ∧
     (¬ here → x.ended = false → Does (.parseWaitBytes f false) s fun d =>
       d.prs.frames = s.dev.prs.frames.map fun z => if z.id = f then { z with parse := { z.parse with slots := z.parse.slots + 1 } } else z))) ∧
  (∀ (s : State) (f : Nat) (x : Frame) (w : PWord), Parses s.dev f 7 x w → w.get 107 106 = 1 → w.get 19 0 = 0 → x.parse.scan ≠ none →
    x.parse.scanDone = true →
    Does (.parseWaitScan f false) s fun d =>
      FrameBecomes s.dev d f (stepParse x w (if bitsN x.vec.scanV 319 256 &&& w.get 83 20 = 0 then w.get 121 110 else w.get 95 84))) ∧
  (∀ (s : State) (f : Nat) (x : Frame) (w : PWord), Parses s.dev f 10 x w → w.get 103 0 = 0 → w.get 107 107 = 0 →
    Does (.endParse f false) s fun d =>
      ∃ y, d.frame? f = some y ∧ y.loc = .bound ∧ y.parse.ended = true ∧ y.bytes = x.bytes ∧
        y.vec.hv.get 507 500 = min 255 (x.parse.slots + 1) ∧ y.vec.hv.get 499 496 = min 15 (x.parse.depth + w.get 108 108) ∧
        (∀ i < 704, y.vec.hv.byte i = x.vec.hv.byte i) ∧ d.counters = s.dev.counters) ∧
  (∀ (s : State) (f : Nat) (x : Frame), s.dev.active = true → s.dev.frame? f = some x → x.loc = .bound → x.parse.ended = false →
    x.parse.budget ≤ x.parse.slots → x.port < 1024 → x.ended = true → x.parse.get F.PRS_MALF.ACTION [s.dev.portSlice x.port, 4] = 0 →
    Does (.parseBudgetExceeded f) s fun d =>
      d.prs.frames = s.dev.prs.frames.filter (fun z => z.id != f) ∧
      d.counter (Ct.PRS_MALF_CNT (16 * x.port + 4)) = s.dev.counter (Ct.PRS_MALF_CNT (16 * x.port + 4)) + 1)

/-- The pattern scanner and the release of header vectors. A scan whose window is there completes: with one pattern in use, its lowest hit gives
HIT_VALID, HIT_COUNT 1, HIT_INDEX, HIT_OFFSET and its class. A vector whose parse has ended enters stage 0 in its port's order. A pattern is written
whole from the staging registers, read back into them, and invalidated; in the active half a write is refused, RESULT 2 with event 137. -/
def Obligations.ScannerAndRelease : Prop :=
  (∀ (s : State) (f i st len o : Nat) (x : Frame) (p : Pattern), s.dev.active = true → s.dev.frame? f = some x → x.parse.scan = some (st, len) →
    x.parse.scanDone = false → x.ended = false → st + len ≤ x.bytes.length →
    s.dev.patterns (s.dev.portSlice x.port) x.parse.scanHalf = [(i, p)] → p.hit (slice x.bytes st len) st = some o → i < 4096 → p.cls < 64 → o < 1024 →
    Does (.scanComplete f) s fun d =>
      d = { s.dev with prs := { s.dev.prs with frames := s.dev.prs.frames.map fun z =>
        if z.id = f then
          { z with parse := { z.parse with scanDone := true },
                   vec := { z.vec with scanV := 2 ^ 383 + 2 ^ 374 + i * 2 ^ 362 + o * 2 ^ 352 + 2 ^ p.cls * 2 ^ 256 } }
        else z } }) ∧
  (∀ (s : State) (f : Nat) (x : Frame), s.dev.active = true → s.dev.frame? f = some x → x.loc = .bound → x.parse.ended = true → x.scanReady = true →
    s.dev.fbit F.MAI_CTL.HOLD [s.dev.portSlice x.port] = false → s.dev.img.staging = none →
    (∀ y ∈ s.dev.prs.frames, y.port = x.port → y.loc = .bound → x.boundSeq ≤ y.boundSeq) →
    Does (.hvRelease f) s fun d =>
      (∃ y, d.frame? f = some y ∧ y.loc = .stage 0 ∧ y.bytes = x.bytes ∧ (x.ended = true → y.vec.hv.get 494 494 = 1)) ∧ d.counters = s.dev.counters ∧
      OnlyRegs [(.PRS_STATUS, [s.dev.portSlice x.port])] s.dev d) ∧
  (∀ (s : State) (sl i : Nat), s.dev.up = true → sl < 32 → i < 4096 → s.dev.fbit F.PRS_SCAN_CTL.SPLIT [sl] = false →
    Does (.patternWrite sl i) s fun d =>
      (d.pattern sl i).data = (List.range 8).map (fun w => s.dev.rget .PRS_PAT_DATA [sl, w]) ∧
      (d.pattern sl i).valid = s.dev.fbit F.PRS_PAT_ATTR.VALID [sl] ∧ (d.pattern sl i).len = s.dev.fget F.PRS_PAT_ATTR.LEN [sl] + 1 ∧
      (d.pattern sl i).cls = s.dev.fget F.PRS_PAT_ATTR.CLASS [sl] ∧ d.fget F.PRS_PAT_CMD.RESULT [sl] = 1 ∧
      (∀ k, k ≠ sl * 4096 + i → mget? d.prs.pats k = mget? s.dev.prs.pats k) ∧ OnlyRegs [(.PRS_PAT_CMD, [sl])] s.dev d ∧ d.counters = s.dev.counters) ∧
  (∀ (s : State) (sl i : Nat), s.dev.up = true → sl < 32 → i < 4096 → s.dev.fbit F.PRS_SCAN_CTL.SPLIT [sl] = true →
    (2048 ≤ i ↔ s.dev.fbitB F.PRS_SCAN_CTL.ACTIVE [sl] = true) →
    Does (.patternWrite sl i) s fun d =>
      d.prs.pats = s.dev.prs.pats ∧ d.fget F.PRS_PAT_CMD.RESULT [sl] = 2 ∧ Happened d 137 ∧ OnlyRegsAndEvents [(.PRS_PAT_CMD, [sl])] s.dev d) ∧
  (∀ (s : State) (sl i : Nat), s.dev.up = true → sl < 32 → i < 4096 →
    Does (.patternRead sl i) s fun d =>
      (∀ w < 8, d.rget .PRS_PAT_DATA [sl, w] = (s.dev.pattern sl i).data.getD w 0) ∧
      d.fbit F.PRS_PAT_ATTR.VALID [sl] = (s.dev.pattern sl i).valid ∧ d.fget F.PRS_PAT_CMD.RESULT [sl] = 1 ∧ d.prs.pats = s.dev.prs.pats ∧
      d.counters = s.dev.counters) ∧
  (∀ (s : State) (sl i : Nat), s.dev.up = true → sl < 32 → i < 4096 → s.dev.fbit F.PRS_SCAN_CTL.SPLIT [sl] = false →
    Does (.patternInvalidate sl i) s fun d =>
      (d.pattern sl i).valid = false ∧ (d.pattern sl i).data = (s.dev.pattern sl i).data ∧ d.fget F.PRS_PAT_CMD.RESULT [sl] = 1 ∧
      OnlyRegs [(.PRS_PAT_CMD, [sl])] s.dev d)

/-! ### Match-action stages and tables (chapters 07 and 08) -/

/-- A vector passes a stage. With no lookup enabled and the empty action word, a frame in an ingress stage before the last, or a copy in an egress
stage before the last, goes on to the next with its vector unchanged. An unconditional SETI slot writes its field. A word whose bits 511:508 are
not 1 is illegal: it is counted, raises event 160, and the frame is dropped. -/
def Obligations.MatchStages : Prop :=
  (∀ (s : State) (f i k : Nat) (x : Frame), s.dev.active = true → s.dev.frame? f = some x → x.loc = .stage i → i < 15 → i ≠ 4 →
    x.metered = [] → x.digested = [] →
    let sl := s.dev.portSlice x.port
    s.dev.fget F.MAI_STAGE.LUEN [sl, i] = 0 → (∀ j < 4, s.dev.fbit F.MAI_LU.REN [sl, i, j] = false ∧ s.dev.fbit F.MAI_LU.DEN [sl, i, j] = false) →
    x.vec.get F.MAI_STAGE.DEFAULT [sl, i] = k →
    (mget 0 s.dev.mat.store (sl * 16384 + k) = BitVec.ofNat 512 (2 ^ 508) →
      Does (.matchStage false f [] false) s fun d =>
        d.prs.frames = (s.dev.prs.frames.map fun z => if z.id = f then { z with vec := x.vec, loc := .stage (i + 1) } else z) ∧
        OnlyRegs [(.MAI_STATUS, [sl])] s.dev d ∧ d.tmem = s.dev.tmem ∧ d.counters = s.dev.counters) ∧
    (∀ dst w imm : Nat, w < 16 → imm < 65536 → 512 ≤ dst → dst + w + 1 ≤ 6144 →
      mget 0 s.dev.mat.store (sl * 16384 + k) = BitVec.ofNat 512 (2 ^ 508 + (2 * 2 ^ 55 + dst * 2 ^ 35 + w * 2 ^ 31 + imm * 2 ^ 15)) →
      Does (.matchStage false f [] false) s fun d =>
        d.prs.frames = (s.dev.prs.frames.map fun z =>
          if z.id = f then { z with vec := { x.vec with hv := x.vec.hv.put (dst + w) dst imm }, loc := .stage (i + 1) } else z) ∧
        OnlyRegs [(.MAI_STATUS, [sl])] s.dev d ∧ d.tmem = s.dev.tmem) ∧
    (mget 0 s.dev.mat.store (sl * 16384 + k) = 0 → x.ended = true →
      Does (.matchStage false f [] false) s fun d =>
        d.prs.frames = s.dev.prs.frames.filter (fun z => z.id != f) ∧
        d.counter (Ct.MA_ILLEGAL_CNT sl) = s.dev.counter (Ct.MA_ILLEGAL_CNT sl) + 1 ∧ Happened d 160 ∧
        OnlyRegsAndEvents [(.MAI_STATUS, [sl]), (.MAI_ILLEGAL, [sl])] s.dev d ∧ d.tmem = s.dev.tmem)) ∧
  (∀ (s : State) (i : Nat) (c : Copy), s.dev.active = true → s.dev.copy? i = some c → c.staged = true → c.estage < 11 →
    let sl := s.dev.portSlice c.port
    s.dev.fget F.MAE_STAGE.LUEN [sl, c.estage] = 0 →
    (∀ j < 4, s.dev.fbit F.MAE_LU.REN [sl, c.estage, j] = false ∧ s.dev.fbit F.MAE_LU.DEN [sl, c.estage, j] = false) →
    mget 0 s.dev.mat.store (sl * 16384 + c.vec.get F.MAE_STAGE.DEFAULT [sl, c.estage]) = BitVec.ofNat 512 (2 ^ 508) →
    Does (.matchStage true i [] false) s fun d =>
      d.buf.copies = (s.dev.buf.copies.map fun z => if z.id = i then { z with vec := c.vec, estage := z.estage + 1 } else z) ∧
      OnlyRegs [(.MAE_STATUS, [sl])] s.dev d ∧ d.tmem = s.dev.tmem)

/-- Sash swaps. A trigger of one slice is counted, raises event 163 and waits for the slice's packet boundary; there the group's active sash changes,
and with no vector stamped with the old one no settling begins. A group whose settling has ended clears. A flowlet flush forgets the slice's
entries. The bad-entry log is emptied by CLEAR. A multicast group is written from its staging registers and read back. -/
def Obligations.SwapsGroupsAndLogs : Prop :=
  (∀ (s : State) (sl g : Nat), s.dev.up = true → sl < 32 → s.dev.sliceOn sl = true → g < 64 →
    Does (.sashSwapTrigger sl 0 g) s fun d =>
      mget? d.mat.swaps (sl * 64 + g) = some ((mget? s.dev.mat.swaps (sl * 64 + g)).getD 0 + 1) ∧
      d.counter (Ct.MA_SWAP_CNT sl) = s.dev.counter (Ct.MA_SWAP_CNT sl) + 1 ∧ Happened d 163 ∧ OnlyRegsAndEvents [(.MAI_SWAP, [sl])] s.dev d) ∧
  (∀ (s : State) (sl g : Nat), s.dev.active = true → sl < 32 → s.dev.sliceOn sl = true → g < 64 → s.dev.mat.swaps = [(sl * 64 + g, 1)] →
    s.dev.mat.needSash = [] → s.dev.prs.frames = [] → s.dev.buf.copies = [] → s.dev.fbit F.PRS_SCAN_CTL.GROUP_EN [sl] = false →
    Does (.sashSwapTakesEffect sl) s fun d =>
      d.fget F.MAI_SASH_STATE.ACTIVE [sl] = s.dev.fget F.MAI_SASH_STATE.ACTIVE [sl] ^^^ 2 ^ g ∧
      d.fget F.MAI_SASH_SETTLE.SETTLE [sl] = s.dev.fget F.MAI_SASH_SETTLE.SETTLE [sl] ∧ (mget? d.mat.swaps (sl * 64 + g)).getD 0 = 0 ∧
      OnlyRegs [(.MAI_SASH_STATE, [sl]), (.MAI_SASH_SETTLE, [sl])] s.dev d) ∧
  (∀ (s : State) (sl : Nat), s.dev.active = true → sl < 32 → s.dev.prs.frames = [] → s.dev.buf.copies = [] → mget? s.dev.mat.waiting sl = none →
    Does (.sashSettleEnd sl) s fun d =>
      d.fget F.MAI_SASH_SETTLE.SETTLE [sl] = 0 ∧ OnlyRegs [(.MAI_SASH_SETTLE, [sl])] s.dev d ∧ d.tmem = s.dev.tmem ∧ d.counters = s.dev.counters) ∧
  (∀ (s : State) (sl : Nat), s.dev.up = true → sl < 32 →
    Does (.flowletFlush sl) s fun d =>
      (∀ x ∈ d.mat.flowlets, x.1 / 16384 ≠ sl) ∧ (∀ x ∈ s.dev.mat.flowlets, x.1 / 16384 ≠ sl → x ∈ d.mat.flowlets) ∧
      OnlyRegs [(.MAI_FLOWLET, [sl])] s.dev d) ∧
  (∀ (s : State) (sl : Nat), s.dev.up = true → sl < 32 →
    Does (.badlogClear sl) s fun d =>
      d.fget F.TBL_BADLOG_CTL.COUNT [sl] = 0 ∧ (∀ i < 16, d.rget .TBL_BADLOG [sl, i] = 0) ∧ d.counters = s.dev.counters ∧
      OnlyRegs ((.TBL_BADLOG_CTL, [sl]) :: (List.range 16).map fun i => (.TBL_BADLOG, [sl, i])) s.dev d) ∧
  (∀ (s : State) (g : Nat) (prune : Bool), s.dev.up = true → g < 65536 → s.dev.rget .XFS_MCG_DATA [0] ≠ 0 →
    Does (.mcgWrite g prune) s fun d =>
      d.group g = (List.range 16).map (fun w => s.dev.rget .XFS_MCG_DATA [w]) ∧ d.mat.prune.contains g = prune ∧
      (∀ k, k ≠ g → d.group k = s.dev.group k) ∧ OnlyRegs [(.XFS_MCG_CMD, [])] s.dev d) ∧
  (∀ (s : State) (g : Nat), s.dev.up = true → g < 65536 →
    Does (.mcgRead g) s fun d =>
      (∀ w < 16, d.rget .XFS_MCG_DATA [w] = (s.dev.group g).getD w 0) ∧ d.fbit F.XFS_MCG_CMD.PRUNE [] = s.dev.mat.prune.contains g ∧
      d.mat = s.dev.mat ∧ OnlyRegs ((.XFS_MCG_CMD, []) :: (List.range 16).map fun w => (.XFS_MCG_DATA, [w])) s.dev d)

/-- Table commands. WDATA writes the table's DLEN bytes and nothing else, RDATA returns them. In a direct table INSERT and WRITE write the entry,
UPDATE and DELETE change one that is there, and READ returns it. In an exact table LOOKUP finds a key or answers 1, and INSERT of an absent key takes
the first free entry of its way 0 bucket; AGE of an empty table deletes nothing. A write of a dual-sash table's active sash is refused with 4. A
store to a taken command path is discarded, counted and raises event 182. -/
def Obligations.TableCommands : Prop :=
  (∀ (s : State) (sl t idx : Nat) (td : TDesc), TableFree s.dev sl t 8 td → td.dual = false → td.dlen ≠ 0 → idx < 2 ^ 20 → 16 * idx + td.dlen ≤ 4194304 →
    Does (.tblWdata sl t 0 idx) s fun d =>
      Answered d sl 0 ∧ d.tread sl (16 * idx) td.dlen = beBytes td.dlen ((s.dev.tblImg sl).toNat / 2 ^ (512 - 8 * td.dlen)) ∧
      MemSame sl (16 * idx) td.dlen s.dev d ∧ OnlyRegs [(.TBL_CMD, [sl])] s.dev d ∧ d.counters = s.dev.counters) ∧
  (∀ (s : State) (sl t idx : Nat) (td : TDesc), TableFree s.dev sl t 9 td → td.dual = false → td.dlen ≠ 0 → idx < 2 ^ 20 → 16 * idx + td.dlen ≤ 4194304 →
    s.dev.tbad sl (16 * idx) td.dlen = false →
    Does (.tblRdata sl t 0 idx []) s fun d =>
      Answered d sl 0 ∧ (d.tblImg sl).toNat = beNat (s.dev.tread sl (16 * idx) td.dlen) * 2 ^ (512 - 8 * td.dlen) ∧ d.tmem = s.dev.tmem ∧
      OnlyRegs (cmdRegs sl) s.dev d ∧ d.counters = s.dev.counters) ∧
  (∀ (s : State) (sl t op idx : Nat) (td : TDesc) (mk : Nat → Nat → Nat → Nat → Instr), (op, mk) ∈ ([(1, .tblInsert), (6, .tblWrite)] : List (Nat × (Nat → Nat → Nat → Nat → Instr))) →
    TableFree s.dev sl t op td → td.kind = .direct → td.dual = false → idx < 2 ^ td.slog → idx < 2 ^ 20 → td.daddr 0 idx + 8 ≤ 4194304 →
    Does (mk sl t 0 idx) s fun d =>
      Answered d sl 0 ∧ Img.valid (d.drImg td 0 idx) = Img.valid (s.dev.tblImg sl) ∧
      Img.bits (d.drImg td 0 idx) 479 448 = Img.bits (s.dev.tblImg sl) 479 448 ∧ d.drBad td 0 idx = false ∧
      MemSame sl (td.daddr 0 idx) 8 s.dev d ∧ OnlyRegs [(.TBL_CMD, [sl])] s.dev d) ∧
  (∀ (s : State) (sl t idx : Nat) (td : TDesc), TableFree s.dev sl t 3 td → td.kind = .direct → td.dual = false → idx < 2 ^ td.slog → idx < 2 ^ 20 →
    td.daddr 0 idx + 8 ≤ 4194304 → s.dev.drBad td 0 idx = false →
    Does (.tblUpdate sl t 0 idx) s fun d =>
      (Img.valid (s.dev.drImg td 0 idx) = true → Answered d sl 0 ∧ Img.bits (d.drImg td 0 idx) 479 448 = Img.bits (s.dev.tblImg sl) 479 448) ∧
      (Img.valid (s.dev.drImg td 0 idx) = false → Answered d sl 1 ∧ d.tmem = s.dev.tmem) ∧
      MemSame sl (td.daddr 0 idx) 8 s.dev d ∧ OnlyRegs [(.TBL_CMD, [sl])] s.dev d) ∧
  (∀ (s : State) (sl t idx : Nat) (td : TDesc), TableFree s.dev sl t 2 td → td.kind = .direct → td.dual = false → idx < 2 ^ td.slog → idx < 2 ^ 20 →
    td.daddr 0 idx + 8 ≤ 4194304 → s.dev.drBad td 0 idx = false →
    Does (.tblDelete sl t 0 idx) s fun d =>
      (Img.valid (s.dev.drImg td 0 idx) = true → Answered d sl 0 ∧ Img.valid (d.drImg td 0 idx) = false ∧ d.drBad td 0 idx = false) ∧
      (Img.valid (s.dev.drImg td 0 idx) = false → Answered d sl 1 ∧ d.tmem = s.dev.tmem) ∧
      MemSame sl (td.daddr 0 idx) 8 s.dev d ∧ OnlyRegs [(.TBL_CMD, [sl])] s.dev d) ∧
  (∀ (s : State) (sl t idx : Nat) (td : TDesc), TableFree s.dev sl t 5 td → td.kind = .direct → td.dual = false → idx < 2 ^ td.slog → idx < 2 ^ 20 →
    s.dev.drBad td 0 idx = false →
    Does (.tblRead sl t 0 idx []) s fun d =>
      Answered d sl 0 ∧ d.tblImg sl = s.dev.drImg td 0 idx ∧ d.tmem = s.dev.tmem ∧ OnlyRegs (cmdRegs sl) s.dev d) ∧
  (∀ (s : State) (sl t : Nat) (td : TDesc), TableFree s.dev sl t 4 td → td.kind = .exact → td.dual = false →
    let found := s.dev.exFind td 0 (td.keyOf (td.normal (s.dev.tblImg sl) false))
    found.2 = [] →
    Does (.tblLookup sl t 0 0) s fun d =>
      (∀ x e, found.1 = some (x, e) → Answered d sl 0 ∧ d.fget F.TBL_CMD.INDEX [sl] = x % 2 ^ 20 ∧ d.tblImg sl = e) ∧
      (found.1 = none → Answered d sl 1 ∧ d.tblImg sl = s.dev.tblImg sl) ∧ d.tmem = s.dev.tmem ∧ OnlyRegs (cmdRegs sl) s.dev d) ∧
  (∀ (s : State) (sl t x : Nat) (td : TDesc), TableFree s.dev sl t 1 td → td.kind = .exact → td.dual = false → s.dev.fbit F.TBL_LEARN.SHARE [sl, t] = false →
    s.dev.learns td = false → Img.valid (s.dev.tblImg sl) = true →
    let e := td.normal (s.dev.tblImg sl) false
    s.dev.exFind td 0 (td.keyOf e) = (none, []) → s.dev.freeIn td 0 0 (td.bucket 0 (td.keyOf e)) = some x → td.eaddr 0 x + td.ebytes ≤ 4194304 →
    Does (.tblInsert sl t 0 0) s fun d =>
      Answered d sl 0 ∧ d.fget F.TBL_CMD.INDEX [sl] = x ∧ d.exGet td 0 x = e ∧ MemSame sl (td.eaddr 0 x) td.ebytes s.dev d ∧
      OnlyRegs [(.TBL_CMD, [sl])] s.dev d) ∧
  (∀ (s : State) (sl t idx : Nat) (td : TDesc), TableFree s.dev sl t 7 td → idx < 2 ^ 20 → (∀ j < s.dev.ageSteps td, ∀ i ∈ td.ageStep j, s.dev.exGet td 0 i = 0) →
    Does (.tblAge sl t 0 idx) s fun d =>
      Answered d sl 0 ∧ wbits (d.rget .TBL_DATA [sl, 0]) 31 0 = 0 ∧ d.tmem = s.dev.tmem ∧ OnlyRegs (cmdRegs sl) s.dev d ∧ d.counters = s.dev.counters) ∧
  (∀ (s : State) (sl t sash idx : Nat) (td : TDesc), TableFree s.dev sl t 6 td → td.dual = true → sash < 2 → idx < 2 ^ 20 →
    s.dev.badArg td 6 sash idx (s.dev.tblImg sl) = false → (s.dev.fget F.MAI_SASH_STATE.ACTIVE [sl]).testBit td.group = (sash == 1) →
    s.dev.storedBad td 6 sash idx = false →
    Does (.tblWrite sl t sash idx) s fun d => Answered d sl 4 ∧ d.tmem = s.dev.tmem ∧ OnlyRegs [(.TBL_CMD, [sl])] s.dev d) ∧
  (∀ (s : State) (sl t sash idx : Nat), s.dev.up = true → sl < 32 → s.dev.tblTaken sl = true →
    Does (.tblInsert sl t sash idx) s fun d =>
      d.counter (Ct.TBL_CMD_COLLIDE_CNT sl) = s.dev.counter (Ct.TBL_CMD_COLLIDE_CNT sl) + 1 ∧ Happened d 182 ∧ d.tmem = s.dev.tmem ∧
      d.mat = s.dev.mat ∧ OnlyRegsAndEvents [] s.dev d)

/-- Learning and ageing by the table engine. The first learn of a slice's queue for an absent key takes the first free entry of its way 0 bucket,
with the RESULT that R183 gives, and is counted. The first message of the learn ring deletes the key it names. A pass of an ageing unit begins
where the unit is enabled over an exact single-sash table; a step over entries not in use leaves them and goes on, the last one counts the pass. -/
def Obligations.LearningAndAgeing : Prop :=
  (∀ (s : State) (sl x : Nat) (l : Learn) (rest : List Learn), s.dev.active = true → s.dev.mat.learns = l :: rest → l.slice = sl → sl < 32 → l.table < 64 →
    let td := s.dev.tdesc sl l.table
    s.dev.portSlot l.port < 33 → td.kind = .exact → td.dual = false → l.key.length = td.klen → s.dev.exFind td 0 l.key = (none, []) →
    s.dev.freeIn td 0 0 (td.bucket 0 l.key) = some x → td.eaddr 0 x + td.ebytes ≤ 4194304 → s.dev.fbit F.TBL_LEARN.SHARE [sl, l.table] = false →
    Does (.learnApply sl) s fun d =>
      d.mat.learns = rest ∧ d.exGet td 0 x = td.entry l.key (l.act * 2 ^ 18 + l.data) ∧ MemSame sl (td.eaddr 0 x) td.ebytes s.dev d ∧
      d.counter (Ct.TBL_LEARN_CNT (64 * sl + l.table)) = s.dev.counter (Ct.TBL_LEARN_CNT (64 * sl + l.table)) + 1 ∧ d.prs = s.dev.prs) ∧
  (∀ (s : State) (sl x t : Nat) (key : List Byte) (e : Img) (rest : List RingMsg), s.dev.active = true → sl < 32 → t < 64 →
    s.dev.mat.ring = { slice := sl, table := t, op := .delete key } :: rest →
    let td := s.dev.tdesc sl t
    td.kind = .exact → td.dual = false → s.dev.exFind td 0 key = (some (x, e), []) → x < 2 ^ 19 → td.eaddr 0 x + td.ebytes ≤ 4194304 →
    Does (.learnRingMessage sl) s fun d =>
      d.mat.ring = rest ∧ d.exGet td 0 x = 0 ∧ MemSame sl (td.eaddr 0 x) td.ebytes s.dev d ∧ d.counters = s.dev.counters) ∧
  (∀ (s : State) (t sl a : Nat), s.dev.active = true → sl < 32 → a < 4 → s.dev.fbit F.TBL_AGE.EN [sl, a] = true → mget? s.dev.mat.ageStart (sl * 4 + a) = none →
    s.dev.mat.ages = [] → (s.dev.tdesc sl (s.dev.fget F.TBL_AGE.TABLE [sl, a])).kind = .exact → (s.dev.tdesc sl (s.dev.fget F.TBL_AGE.TABLE [sl, a])).dual = false →
    Does (.ageingPassStart t sl a) s fun d =>
      d.mat.ages = [{ slice := sl, unit := a, table := s.dev.fget F.TBL_AGE.TABLE [sl, a] }] ∧ mget? d.mat.ageStart (sl * 4 + a) = some (max s.dev.now t) ∧
      d.regs = s.dev.regs ∧ d.tmem = s.dev.tmem) ∧
  (∀ (s : State) (sl a : Nat) (p : AgePass), s.dev.active = true → s.dev.mat.ages = [p] → p.slice = sl → p.unit = a → sl < 32 → a < 4 →
    let td := s.dev.tdesc sl p.table
    td.kind = .exact → td.dual = false → s.dev.fbit F.TBL_AGE.EN [sl, a] = true → (∀ i ∈ td.ageStep p.next, s.dev.exGet td 0 i = 0) →
    Does (.ageingStep sl a) s fun d =>
      d.tmem = s.dev.tmem ∧ d.counters = s.dev.counters ∧
      (p.next + 1 < s.dev.ageSteps td → d.mat.ages = [{ p with next := p.next + 1 }] ∧ d.regs = s.dev.regs) ∧
      (s.dev.ageSteps td ≤ p.next + 1 → d.mat.ages = [] ∧ d.fget F.TBL_AGE.PASSES [sl, a] = (s.dev.fget F.TBL_AGE.PASSES [sl, a] + 1) % 2 ^ 32 ∧
        OnlyRegs [(.TBL_AGE, [sl, a])] s.dev d))

/-! ### The shared buffer and the transfer scheduler (chapter 09) -/

/-- Admission of a whole frame of one cell that asks for one copy (R204), by its outcome: dropped for want of a free cell, at the thresholds of a lossless
or a lossy priority group, at its queue's threshold or at a full pool, each counted; or admitted, with one copy and one cell in its VOQ. One match of the
crossbar moves a lone cell and its pointers (R213). A cell that has crossed is charged as R201 and R205 say, or its frame is truncated. A copy joins
its queue, marked where R209 says so. -/
def Obligations.FrameAdmission : Prop :=
  (∀ (s : State) (f p q : Nat) (x : Frame), AtAdmission s.dev f x p q →
    let g := wbits (s.dev.rget .BUF_PORT [x.port]) (3 * (Disp.fget x.vec.disp 3 % 16) + 2) (3 * (Disp.fget x.vec.disp 3 % 16))
    let pool := Disp.fget x.vec.disp 8
    let k := s.dev.portCluster p
    let v := s.dev.pgVerdict x.port g pool (s.dev.fbit F.BUF_IPG_A.LOSSLESS [x.port, g])
    let gone := fun (d : Dev) => d.prs.frames = s.dev.prs.frames.filter (fun z => z.id != f) ∧ d.buf = s.dev.buf ∧ OnlyRegsAndEvents [] s.dev d
    (s.dev.clusterFree k = 0 →
      Does (.admission f) s fun d => gone d ∧ d.counter (Ct.BUF_DROP_NOCELL_CNT k) = s.dev.counter (Ct.BUF_DROP_NOCELL_CNT k) + 1 ∧
        (mget? s.dev.lastEv (2 ^ 40 + 2 ^ 20 * 199 + k) = none → Happened d 199)) ∧
    (s.dev.clusterFree k ≠ 0 → v = .refused → s.dev.fbit F.BUF_IPG_A.LOSSLESS [x.port, g] = true →
      Does (.admission f) s fun d => gone d ∧ d.counter (Ct.BUF_DROP_HDRM_CNT x.port) = s.dev.counter (Ct.BUF_DROP_HDRM_CNT x.port) + 1 ∧ Happened d 195) ∧
    (s.dev.clusterFree k ≠ 0 → v = .refused → s.dev.fbit F.BUF_IPG_A.LOSSLESS [x.port, g] = false →
      Does (.admission f) s fun d => gone d ∧ d.regs = s.dev.regs ∧ d.counters = (s.dev.count (Ct.BUF_DROP_ING_CNT x.port) 1).counters) ∧
    (s.dev.clusterFree k ≠ 0 → v ≠ .refused → s.dev.fbit F.BUF_IPG_A.LOSSLESS [x.port, g] = false → s.dev.queueOk pool (p, q) = false →
      Does (.admission f) s fun d => gone d ∧ d.regs = s.dev.regs ∧ d.counters = (s.dev.count (Ct.BUF_DROP_EGR_CNT p) 1).counters) ∧
    (s.dev.clusterFree k ≠ 0 → v ≠ .refused → s.dev.fbit F.BUF_IPG_A.LOSSLESS [x.port, g] = false → s.dev.queueOk pool (p, q) = true → s.dev.poolFull pool = true →
      Does (.admission f) s fun d => gone d ∧ d.regs = s.dev.regs ∧ d.counters = (s.dev.count (Ct.BUF_DROP_ING_CNT x.port) 1).counters) ∧
    (s.dev.clusterFree k ≠ 0 → v ≠ .refused →
      (s.dev.fbit F.BUF_IPG_A.LOSSLESS [x.port, g] = true ∨ (s.dev.queueOk pool (p, q) = true ∧ s.dev.poolFull pool = false)) →
      Does (.admission f) s fun d =>
        d.prs.frames = s.dev.prs.frames.filter (fun z => z.id != f) ∧ d.regs = s.dev.regs ∧
        (∃ c : Copy, d.buf.copies = s.dev.buf.copies ++ [c] ∧ c.id = s.dev.buf.nextCopy ∧ c.port = p ∧ c.queue = q ∧ c.inPort = x.port ∧ c.bytes = x.bytes ∧
          c.pg = some (8 * x.port + g) ∧ c.pool = pool ∧ c.toHeadroom = (v == .headroom) ∧ c.bad = x.bad ∧ c.cells = [] ∧ c.cut = s.dev.cutsThrough x p q) ∧
        d.buf.voq = s.dev.buf.voq ++ [{ ingress := s.dev.portSlice x.port, egress := s.dev.portSlice p, copies := [s.dev.buf.nextCopy], last := true }] ∧
        d.counters = (if s.dev.cutsThrough x p q then s.dev.count (Ct.BUF_CT_CNT p) 1 else s.dev).counters)) ∧
  (∀ (s : State) (v : VoqCell), s.dev.active = true → s.dev.buf.voq = [v] → v.ingress < 32 → v.egress < 32 → s.dev.prs.frames = [] →
    Does .crossbarMatch s fun d =>
      d.buf.voq = [] ∧ d.buf.crossed = s.dev.buf.crossed ++ [v] ∧ d.buf.grantPtr = s.dev.buf.grantPtr.set v.egress ((v.ingress + 1) % 32) ∧
      d.buf.acceptPtr = s.dev.buf.acceptPtr.set v.ingress ((v.egress + 1) % 32) ∧ d.counters = s.dev.counters ∧ OnlyRegs [(.BUF_STATUS, [])] s.dev d) ∧
  (∀ (s : State) (ptr i pg : Nat) (v : VoqCell) (rest : List VoqCell) (c : Copy), s.dev.active = true → s.dev.buf.crossed = v :: rest → v.copies = [i] →
    s.dev.copy? i = some c → c.cellsDone = false → c.pg = some pg → pg < 8192 → c.port < 1024 → c.queue < 20 → c.pool < 4 → (∀ z ∈ s.dev.buf.copies, z.bad = none) →
    s.dev.fbit F.BUF_IPG_A.LOSSLESS [pg / 8, pg % 8] = false →
    let low := decide (s.dev.pgCells pg < s.dev.fget F.BUF_IPG_A.MIN [pg / 8, pg % 8]) ||
      decide (s.dev.fget F.BUF_EQ_STAT.ONDIE [c.port, c.queue] < s.dev.fget F.BUF_EQ.MIN [c.port, c.queue])
    let cat : CellCat := if low then .reserved else if c.toHeadroom then .headroom else .shared
    (s.dev.clusterFree (v.egress / 8) ≠ 0 → cellPtrOk ptr = true → cellCluster ptr = v.egress / 8 → mget? s.dev.buf.cells ptr = none →
      (cat = .headroom → s.dev.fget F.BUF_HDRM.USE [] < s.dev.fget F.BUF_HDRM.SIZE []) →
      Does (.cellCharge ptr) s fun d =>
        mget? d.buf.cells ptr = some { cat := cat, pg := some pg, pool := c.pool, copies := [i], since := s.dev.now } ∧ d.buf.crossed = rest ∧
        d.buf.copies = (s.dev.buf.copies.map fun z =>
          if z.id = i then (if v.last then { z with cells := z.cells ++ [ptr], cellsDone := true, fid := none } else { z with cells := z.cells ++ [ptr] }) else z) ∧
        d.fget F.BUF_FREE.FREE [] = s.dev.fget F.BUF_FREE.FREE [] - 1 ∧ d.pgCells pg = s.dev.pgCells pg + 1 ∧
        d.fget F.BUF_EQ_STAT.ONDIE [c.port, c.queue] = (s.dev.fget F.BUF_EQ_STAT.ONDIE [c.port, c.queue] + 1) % 2 ^ 21 ∧
        d.fget F.BUF_SP.USE [c.pool] = (s.dev.fget F.BUF_SP.USE [c.pool] + (if cat = .shared then 1 else 0)) % 2 ^ 21 ∧
        d.fget F.BUF_HDRM.USE [] = (s.dev.fget F.BUF_HDRM.USE [] + (if cat = .headroom then 1 else 0)) % 2 ^ 21 ∧ d.counters = s.dev.counters ∧
        OnlyRegs [(.BUF_FREE, []), (.BUF_STATUS, []), (.BUF_EQ_STAT, [c.port, c.queue]), (.BUF_PORT, [c.port]), (.BUF_PORT, [pg / 8]), (.BUF_SP, [c.pool]),
          (.BUF_HDRM, []), (.BUF_IPG_STAT, [pg / 8, pg % 8])] s.dev d) ∧
    (s.dev.clusterFree (v.egress / 8) = 0 → c.cells = [] → c.pages = [] → c.started = false →
      Does (.cellCharge ptr) s fun d =>
        d.buf.cells = s.dev.buf.cells ∧ (∀ z ∈ d.buf.copies, z.id ≠ i) ∧ d.counter (Ct.BUF_TRUNC_CNT 0) = s.dev.counter (Ct.BUF_TRUNC_CNT 0) + 1 ∧
        d.counter (Ct.BUF_BADTAIL_DROP_CNT (16 * c.port + 3)) = s.dev.counter (Ct.BUF_BADTAIL_DROP_CNT (16 * c.port + 3)) + 1)) ∧
  (∀ (s : State) (i : Nat) (c : Copy), s.dev.active = true → s.dev.copy? i = some c → c.atDoor = true → s.dev.behindSibling c = false → s.dev.inForce = [] →
    c.port < 1024 → c.queue < 20 →
    let p := c.port
    let q := c.queue
    let seg : Seg := if decide (q < 16) && s.dev.fbit F.SPL_Q.EN [p, q] && ! (s.dev.middle p q).isEmpty then .tail else .head
    let joined := fun (d : Dev) (ecn : Bool) =>
      d.buf.copies = (s.dev.buf.copies.filter fun z => z.id != i) ++ [{ c with enqueued := true, qdepth := s.dev.queueDepth p q i, ecn := ecn, seg := seg }] ∧
      d.buf.cells = s.dev.buf.cells ∧ OnlyRegs [(.SPL_Q_STAT, [p, q]), (.BUF_EQ_STAT, [p, q])] s.dev d
    (s.dev.fbit F.BUF_EQ.ECNEN [p, q] = false ∨ s.dev.depth16 p q i < s.dev.fget F.BUF_EQ.ECN_MIN [p, q] →
      Does (.enqueue i) s fun d => joined d false ∧ d.counters = s.dev.counters) ∧
    (∀ a e ver : Nat, s.dev.fbit F.BUF_EQ.ECNEN [p, q] = true → s.dev.fget F.BUF_EQ.ECN_MIN [p, q] ≤ s.dev.depth16 p q i →
      s.dev.fget F.BUF_EQ.ECN_MAX [p, q] ≤ s.dev.depth16 p q i → s.dev.fget F.BUF_EQ.EMARK [p, q] ≤ 5 →
      c.vec.hv.markPos (s.dev.fget F.BUF_EQ.EMARK [p, q]) 0 = some a → a < 511 → ecnAt c.bytes a = some (ver, e) →
      (e = 1 ∨ e = 2 → Does (.enqueue i) s fun d => joined d true ∧ d.counters = (s.dev.count (Ct.BUF_ECN_MARK_CNT (32 * p + q)) 1).counters) ∧
      (e = 0 ∧ s.dev.fbit F.BUF_EQ.NONECT [p, q] = true → c.cells = [] → c.pages = [] →
        Does (.enqueue i) s fun d => (∀ z ∈ d.buf.copies, z.id ≠ i) ∧ d.buf.cells = s.dev.buf.cells ∧
          d.counters = (s.dev.count (Ct.BUF_ECN_DROP_CNT (32 * p + q)) 1).counters)))

/-- A free of a cell (R198, R199): a cell in flight returns to the free store; a cell that is free already is refused, counted, logged with the unit
that freed it, and raises event 192, and no count changes; a held cell stays held. -/
def Obligations.CellReturns : Prop :=
  ∀ (s : State) (ptr unit : Nat), s.dev.active = true → cellPtrOk ptr = true → unit < 256 →
    (∀ st : CellSt, mget? s.dev.buf.cells ptr = some st → st.inflight = true →
      Does (.cellReturn ptr unit) s fun d =>
        mget? d.buf.cells ptr = none ∧ (∀ k, k ≠ ptr → mget? d.buf.cells k = mget? s.dev.buf.cells k) ∧
        d.fget F.BUF_FREE.INFLIGHT [] = s.dev.fget F.BUF_FREE.INFLIGHT [] - 1 ∧ d.fget F.BUF_FREE.FREE [] = (s.dev.fget F.BUF_FREE.FREE [] + 1) % 2 ^ 21 ∧
        d.counters = s.dev.counters ∧ OnlyRegs [(.BUF_FREE, []), (.BUF_STATUS, [])] s.dev d) ∧
    (∀ st : CellSt, mget? s.dev.buf.cells ptr = some st → st.inflight = false → Does (.cellReturn ptr unit) s fun d => d = s.dev) ∧
    (mget? s.dev.buf.cells ptr = none →
      Does (.cellReturn ptr unit) s fun d =>
        d.buf = s.dev.buf ∧ d.counter (Ct.BUF_DFREE_CNT 0) = s.dev.counter (Ct.BUF_DFREE_CNT 0) + 1 ∧ Happened d 192 ∧
        (if s.dev.fbit F.BUF_DFREE_LOG.VALID [] then d.fbit F.BUF_DFREE_LOG.OVERRUN [] = true ∧ d.fget F.BUF_DFREE_LOG.CELL [] = s.dev.fget F.BUF_DFREE_LOG.CELL []
         else d.fbit F.BUF_DFREE_LOG.VALID [] = true ∧ d.fget F.BUF_DFREE_LOG.UNIT [] = unit ∧ d.fget F.BUF_DFREE_LOG.CELL [] = ptr) ∧
        OnlyRegsAndEvents [(.BUF_DFREE_LOG, [])] s.dev d)

/-- Priority flow control, the head age monitor and the auditor. A received PFC frame sets and clears the pause timers it names, or is only
counted (R208); a timer runs out; the repeat of a group in XOFF sends its frame and takes the next time (R207). A head that has aged beyond LIMIT makes
its queue stuck (R210). A check without a difference leaves nothing, the PERSIST-th with one starts a walk (R211); a walk reports the leaked cells and
with RECLAIM frees them (R212). -/
def Obligations.BufferUpkeep : Prop :=
  (∀ (s : State) (t p mask : Nat) (timers : List Nat), s.dev.active = true → s.dev.portUp p = true →
    (s.dev.fbit F.BUF_PORT.PFC_RX [p] = false →
      Does (.pfcFrameRx t p mask timers) s fun d => d.buf = s.dev.buf ∧ d.regs = s.dev.regs ∧ d.counters = (s.dev.count (Ct.BUF_PAUSE_RX_CNT p) 1).counters) ∧
    (s.dev.fbit F.BUF_PORT.PFC_RX [p] = true →
      Does (.pfcFrameRx t p mask timers) s fun d =>
        d.regs = s.dev.regs ∧ d.counters = (s.dev.count (Ct.BUF_PFC_RX_CNT p) 1).counters ∧ d.buf.copies = s.dev.buf.copies ∧
        (∀ i < 8, mget? d.buf.pause (p * 8 + i) =
          if bitN mask i then (if timers.getD i 0 % 65536 = 0 then none else some (max t s.dev.now + s.dev.quantaTime p (timers.getD i 0 % 65536)))
          else mget? s.dev.buf.pause (p * 8 + i)) ∧
        ∀ k, (k < p * 8 ∨ p * 8 + 8 ≤ k) → mget? d.buf.pause k = mget? s.dev.buf.pause k)) ∧
  (∀ (s : State) (t p : Nat), s.dev.active = true → s.dev.portUp p = true →
    Does (.pauseFrameRx t p) s fun d => d.buf = s.dev.buf ∧ d.regs = s.dev.regs ∧ d.counters = (s.dev.count (Ct.BUF_PAUSE_RX_CNT p) 1).counters) ∧
  (∀ (s : State) (t p i e : Nat), s.dev.active = true → i < 8 → mget? s.dev.buf.pause (p * 8 + i) = some e → e ≤ max t s.dev.now →
    Does (.pfcTimerExpire t p i) s fun d =>
      mget? d.buf.pause (p * 8 + i) = none ∧ (∀ k, k ≠ p * 8 + i → mget? d.buf.pause k = mget? s.dev.buf.pause k) ∧ d.regs = s.dev.regs ∧
      d.counters = s.dev.counters) ∧
  (∀ (s : State) (t p g e : Nat), s.dev.active = true → p < 1024 → g < 8 → mget? s.dev.buf.pfcNext (8 * p + g) = some e → e ≤ max t s.dev.now →
    s.dev.fbit F.BUF_IPG_STAT.XOFF [p, g] = true → s.dev.fbitB F.BUF_PORT.PFC_TX [p] = true → s.dev.portUp p = true →
    let mask := s.dev.fgetB F.BUF_IPG_A.PRIMASK [p, g]
    mask ≠ 0 →
    Does (.pfcRepeat t p g) s fun d =>
      d.lane.sent = (p, s.dev.pfcFrame mask (s.dev.pgQuanta p g), true) :: s.dev.lane.sent ∧
      mget? d.buf.pfcNext (8 * p + g) = some (max t s.dev.now + s.dev.quantaTime p (s.dev.pgQuanta p g) / 2) ∧
      d.counter (Ct.BUF_PFC_TX_CNT p) = s.dev.counter (Ct.BUF_PFC_TX_CNT p) + 1 ∧ d.buf.copies = s.dev.buf.copies ∧ OnlyRegs [(.LN_PSTAT, [p])] s.dev d) ∧
  (∀ (s : State) (t p q : Nat) (h : HeadSt), s.dev.active = true → p < 1024 → q < 20 → mget? s.dev.buf.heads (32 * p + q) = some h →
    let e := s.dev.advanceTo t
    let age := h.age + (e.now - h.last)
    e.paused p q = false → e.shutNow p q = false →
    (s.dev.fbit F.BUF_QAGE_CTL.EN [] = false →
      Does (.queueAgeVisit t p q) s fun d =>
        mget? d.buf.heads (32 * p + q) = some { h with age := age, last := e.now } ∧ d.buf.copies = s.dev.buf.copies ∧ d.regs = s.dev.regs ∧
        d.counters = s.dev.counters) ∧
    (s.dev.fbit F.BUF_QAGE_CTL.EN [] = true → us (atLeast1 (s.dev.fget F.BUF_QAGE_CTL.LIMIT [])) < age → s.dev.fbit F.BUF_EQ_STAT.STUCK [p, q] = false →
      s.dev.fbit F.BUF_QAGE_CTL.ACTION [] = false →
      Does (.queueAgeVisit t p q) s fun d =>
        mget? d.buf.heads (32 * p + q) = some { h with age := age, last := e.now } ∧ d.buf.copies = s.dev.buf.copies ∧
        d.fbit F.BUF_EQ_STAT.STUCK [p, q] = true ∧ d.counter (Ct.BUF_STUCK_CNT (32 * p + q)) = s.dev.counter (Ct.BUF_STUCK_CNT (32 * p + q)) + 1 ∧
        Happened d 197 ∧ OnlyRegsAndEvents [(.BUF_EQ_STAT, [p, q])] s.dev d)) ∧
  (∀ (s : State) (t : Nat), s.dev.active = true → s.dev.fbit F.BUF_AUD_CTL.EN [] = true → s.dev.buf.auditAt + ms 1 ≤ max t s.dev.now →
    (s.dev.auditDiff = 0 →
      Does (.bufferAuditCheck t) s fun d =>
        d.fget F.BUF_AUD_STATUS.DIFF [] = 0 ∧ d.buf = { s.dev.buf with auditMiss := 0, auditAt := max t s.dev.now } ∧ d.counters = s.dev.counters ∧
        OnlyRegs [(.BUF_AUD_STATUS, [])] s.dev d) ∧
    (s.dev.auditDiff ≠ 0 → atLeast1 (s.dev.fget F.BUF_AUD_CTL.PERSIST []) ≤ s.dev.buf.auditMiss + 1 → s.dev.buf.walk = none →
      Does (.bufferAuditCheck t) s fun d =>
        d.fget F.BUF_AUD_STATUS.DIFF [] = (s.dev.auditDiff % (2 ^ 22 : Nat)).toNat ∧ Happened d 193 ∧ d.fbit F.BUF_AUD_CTL.WALK [] = true ∧
        d.buf = { s.dev.buf with auditMiss := 0, auditAt := max t s.dev.now, walk := some (max t s.dev.now) } ∧
        OnlyRegsAndEvents [(.BUF_AUD_STATUS, []), (.BUF_AUD_CTL, [])] s.dev d)) ∧
  (∀ s : State, s.dev.up = true → s.dev.buf.walk = none →
    Does .auditWalkStart s fun d =>
      d.buf = { s.dev.buf with walk := some s.dev.now } ∧ d.fbit F.BUF_AUD_CTL.WALK [] = true ∧ d.counters = s.dev.counters ∧
      OnlyRegs [(.BUF_AUD_CTL, [])] s.dev d) ∧
  (∀ (s : State) (t t0 : Nat), s.dev.active = true → s.dev.buf.walk = some t0 →
    let leaked := (s.dev.buf.cells.filter fun x =>
      ! x.2.inflight && decide (x.2.since ≤ t0) && ! (s.dev.buf.copies.any fun c => c.cells.contains x.1)).map fun x => x.1
    leaked.length < 2 ^ 21 →
    (s.dev.fbit F.BUF_AUD_CTL.RECLAIM [] = false →
      Does (.auditWalkDone t) s fun d =>
        d.buf = { s.dev.buf with walk := none } ∧ d.fbit F.BUF_AUD_CTL.WALK [] = false ∧ d.fget F.BUF_AUD_STATUS.LEAKED [] = leaked.length ∧
        (∀ i < 16, d.fbit F.BUF_LEAK_LOG.VALID [i] = decide (i < leaked.length)) ∧ (leaked ≠ [] → Happened d 194) ∧
        OnlyRegsAndEvents ((.BUF_AUD_CTL, []) :: (.BUF_AUD_STATUS, []) :: (List.range 16).map fun i => (.BUF_LEAK_LOG, [i])) s.dev d) ∧
    (s.dev.fbit F.BUF_AUD_CTL.RECLAIM [] = true →
      Does (.auditWalkDone t) s fun d =>
        d.buf.walk = none ∧ (∀ c ∈ leaked, mget? d.buf.cells c = none) ∧ (∀ k, k ∉ leaked → mget? d.buf.cells k = mget? s.dev.buf.cells k) ∧
        d.buf.copies = s.dev.buf.copies))

/-- R202: the reserve, the headroom pool and the four service pools must fit in 1,310,720 − 8,192 cells. That is checked when a HOLD is written 0, by
the BUF_HOLD_RELEASE command (1,024 for the global HOLD) or by a register write whose bit 63 is 0. Where the layout fits, the HOLD reads 0
afterwards; where it does not, the HOLD stays as it is, BUF_STATUS.CFGERR is set, and event 196 is raised. -/
def Obligations.HoldReleaseChecksLayout : Prop :=
  ∀ s : State, s.dev.up = true →
    let sum := s.dev.reserve + s.dev.fget F.BUF_HDRM.SIZE [] + (s.dev.fget F.BUF_SP.SIZE [0] + s.dev.fget F.BUF_SP.SIZE [1] +
      s.dev.fget F.BUF_SP.SIZE [2] + s.dev.fget F.BUF_SP.SIZE [3])
    (sum ≤ 1310720 - 8192 →
      (Does (.bufHoldRelease 1024) s fun d => d.fbit F.BUF_CTL.HOLD [] = false ∧ OnlyRegs [(.BUF_CTL, []), (.BUF_STATUS, [])] s.dev d) ∧
      (∀ p < 1024, Does (.bufHoldRelease p) s fun d => d.fbit F.BUF_PORT.HOLD [p] = false ∧ OnlyRegs [(.BUF_PORT, [p])] s.dev d)) ∧
    (1310720 - 8192 < sum →
      ∀ p ≤ 1024, Does (.bufHoldRelease p) s fun d =>
        d.fbit F.BUF_STATUS.CFGERR [] = true ∧ Happened d 196 ∧ OnlyRegsAndEvents [(.BUF_STATUS, [])] s.dev d) ∧
    (∀ (sq c a : Nat) (v : Word), v.getLsbD 63 = false →
      (regDecode a = some (.BUF_CTL, []) →
        Does (.registerWrite sq c a v) s fun d =>
          (sum ≤ 1310720 - 8192 → d.fbit F.BUF_CTL.HOLD [] = false) ∧
          (1310720 - 8192 < sum → d.fbit F.BUF_CTL.HOLD [] = s.dev.fbit F.BUF_CTL.HOLD [] ∧ d.fbit F.BUF_STATUS.CFGERR [] = true ∧ Happened d 196)) ∧
      (∀ p < 1024, regDecode a = some (.BUF_PORT, [p]) →
        Does (.registerWrite sq c a v) s fun d =>
          (sum ≤ 1310720 - 8192 → d.fbit F.BUF_PORT.HOLD [p] = false) ∧
          (1310720 - 8192 < sum →
            d.fbit F.BUF_PORT.HOLD [p] = s.dev.fbit F.BUF_PORT.HOLD [p] ∧ d.fbit F.BUF_STATUS.CFGERR [] = true ∧ Happened d 196)))

/-- R203, with no cell on its way to the buffer: an owner with ALPHA = k from −7 to +3 passes when its shared cells in the pool are below 2^k × F, with
F = BUF_SP[POOL].SIZE − BUF_SP[POOL].USE; and a queue, or a lossy priority group, that is not below its MIN admits a cell of the pool exactly
when it passes. -/
def Obligations.DynamicThresholds : Prop :=
  ∀ (d : Dev) (p q g pool : Nat) (k : Int), -7 ≤ k → k ≤ 3 → d.buf.voq = [] → d.buf.crossed = [] →
    let limit : ℚ := (2 : ℚ) ^ k * ((d.fget F.BUF_SP.SIZE [pool] : ℚ) - (d.fget F.BUF_SP.USE [pool] : ℚ))
    (sext 4 (d.fgetB F.BUF_EQ.ALPHA [p, q]) = k →
      (d.queueOk pool (p, q) = true ↔ d.fget F.BUF_EQ_STAT.ONDIE [p, q] < d.fget F.BUF_EQ.MIN [p, q] ∨
        (d.ownCells (qPoolKey (qKey p q) pool) : ℚ) < limit)) ∧
    (sext 4 (d.fgetB F.BUF_IPG_A.ALPHA [p, g]) = k →
      (d.pgVerdict p g pool false = .shared ↔ d.pgCells (pgKey p g) < d.fget F.BUF_IPG_A.MIN [p, g] ∨
        (d.ownCells (pgPoolKey (pgKey p g) pool) : ℚ) < limit))

/-! ### Scheduling, shaping, peephole rings and shutters (chapters 11 and 12) -/

/-- The only frame of a port, in an eligible queue with no shutter and no shaper on its path, is selected and enters egress stage 0 with its charged
length (R249 to R253); a port without a frame selects nothing. Its first bit starts it, or a failed test returns it (R276, R278); its last bit sends it
and ends it (R198, R219), and a fragment's end suspends it (R281). A shaper's fine slot makes it eligible, or is late (R255, R256), its coarse slot
moves it to the fine wheel; a meter's reset fills its buckets (R261). -/
def Obligations.SchedulingAndTransmission : Prop :=
  (∀ (s : State) (p q n : Nat) (c : Copy), s.dev.active = true → p < 1024 → q < 20 → s.dev.portSlot p < 32 → s.dev.buf.copies = [c] → c.port = p → c.queue = q →
    c.enqueued = true → c.seg = .head → c.selected = false → c.started = false → c.domMsg = false → c.len = some n → n ≤ 16384 → c.mirror = false →
    s.dev.inForce = [] → s.dev.portServes p = true → s.dev.queueElig p q = true → s.dev.fbit F.SHU_CTL.EN (s.dev.pIx p) = false →
    (∀ k ≤ 32, s.dev.fbit F.SHP_CFG.EN (s.dev.pIx p ++ [k]) = false) → (∀ k < 32, 0 ≤ s.dev.deficit p k) →
    Does (.schedulerSelect p) s fun d =>
      (∃ c' : Copy, d.buf.copies = [c'] ∧ c'.id = c.id ∧ c'.selected = true ∧ c'.staged = true ∧ c'.estage = 0 ∧ c'.started = false ∧
        c'.charged = s.dev.chargedLen p n ∧ c'.dqTime = s.dev.fab ∧ c'.bytes = c.bytes ∧ c'.vec.hv = c.vec.hv ∧ c'.vec.disp = c.vec.disp ∧
        c'.vec.stamp = BitVec.ofNat 64 (s.dev.fget F.MAI_SASH_STATE.ACTIVE [s.dev.portSlice p])) ∧
      d.buf.cells = s.dev.buf.cells ∧ d.que.shapers = s.dev.que.shapers ∧ d.counters = s.dev.counters ∧
      OnlyRegs [(.SPL_Q_STAT, [p, q]), (.BUF_EQ_STAT, [p, q]), (.MAE_STATUS, [s.dev.portSlice p])] s.dev d) ∧
  (∀ (s : State) (p : Nat), s.dev.active = true → s.dev.buf.copies = [] →
    Does (.schedulerSelect p) s fun d => d.buf = s.dev.buf ∧ d.regs = s.dev.regs ∧ d.counters = s.dev.counters) ∧
  (∀ (s : State) (t p : Nat) (c : Copy), s.dev.active = true → p < 1024 →
    let e := s.dev.advanceTo t
    e.portServes p = true → e.awake p = true → e.dueCopy p = some c → e.sending p = none → (s.dev.port p).release = [] → c.started = false → c.port = p →
    (∀ f, e.txPlan c = some f → s.dev.inForce = [] → Disp.fget c.vec.disp 7 = 0 → s.dev.fbit F.PEP_SAMP.EEN [p] = false →
      Does (.frameTxStart t p) s fun d =>
        d.buf.copies = (s.dev.buf.copies.map fun z =>
          if z.id = c.id then { c with started := true, suspended := false, startTime := e.now, frag := f, ets := e.egressStamp p } else z) ∧
        d.fbit F.LN_PSTAT.TXQ [p] = false ∧ d.buf.cells = s.dev.buf.cells ∧ OnlyRegs [(.LN_PSTAT, [p])] s.dev d) ∧
    (e.txPlan c = none → c.queue < 20 →
      Does (.frameTxStart t p) s fun d =>
        d.buf.copies = (s.dev.buf.copies.map fun z =>
          if z.id = c.id then { z with selected := false, staged := false, estage := 0, out := [], vec := z.vec0.getD z.vec, vec0 := none } else z) ∧
        d.que = s.dev.que ∧ d.counters = s.dev.counters ∧ OnlyRegs [(.SPL_Q_STAT, [p, c.queue]), (.BUF_EQ_STAT, [p, c.queue])] s.dev d)) ∧
  (∀ (s : State) (t p : Nat) (c : Copy), s.dev.active = true → p < 1024 → s.dev.portSlot p < 32 → s.dev.sending p = some c → c.port = p → c.queue < 20 →
    CellsNamed s.dev → c.pages = [] →
    (c.frag = none → s.dev.now ≤ t → c.startTime + s.dev.wireTime p (c.full.length + 4 - c.sentBytes) ≤ t → c.ended = true → c.cellsDone = true → c.fid = none →
      c.caps = [] → s.dev.portState p ≠ 6 →
      Does (.frameTxEnd t p [] []) s fun d =>
        (∀ z ∈ d.buf.copies, z.id ≠ c.id) ∧
        (∃ l, d.lane.sent = l ++ (p, (s.dev.advanceTo t).wireBytes c, c.bad.isNone || ! s.dev.fbitB F.BUF_PORT.ERRTERM [p]) :: s.dev.lane.sent) ∧
        d.counter (Ct.QUE_TX_FRAMES (32 * p + c.queue)) = s.dev.counter (Ct.QUE_TX_FRAMES (32 * p + c.queue)) + 1 ∧
        ∀ b < 16, c.bad = some b → d.counter (Ct.BUF_STOMP_CNT (16 * p + b)) = s.dev.counter (Ct.BUF_STOMP_CNT (16 * p + b)) + 1) ∧
    (∀ n, c.frag = some n → s.dev.now ≤ t → c.startTime + s.dev.wireTime p n ≤ t →
      Does (.frameTxEnd t p [] []) s fun d =>
        d.buf.copies = (s.dev.buf.copies.map fun z =>
          if z.id = c.id then { z with sentBytes := z.sentBytes + n, suspended := true, frag := none } else z) ∧
        d.fbit F.SHU_STAT.SUSP (s.dev.pIx p) = true ∧ d.counters = (s.dev.count (Ct.SHU_FRAG_CNT (32 * p + c.queue)) 1).counters ∧
        OnlyRegs [(.SHU_STAT, s.dev.pIx p)] s.dev d)) ∧
  (∀ (s : State) (t sl m k e0 : Nat), s.dev.active = true → sl < 32 → m < 32 → k < 33 →
    let e := s.dev.advanceTo t
    (s.dev.shaper sl m k).entry = some e0 → e0 ≤ e.fab → s.dev.fbit F.SHP_STAT.WHEEL [sl, m, k] = false →
    (s.dev.shpReleased sl e0 < 32 → 0 ≤ e.shpCredit sl m k →
      Does (.shaperEligible t sl m k) s fun d =>
        d.shaper sl m k = { credit := e.shpCredit sl m k, time := e.fab, entry := none } ∧ d.fbit F.SHP_STAT.ELIG [sl, m, k] = true ∧
        d.counters = s.dev.counters ∧ d.buf = s.dev.buf ∧ OnlyRegs [(.SHP_STAT, [sl, m, k])] s.dev d) ∧
    (32 ≤ s.dev.shpReleased sl e0 →
      Does (.shaperEligible t sl m k) s fun d =>
        d.shaper sl m k = { s.dev.shaper sl m k with entry := some (e0 + ns 2) } ∧ d.counter (Ct.SHP_LATE_CNT sl) = s.dev.counter (Ct.SHP_LATE_CNT sl) + 1 ∧
        (mget? s.dev.lastEv (64 * 256 + sl) = none → Happened d 256) ∧ OnlyRegsAndEvents [] s.dev d)) ∧
  (∀ (s : State) (t sl m k e0 : Nat) (x : ShaperSt), s.dev.active = true → sl < 32 → m < 32 → k < 33 → s.dev.que.shapers = [(shpKey sl m k, x)] → x.entry = some e0 →
    let e := s.dev.advanceTo t
    s.dev.fbit F.SHP_STAT.WHEEL [sl, m, k] = true →
    (e0 < e.fab + ns 8192 →
      Does (.coarseSlotBegin t sl) s fun d =>
        d.que.shapers = [(shpKey sl m k, { x with entry := some (fineSlot (max e0 e.fab)) })] ∧ d.fbit F.SHP_STAT.WHEEL [sl, m, k] = false ∧
        d.counters = s.dev.counters ∧ OnlyRegs [(.SHP_STAT, [sl, m, k])] s.dev d) ∧
    (e.fab + ns 8192 ≤ e0 → Does (.coarseSlotBegin t sl) s fun d => d.que = s.dev.que ∧ d.regs = s.dev.regs)) ∧
  (∀ (s : State) (sl i : Nat), s.dev.up = true → sl < 32 → i < 65536 →
    Does (.meterReset sl i) s fun d =>
      d.meter sl i = { tc := ((s.dev.fget F.MTR_A.CBS [sl, i] * 8192000000 : Nat) : Int), tx := ((s.dev.fget F.MTR_B.XBS [sl, i] * 8192000000 : Nat) : Int),
                       time := s.dev.fab } ∧
      (∀ k, k ≠ sl * 65536 + i → mget {} d.mat.meters k = mget {} s.dev.mat.meters k) ∧ d.fbit F.MTR_A.RESET [sl, i] = false ∧
      d.fget F.MTR_A.CBS [sl, i] = s.dev.fget F.MTR_A.CBS [sl, i] ∧ d.counters = s.dev.counters ∧ OnlyRegs [(.MTR_A, [sl, i])] s.dev d)

/-- Peephole rings: EN is set where the ring fits and overlaps none, and otherwise event 259 is raised; disabling a ring discards its records (R262); a
slice's record is written to its ring with the ring's SEQ, or is lost and counted where the ring is off (R265). Shutters: the mask in force follows
phase, and an express frame still sent at its queue's closing is an overrun (R272, R278); COMMIT, the order check and the writes of a list (R273);
the end of the verify procedure (R280). -/
def Obligations.RingsAndShutters : Prop :=
  (∀ (s : State) (r : Nat), s.dev.up = true → r < 256 → s.dev.fbit F.PEP_RING.EN [r] = false →
    let b := s.dev.fget F.PEP_RING.BASE [r]
    let n := s.dev.fget F.PEP_RING.SIZE [r]
    let fits := 1 ≤ n ∧ b + n ≤ 2048 ∧ ∀ i < 256, i ≠ r → s.dev.fbit F.PEP_RING.EN [i] = true →
      b + n ≤ s.dev.fget F.PEP_RING.BASE [i] ∨ s.dev.fget F.PEP_RING.BASE [i] + s.dev.fget F.PEP_RING.SIZE [i] ≤ b
    (fits → Does (.pepRingEnable r) s fun d =>
      d.fbit F.PEP_RING.EN [r] = true ∧ d.que = s.dev.que ∧ d.counters = s.dev.counters ∧ OnlyRegs [(.PEP_RING, [r])] s.dev d) ∧
    (¬ fits → Does (.pepRingEnable r) s fun d =>
      d.fbit F.PEP_RING.EN [r] = false ∧ Happened d 259 ∧ d.que = s.dev.que ∧ OnlyRegsAndEvents [] s.dev d)) ∧
  (∀ (s : State) (r : Nat), s.dev.up = true → r < 256 → s.dev.que.draining = [] →
    Does (.pepRingDisable r) s fun d =>
      d.fbit F.PEP_RING.EN [r] = false ∧ d.ring r = [] ∧ (∀ k, k ≠ r → d.ring k = s.dev.ring k) ∧
      d.fget F.PEP_RING_STAT.SEQ [r] = s.dev.fget F.PEP_RING_STAT.SEQ [r] ∧ d.fget F.PEP_RING_STAT.USED [r] = 0 ∧ d.counters = s.dev.counters ∧
      OnlyRegs [(.PEP_RING, [r]), (.PEP_RING_STAT, [r])] s.dev d) ∧
  (∀ (s : State) (sl : Nat) (r : PepPending) (rest : List PepPending), s.dev.active = true → s.dev.que.pending = r :: rest → r.slice = sl → r.ring < 256 →
    (s.dev.fbit F.PEP_RING.EN [r.ring] = true → ringBytes (s.dev.ring r.ring) + r.bytes.length ≤ s.dev.ringSize r.ring → s.dev.que.ringLost.contains r.ring = false →
      Does (.peepholeRecordWrite sl) s fun d =>
        d.ring r.ring = s.dev.ring r.ring ++ [{ seq := s.dev.fget F.PEP_RING_STAT.SEQ [r.ring],
                                                bytes := overlay r.bytes 8 (beBytes 4 (s.dev.fget F.PEP_RING_STAT.SEQ [r.ring])) }] ∧
        d.que.pending = rest ∧ d.fget F.PEP_RING_STAT.SEQ [r.ring] = (s.dev.fget F.PEP_RING_STAT.SEQ [r.ring] + 1) % 2 ^ 32 ∧
        (∀ k, k ≠ r.ring → d.ring k = s.dev.ring k) ∧ OnlyRegs [(.PEP_RING_STAT, [r.ring])] s.dev d) ∧
    (s.dev.fbit F.PEP_RING.EN [r.ring] = false →
      Does (.peepholeRecordWrite sl) s fun d =>
        d.que.pending = rest ∧ d.que.rings = s.dev.que.rings ∧ d.que.ringLost.contains r.ring = true ∧
        d.counter (Ct.PEP_LOST_CNT r.ring) = s.dev.counter (Ct.PEP_LOST_CNT r.ring) + 1 ∧
        (mget? s.dev.lastEv (2 ^ 40 + 2 ^ 20 * 258 + r.ring) = none → Happened d 258) ∧ OnlyRegsAndEvents [] s.dev d)) ∧
  (∀ (s : State) (t p : Nat), s.dev.active = true → p < 1024 → s.dev.portSlot p < 32 → s.dev.fbit F.LN_PORT.EN [p] = true → s.dev.shu.skips = [] →
    let e := s.dev.advanceTo t
    (s.dev.sending p = none →
      Does (.shutterMaskChange t p) s fun d =>
        d.fget F.SHU_STAT.OPEN (s.dev.pIx p) = e.portMask p ∧ d.fbit F.SHU_STAT.PARKED (s.dev.pIx p) = ! s.dev.phaseValid ∧ d.buf = s.dev.buf ∧
        d.counters = s.dev.counters ∧ OnlyRegs [(.SHU_STAT, s.dev.pIx p)] s.dev d) ∧
    (∀ c : Copy, s.dev.sending p = some c → c.queue < 20 → s.dev.preemptable p c.queue = false → c.overrun = false → s.dev.phaseValid = true → c.port = p →
      s.dev.fbit F.SHU_STAT.PARKED (s.dev.pIx p) = false → bitN (s.dev.fget F.SHU_STAT.OPEN (s.dev.pIx p)) c.queue = true → bitN (e.portMask p) c.queue = false →
      Does (.shutterMaskChange t p) s fun d =>
        d.fget F.SHU_STAT.OPEN (s.dev.pIx p) = e.portMask p ∧
        d.buf.copies = (s.dev.buf.copies.map fun z => if z.id = c.id then { z with overrun := true } else z) ∧
        d.counter (Ct.SHU_OVERRUN_CNT (32 * p + c.queue)) = s.dev.counter (Ct.SHU_OVERRUN_CNT (32 * p + c.queue)) + 1 ∧
        (mget? s.dev.lastEv (64 * 265 + s.dev.portSlice p) = none → Happened d 265) ∧ OnlyRegsAndEvents [(.SHU_STAT, s.dev.pIx p)] s.dev d)) ∧
  (∀ (s : State) (sl m : Nat), s.dev.up = true → sl < 32 → m < 32 →
    Does (.shutterCommit sl m) s (fun d =>
      d.fbit F.SHU_CTL.COMMIT [sl, m] = true ∧ d.shu = s.dev.shu ∧ d.counters = s.dev.counters ∧ OnlyRegs [(.SHU_CTL, [sl, m])] s.dev d) ∧
    (∀ (n : Nat) (w : Word), n < 256 → s.dev.fbit F.SHU_CTL.COMMIT [sl, m] = false →
      Does (.shutterEntryWrite sl m n w) s fun d =>
        d.rget .SHU_ENTRY [sl, m, n] = (w &&& BitVec.ofNat 64 (2 ^ 52 - 1)) ∧ d.shu = s.dev.shu ∧ d.counters = s.dev.counters ∧
        OnlyRegs [(.SHU_ENTRY, [sl, m, n])] s.dev d) ∧
    (∀ w : Word, s.dev.fbit F.SHU_CTL.COMMIT [sl, m] = false →
      Does (.shutterEntryWrite sl m 256 w) s fun d =>
        d.fget F.SHU_CTL.LEN [sl, m] = wbits w 8 0 ∧ d.shu = s.dev.shu ∧ d.counters = s.dev.counters ∧ OnlyRegs [(.SHU_CTL, [sl, m])] s.dev d) ∧
    (∀ (n : Nat) (w : Word), n < 256 ∨ (n = 256 ∧ s.dev.fget F.SHU_CTL.LEN [sl, m] ≠ wbits w 8 0) → s.dev.fbit F.SHU_CTL.COMMIT [sl, m] = true →
      s.dev.shuArg sl m < 1024 →
      Does (.shutterEntryWrite sl m n w) s fun d =>
        d.counter (Ct.SHU_DROP_CNT (s.dev.shuArg sl m)) = s.dev.counter (Ct.SHU_DROP_CNT (s.dev.shuArg sl m)) + 1 ∧ Happened d 266 ∧ d.shu = s.dev.shu ∧
        OnlyRegsAndEvents [] s.dev d)) ∧
  (∀ (s : State) (t sl m : Nat), s.dev.active = true → sl < 32 → m < 32 → s.dev.fbit F.SHU_CTL.COMMIT [sl, m] = true →
    s.dev.shu.checked.contains (32 * sl + m) = false →
    let ph := fun n => s.dev.fget F.SHU_ENTRY.PHASE [sl, m, n]
    let len := min 256 (s.dev.fget F.SHU_CTL.LEN [sl, m])
    (∀ n, 0 < n → n < len → ph n < ph (n - 1) → (∀ j, 0 < j → j < n → ph (j - 1) ≤ ph j) →
      Does (.shutterCheckDone t sl m) s fun d =>
        d.fbit F.SHU_CTL.ERR [sl, m] = true ∧ d.fget F.SHU_CTL.ERRIDX [sl, m] = n ∧ d.fbit F.SHU_CTL.COMMIT [sl, m] = false ∧ Happened d 266 ∧
        d.shu = s.dev.shu ∧ OnlyRegsAndEvents [(.SHU_CTL, [sl, m])] s.dev d) ∧
    ((∀ j, 0 < j → j < len → ph (j - 1) ≤ ph j) → s.dev.cycState ≠ 0 →
      Does (.shutterCheckDone t sl m) s fun d =>
        d.shu = { s.dev.shu with checked := s.dev.shu.checked ++ [32 * sl + m] } ∧ d.regs = s.dev.regs ∧ d.counters = s.dev.counters) ∧
    ((∀ j, 0 < j → j < len → ph (j - 1) ≤ ph j) → s.dev.cycState = 0 → s.dev.slotPort sl m = none →
      Does (.shutterCheckDone t sl m) s fun d =>
        (∀ n < len, d.shuActive (32 * sl + m) n = s.dev.rget .SHU_ENTRY [sl, m, n]) ∧ d.shuLen (32 * sl + m) = len ∧
        d.fbit F.SHU_CTL.COMMIT [sl, m] = false ∧ d.counters = s.dev.counters ∧ OnlyRegs [(.SHU_CTL, [sl, m])] s.dev d)) ∧
  (∀ (s : State) (t p : Nat), s.dev.active = true → p < 1024 → s.dev.portSlot p < 32 → s.dev.portUp p = true → s.dev.fget F.SHU_STAT.PSTATE (s.dev.pIx p) = 1 →
    Does (.preemptionVerify t p true) s (fun d =>
      d.fget F.SHU_STAT.PSTATE (s.dev.pIx p) = 2 ∧ d.counters = s.dev.counters ∧ OnlyRegs [(.SHU_STAT, s.dev.pIx p)] s.dev d) ∧
    (mget 0 s.dev.shu.verifyAt p + ms 30 ≤ max t s.dev.now →
      Does (.preemptionVerify t p false) s fun d =>
        d.fget F.SHU_STAT.PSTATE (s.dev.pIx p) = 3 ∧ Happened d 268 ∧ OnlyRegsAndEvents [(.SHU_STAT, s.dev.pIx p)] s.dev d))

/-! ### Spill memory (chapter 10) -/

/-- Frames and pages of the spill memory. A candidate takes the pages that R229 and R230 allow, or its queue stops spilling; once its writes are done its
cells are in flight (R226, R228); the oldest middle frame is read back while the head is short, and its cells take it to the head (R227). A page in
flight returns to its ring, and the free of a free page is refused and logged (R240, R241); the pointer cache is refilled (R240); the reserve check of
R229; the audit and its walk (R242); rows close (R233, R234). -/
def Obligations.SpillPages : Prop :=
  (∀ (s : State) (i : Nat) (new : List Nat) (c : Copy), s.dev.active = true → s.dev.copy? i = some c → c.port < 1024 → s.dev.spilling c.port c.queue = true →
    (s.dev.candidate c.port c.queue).map Copy.id = some i → c.cellsDone = true →
    let room := s.dev.pageRoom c.port c.queue
    let old := (s.dev.spl.fill.filter fun x => x.1 == 32 * c.port + c.queue && decide (0 < room)).map fun x => x.2.1
    let pcells := spreadCells (c.cells.length + 1) ((if old.isEmpty then [] else [room]) ++ new.map fun _ => 16)
    new.length = ceilDiv (c.cells.length + 1 - room) 16 → s.dev.roomFor Copy.writing (old ++ new) pcells = true →
    (∀ e, s.dev.pagesAlloc c.port c.queue new = .ok e →
      Does (.spillFrame i new) s fun d =>
        d.copy? i = some { c with seg := .spilling, pages := old ++ new, pcells := pcells } ∧ d.spl.pages = e.spl.pages ∧ d.buf.cells = s.dev.buf.cells) ∧
    (s.dev.pagesAlloc c.port c.queue new = .denied →
      Does (.spillFrame i new) s fun d =>
        d.buf = s.dev.buf ∧ d.spl.pages = s.dev.spl.pages ∧ d.counter (Ct.SPL_PAGE_DENY_CNT c.port) = s.dev.counter (Ct.SPL_PAGE_DENY_CNT c.port) + 1 ∧
        (mget? s.dev.lastEv (64 * 235 + s.dev.portSlice c.port) = none → Happened d 235) ∧ OnlyRegsAndEvents [] s.dev d)) ∧
  (∀ (s : State) (i : Nat) (c : Copy), s.dev.active = true → s.dev.copy? i = some c → c.seg = .spilling → s.dev.srActive c.pages = true →
    s.dev.mayWrite c.pages = true → (∀ p ∈ c.pages, s.dev.pcOut (pageStack p) (pagePc p) = false) →
    Does (.spillWriteDone i [] []) s fun d =>
      d.copy? i = some { c with seg := .middle, spilled := true, cells := [] } ∧ d.spl.pages = s.dev.spl.pages ∧
      ∀ x ∈ c.cells, ∀ st, mget? s.dev.buf.cells x = some st → st.copies = [i] → ∃ st', mget? d.buf.cells x = some st' ∧ st'.inflight = true) ∧
  (∀ (s : State) (p q : Nat) (c : Copy), s.dev.active = true → q < 16 → (s.dev.middle p q).head? = some c →
    ((s.dev.headSeg p q).map fun x => x.cells.length).sum < s.dev.headTarget p q →
    (c.seg = .middle → (∀ x ∈ c.pages, s.dev.pageLost x = false) → s.dev.roomFor Copy.reading c.pages c.pcells = true →
      Does (.returnFrame p q) s fun d =>
        d.buf = { s.dev.buf with copies := s.dev.buf.copies.map fun z => if z.id = c.id then { z with seg := .returning } else z } ∧
        d.spl.pages = s.dev.spl.pages) ∧
    (c.seg = .spilling →
      Does (.returnFrame p q) s fun d => d.buf.cells = s.dev.buf.cells ∧ ∀ z ∈ d.buf.copies, z.id = c.id → z.seg = .head ∧ z.pages = [])) ∧
  (∀ (s : State) (i : Nat) (ptrs : List Nat) (c : Copy), s.dev.active = true → s.dev.copy? i = some c → c.seg = .returning → s.dev.srActive c.pages = true →
    (∀ x ∈ c.pages, s.dev.draining (pageStack x) (pagePc x) = false ∧ s.dev.pageLost x = false) → ptrs.length = cellsOf (c.len.getD c.bytes.length) →
    ptrs.Nodup → (∀ x ∈ ptrs, cellPtrOk x = true ∧ cellCluster x = s.dev.portCluster c.port ∧ mget? s.dev.buf.cells x = none) →
    Does (.returnReadDone i ptrs [] [] false) s fun d =>
      d.copy? i = some { c with pg := none, toHeadroom := false, seg := .head, pages := [], pcells := [], cells := c.cells ++ ptrs } ∧
      ∀ x ∈ ptrs, (mget? d.buf.cells x).map CellSt.copies = some [i]) ∧
  (∀ (s : State) (page : Nat), s.dev.active = true → page < 2 ^ 25 →
    (∀ st, mget? s.dev.spl.pages page = some st → st.inflight = true →
      Does (.pageReturn page) s fun d =>
        mget? d.spl.pages page = none ∧ (∀ k, k ≠ page → mget? d.spl.pages k = mget? s.dev.spl.pages k) ∧
        d.fget F.SPL_POOL.INFLIGHT [pageStack page] = s.dev.fget F.SPL_POOL.INFLIGHT [pageStack page] - 1 ∧
        d.fget F.SPL_POOL.FREE [pageStack page] = (s.dev.fget F.SPL_POOL.FREE [pageStack page] + 1) % 2 ^ 23 ∧ d.counters = s.dev.counters ∧
        OnlyRegs [(.SPL_POOL, [pageStack page]), (.SPL_GPOOL, []), (.SPL_STATUS, [pageStack page])] s.dev d) ∧
    (∀ st, mget? s.dev.spl.pages page = some st → st.inflight = false → Does (.pageReturn page) s fun d => d = s.dev) ∧
    (mget? s.dev.spl.pages page = none →
      Does (.pageReturn page) s fun d =>
        d.spl = s.dev.spl ∧ d.counter (Ct.SPL_DFREE_CNT (pageStack page)) = s.dev.counter (Ct.SPL_DFREE_CNT (pageStack page)) + 1 ∧ Happened d 226 ∧
        (if s.dev.fbit F.SPL_DFREE_LOG.VALID [pageStack page] then d.fbit F.SPL_DFREE_LOG.OVERRUN [pageStack page] = true
         else d.fbit F.SPL_DFREE_LOG.VALID [pageStack page] = true ∧ d.fget F.SPL_DFREE_LOG.PAGE [pageStack page] = page) ∧
        OnlyRegsAndEvents [(.SPL_DFREE_LOG, [pageStack page])] s.dev d)) ∧
  (∀ (s : State) (k : Nat), s.dev.active = true → k < 4 → s.dev.spl.stk.length = 4 → (s.dev.stack k).cache < 512 → s.dev.fget F.SPL_STATUS.SRSTATE [k] = 0 →
    (s.dev.stack k).cache < s.dev.fget F.SPL_POOL.FREE [k] →
    Does (.pageCacheRefill k) s fun d =>
      (d.stack k).cache = (s.dev.stack k).cache + min 512 (s.dev.fget F.SPL_POOL.FREE [k] - (s.dev.stack k).cache) ∧ d.regs = s.dev.regs ∧
      d.counters = s.dev.counters ∧ d.spl.pages = s.dev.spl.pages) ∧
  (∀ (s : State) (p q : Nat), s.dev.up = true → p < 1024 → q < 16 → s.dev.fbit F.SPL_Q.EN [p, q] = true ∨ s.dev.qAccepts .SPL_Q [p, q] = true →
    let e := if s.dev.qAccepts .SPL_Q [p, q] then s.dev.fset F.SPL_Q.EN [p, q] 1 else s.dev
    (e.splReserve ≤ ((List.range 4).map fun k => s.dev.stackPool k).sum - 8192 →
      Does (.splQEnable p q) s fun d =>
        d.fbit F.SPL_Q.EN [p, q] = true ∧ d.counters = s.dev.counters ∧ d.spl = s.dev.spl ∧ OnlyRegs [(.SPL_Q, [p, q]), (.SPL_GPOOL, [])] s.dev d) ∧
    (((List.range 4).map fun k => s.dev.stackPool k).sum - 8192 < e.splReserve →
      Does (.splQEnable p q) s fun d =>
        d.fbit F.SPL_Q.EN [p, q] = false ∧ d.fbit F.SPL_GPOOL.CFGERR [] = true ∧ Happened d 236 ∧ d.spl = s.dev.spl ∧
        OnlyRegsAndEvents [(.SPL_Q, [p, q]), (.SPL_GPOOL, [])] s.dev d)) ∧
  (∀ (s : State) (t k : Nat), s.dev.active = true → k < 4 → s.dev.spl.stk.length = 4 → s.dev.fbit F.SPL_AUD_CTL.EN [k] = true →
    (s.dev.stack k).auditAt + ms 1 ≤ max t s.dev.now →
    (s.dev.pageDiff k = 0 →
      Does (.spillAuditCheck t k) s fun d =>
        d.fget F.SPL_AUD_STATUS.DIFF [k] = 0 ∧ d.stack k = { s.dev.stack k with auditMiss := 0, auditAt := max t s.dev.now } ∧ d.counters = s.dev.counters ∧
        OnlyRegs [(.SPL_AUD_STATUS, [k])] s.dev d) ∧
    (s.dev.pageDiff k ≠ 0 → atLeast1 (s.dev.fget F.SPL_AUD_CTL.PERSIST [k]) ≤ (s.dev.stack k).auditMiss + 1 → (s.dev.stack k).walk = none →
      Does (.spillAuditCheck t k) s fun d =>
        d.fget F.SPL_AUD_STATUS.DIFF [k] = (s.dev.pageDiff k % (2 ^ 24 : Nat)).toNat ∧ Happened d 227 ∧ d.fbit F.SPL_AUD_CTL.WALK [k] = true ∧
        (d.stack k).walk.isSome = true ∧ OnlyRegsAndEvents [(.SPL_AUD_STATUS, [k]), (.SPL_AUD_CTL, [k])] s.dev d)) ∧
  (∀ (s : State) (k : Nat), s.dev.up = true → k < 4 → s.dev.spl.stk.length = 4 → (s.dev.stack k).walk = none →
    Does (.spillWalkStart k) s fun d =>
      (d.stack k).walk.isSome = true ∧ d.fbit F.SPL_AUD_CTL.WALK [k] = true ∧ Happened d 227 ∧ OnlyRegsAndEvents [(.SPL_AUD_CTL, [k])] s.dev d) ∧
  (∀ (s : State) (t k : Nat) (l : List Nat), s.dev.active = true → k < 4 → s.dev.spl.stk.length = 4 → (s.dev.stack k).walk = some l →
    s.dev.fbit F.SPL_AUD_CTL.RECLAIM [k] = false →
    let leaked := l.filter fun p => ! (s.dev.buf.copies.any fun c => c.pages.contains p) &&
      (match mget? s.dev.spl.pages p with | some x => ! x.inflight | none => false)
    leaked.length < 2 ^ 24 →
    Does (.spillWalkDone t k) s fun d =>
      (d.stack k).walk = none ∧ d.fbit F.SPL_AUD_CTL.WALK [k] = false ∧ d.fget F.SPL_AUD_STATUS.LEAKED [k] = leaked.length ∧
      (leaked ≠ [] → Happened d 228) ∧ d.spl.pages = s.dev.spl.pages ∧ OnlyRegsAndEvents [(.SPL_AUD_CTL, [k]), (.SPL_AUD_STATUS, [k])] s.dev d) ∧
  (∀ (s : State) (k b : Nat) (i : Instr), s.dev.active = true → k < 4 → i ∈ ([.refresh k b, .rowOpenTimeExpiry k b] : List Instr) →
    Does i s fun d => d.bankRow k b = ((s.dev.bankRow k b).1, none) ∧ (∀ j, j ≠ b → d.bankRow k j = s.dev.bankRow k j) ∧ d.regs = s.dev.regs ∧
      d.buf = s.dev.buf ∧ d.counters = s.dev.counters)

/-- A stack's self-refresh (R238, R239): it enters after its idle time, is in SR once the command is issued, abandons or leaves it at a request, leaves it where
SR_EN is cleared, and is back with its longest wait recorded. A training step records its margin and raises event 233 where it is low (R237).
Retirement of a pseudo-channel (R243, R244): it starts, or waits for the one under way; a read without response drops the frame being read; at its end the
pseudo-channel is marked retired and event 230 is raised. -/
def Obligations.SpillStacks : Prop :=
  (∀ (s : State) (t k : Nat), s.dev.active = true → k < 4 → s.dev.spl.stk.length = 4 →
    (s.dev.fget F.SPL_STATUS.SRSTATE [k] = 0 → s.dev.fbit F.SPL_CTL.SR_EN [k] = true → s.dev.stackIdle k = true →
      (s.dev.stack k).idleSince + us (atLeast1 (s.dev.fget F.SPL_CTL.SR_IDLE [k])) ≤ max t s.dev.now →
      Does (.srEnter t k) s fun d =>
        d.fget F.SPL_STATUS.SRSTATE [k] = 1 ∧ d.spl = s.dev.spl ∧ d.counters = s.dev.counters ∧ OnlyRegs [(.SPL_STATUS, [k])] s.dev d) ∧
    (s.dev.fget F.SPL_STATUS.SRSTATE [k] = 1 →
      Does (.srEntryDone t k) s (fun d =>
        d.fget F.SPL_STATUS.SRSTATE [k] = 2 ∧ (∀ b, (d.bankRow k b).2 = none) ∧ d.counters = s.dev.counters ∧ OnlyRegs [(.SPL_STATUS, [k])] s.dev d) ∧
      Does (.srExitRequest t k false) s fun d =>
        d.fget F.SPL_STATUS.SRSTATE [k] = 0 ∧ d.counters = (s.dev.count (Ct.SPL_SR_ABORT_CNT k) 1).counters ∧ OnlyRegs [(.SPL_STATUS, [k])] s.dev d) ∧
    (s.dev.fget F.SPL_STATUS.SRSTATE [k] = 2 → (s.dev.stack k).held = false →
      Does (.srExitRequest t k false) s (fun d =>
        d.fget F.SPL_STATUS.SRSTATE [k] = 3 ∧ (d.stack k).reqSince = some (max t s.dev.now) ∧ d.counters = (s.dev.count (Ct.SPL_SR_WAKE_CNT k) 1).counters ∧
        OnlyRegs [(.SPL_STATUS, [k])] s.dev d) ∧
      Does (.srExitRequest t k true) s fun d =>
        d.fget F.SPL_STATUS.SRSTATE [k] = 3 ∧ d.fbit F.SPL_CTL.SR_EN [k] = false ∧ d.counters = s.dev.counters ∧
        OnlyRegs [(.SPL_STATUS, [k]), (.SPL_CTL, [k])] s.dev d) ∧
    (∀ r, s.dev.fget F.SPL_STATUS.SRSTATE [k] = 3 → (s.dev.stack k).reqSince = some r →
      Does (.srExitDone t k) s fun d =>
        d.fget F.SPL_STATUS.SRSTATE [k] = 0 ∧ (d.stack k).reqSince = none ∧ (d.stack k).idleSince = max t s.dev.now ∧
        d.fget F.SPL_SR_LAT.MAX [k] = max (s.dev.fget F.SPL_SR_LAT.MAX [k]) (min 65535 (ceilDiv (max t s.dev.now - r) (ns 1))) ∧
        d.counters = s.dev.counters ∧ OnlyRegs [(.SPL_STATUS, [k]), (.SPL_SR_LAT, [k])] s.dev d)) ∧
  (∀ (s : State) (k : Nat), s.dev.up = true → k < 4 →
    Does (.srLatClear k) s fun d => d.fget F.SPL_SR_LAT.MAX [k] = 0 ∧ d.spl = s.dev.spl ∧ OnlyRegs [(.SPL_SR_LAT, [k])] s.dev d) ∧
  (∀ (s : State) (t k c margin : Nat), s.dev.active = true → k < 4 → c < 32 → margin < 256 → s.dev.spl.stk.length = 4 → s.dev.fbit F.SPL_TRAIN.EN [k] = true →
    (mget? (s.dev.stack k).trainDue c).getD 0 + ms (atLeast1 (s.dev.fget F.SPL_TRAIN.PERIOD [k])) ≤ max t s.dev.now →
    s.dev.fget F.SPL_STATUS.SRSTATE [k] = 0 → s.dev.pcOut k c = false → s.dev.drainGap k c = true →
    (s.dev.fget F.SPL_TRAIN.MARGIN_MIN [k] ≤ margin →
      Does (.spillTrainStep t k c margin false) s fun d =>
        d.fget F.SPL_TRAIN.MARGIN [k] = margin ∧ mget? (d.stack k).trainDue c = some (max t s.dev.now) ∧ d.counters = s.dev.counters ∧
        OnlyRegs [(.SPL_TRAIN, [k])] s.dev d) ∧
    (margin < s.dev.fget F.SPL_TRAIN.MARGIN_MIN [k] → s.dev.fbit F.SPL_RETIRE.AUTO [k] = false →
      Does (.spillTrainStep t k c margin false) s fun d =>
        d.fget F.SPL_TRAIN.MARGIN [k] = margin ∧ mget? (d.stack k).trainDue c = some (max t s.dev.now) ∧ Happened d 233 ∧
        OnlyRegsAndEvents [(.SPL_TRAIN, [k])] s.dev d)) ∧
  (∀ (s : State) (k c : Nat), s.dev.up = true → k < 4 → c < 32 → s.dev.spl.stk.length = 4 → s.dev.pcOut k c = false → (s.dev.stack k).retireQ.contains c = false →
    ((s.dev.stack k).retiring = none →
      Does (.pseudoChannelRetire k c) s fun d =>
        (d.stack k).retiring = some { pc := c, start := s.dev.now } ∧ d.fbit F.SPL_RETIRE.ACTIVE [k] = true ∧ d.fget F.SPL_RETIRE.PC [k] = c ∧ Happened d 229 ∧
        OnlyRegsAndEvents [(.SPL_RETIRE, [k])] s.dev d) ∧
    (∀ r, (s.dev.stack k).retiring = some r →
      Does (.pseudoChannelRetire k c) s fun d =>
        (d.stack k).retiring = some r ∧ (d.stack k).retireQ = (s.dev.stack k).retireQ ++ [c] ∧ d.counters = s.dev.counters ∧
        OnlyRegs [(.SPL_RETIRE, [k])] s.dev d)) ∧
  (∀ (s : State) (t k c : Nat) (x : Copy), s.dev.active = true → k < 4 → c < 32 → s.dev.spl.stk.length = 4 → x.port < 1024 → x.queue < 16 → CellsNamed s.dev →
    (s.dev.buf.copies.filter fun z => z.reading && z.pages.any fun p => pageStack p == k && pagePc p == c) = [x] →
    Does (.pcReadTimeout t k c) s fun d =>
      (∀ z ∈ d.buf.copies, z.id ≠ x.id) ∧ (d.stack k).silent.contains c = true ∧
      d.counter (Ct.SPL_RETIRE_DROP_CNT (32 * x.port + x.queue)) = s.dev.counter (Ct.SPL_RETIRE_DROP_CNT (32 * x.port + x.queue)) + 1) ∧
  (∀ (s : State) (t k : Nat) (r : Retire), s.dev.active = true → k < 4 → s.dev.spl.stk.length = 4 → (s.dev.stack k).retiring = some r → r.pc < 32 →
    (s.dev.stack k).retireQ = [] → (s.dev.stack k).silent.contains r.pc = false →
    (∀ y ∈ s.dev.spl.pages, pageStack y.1 = k → pagePc y.1 = r.pc → y.2.inflight = true ∨ y.2.orphan = true) →
    Does (.retirementDone t k true) s fun d =>
      (d.stack k).retiring = none ∧ bitN (d.fget F.SPL_STATUS.RETIRED [k]) r.pc = true ∧ d.fbit F.SPL_RETIRE.ACTIVE [k] = false ∧ Happened d 230 ∧
      (∀ y ∈ d.spl.pages, ¬ (pageStack y.1 = k ∧ pagePc y.1 = r.pc)) ∧ d.buf = s.dev.buf)

/-! ### Lanes and ports (chapter 13) -/

/-- Bring-up and the states of R293. A port is enabled where the check of R292 holds, and otherwise event 299 is raised; disabling it ends it.
Auto-negotiation ends at the highest common rate or restarts after 1 s (R294, R295); training leads to MEASURE on a joined link and to ALIGN on
others, or falls back (R293, R295); alignment brings the port UP with event 288; loss of link, RETRAIN, LOOP and DORMANT take it out of UP, and
clearing them starts it again. -/
def Obligations.PortStates : Prop :=
  (∀ (s : State) (p : Nat) (bad : List Nat), s.dev.up = true → p < 1024 → s.dev.fbit F.LN_PORT.EN [p] = false →
    (s.dev.portMode p = 3 ∧ s.dev.role = 3 ∧ s.dev.fbit F.FAB_STK.EN [] = true →
      Does (.portEnable p bad) s fun d => d.fbit F.LN_PORT.EN [p] = false ∧ Happened d 365 ∧ d.lane = s.dev.lane ∧ OnlyRegsAndEvents [] s.dev d) ∧
    (¬ (s.dev.portMode p = 3 ∧ s.dev.role = 3 ∧ s.dev.fbit F.FAB_STK.EN [] = true) → s.dev.portOk p = false →
      Does (.portEnable p bad) s fun d => d.fbit F.LN_PORT.EN [p] = false ∧ Happened d 299 ∧ d.lane = s.dev.lane ∧ OnlyRegsAndEvents [] s.dev d) ∧
    (¬ (s.dev.portMode p = 3 ∧ s.dev.role = 3 ∧ s.dev.fbit F.FAB_STK.EN [] = true) → s.dev.portOk p = true → s.dev.sliceDown (s.dev.portSlice p) = false →
      Does (.portEnable p bad) s fun d =>
        d.fbit F.LN_PORT.EN [p] = true ∧ d.portState p = (if s.dev.portMode p = 0 ∨ s.dev.portMode p = 3 then 1 else 2) ∧ (d.port p).partner = none ∧
        (s.dev.portMode p = 1 ∨ s.dev.portMode p = 2 → (d.port p).rate = s.dev.fget F.LN_PORT.RATE [p]) ∧ d.buf = s.dev.buf)) ∧
  (∀ (s : State) (p : Nat), s.dev.up = true → p < 1024 → s.dev.fbit F.LN_PORT.EN [p] = true →
    Does (.portDisable p) s fun d =>
      d.fbit F.LN_PORT.EN [p] = false ∧ d.portState p = 0 ∧ d.fbit F.LN_PSTAT.JOINED [p] = false ∧ (d.port p).partner = none ∧
      (s.dev.portUp p = true → Happened d 288)) ∧
  (∀ (s : State) (t p : Nat) (rates : List Nat) (fec : Nat) (lpi : Bool) (rec' : List Nat), s.dev.active = true → p < 1024 → s.dev.portState p = 1 →
    (s.dev.port p).retryAt = none →
    (∀ r, r ∈ s.dev.ownRates p → r ∈ rates → (∀ x ∈ s.dev.ownRates p, x ∈ rates → x ≤ r) →
      Does (.anComplete t p rates fec lpi rec') s fun d =>
        d.portState p = 2 ∧ (d.port p).rate = r ∧ (d.port p).since = max t s.dev.now ∧ (d.port p).partner.isSome = true ∧
        OnlyRegsAndEvents [(.LN_PSTAT, [p])] s.dev d) ∧
    ((∀ x ∈ s.dev.ownRates p, x ∉ rates) →
      Does (.anComplete t p rates fec lpi rec') s fun d =>
        d.portState p = 1 ∧ (d.port p).retryAt = some (max t s.dev.now + sec 1) ∧ OnlyRegsAndEvents [(.LN_PSTAT, [p])] s.dev d)) ∧
  (∀ (s : State) (t p : Nat), s.dev.active = true → p < 1024 → s.dev.portState p = 1 → (s.dev.port p).retryAt = none →
    (s.dev.port p).since + sec 3 ≤ max t s.dev.now →
    Does (.anRestart t p) s fun d =>
      d.portState p = 1 ∧ (d.port p).since = max t s.dev.now ∧ d.counters = s.dev.counters ∧ OnlyRegs [(.LN_PSTAT, [p])] s.dev d) ∧
  (∀ (s : State) (t p : Nat) (margins : List Nat), s.dev.active = true → p < 1024 → s.dev.portState p = 2 → (s.dev.port p).retryAt = none → (s.dev.port p).rate < 8 →
    s.dev.sparingOf (s.dev.portSlice p) = none → margins.length = s.dev.portLanes p → s.dev.lanesOn (s.dev.portLaneList p) = true →
    (∀ n ∈ s.dev.portLaneList p, s.dev.fget F.LN_STATUS.FAULT [n] = 0) →
    (s.dev.fbit F.LN_PSTAT.JOINED [p] = true → ∀ x ∈ (s.dev.portLaneList p).zip margins, s.dev.fget F.LN_ADAPT.MARGIN_MIN [x.1] ≤ x.2) →
    Does (.trainComplete t p margins [] 8) s fun d =>
      d.portState p = (if s.dev.fbit F.LN_PSTAT.JOINED [p] then 3 else 4) ∧ d.fget F.LN_PSTAT.CUR_RATE [p] = (s.dev.port p).rate ∧
      (∀ n ∈ s.dev.portLaneList p, d.fbit F.LN_STATUS.LOCK [n] = true) ∧ d.counters = s.dev.counters ∧ OnlySpans [laneSpan] s.dev d) ∧
  (∀ (s : State) (t p : Nat), s.dev.active = true → p < 1024 → s.dev.portState p = 2 → (s.dev.port p).retryAt = none → (s.dev.port p).fullTrain = false →
    (s.dev.port p).since + ms (10 * atLeast1 (s.dev.fget F.LN_PCTL.TRAIN_TMO [p])) ≤ max t s.dev.now →
    (s.dev.portMode p = 1 ∨ s.dev.portMode p = 2 →
      Does (.trainTimeout t p []) s fun d =>
        d.portState p = 2 ∧ (d.port p).retryAt = some (max t s.dev.now + sec 1) ∧ Happened d 297 ∧ OnlyRegsAndEvents [(.LN_PSTAT, [p])] s.dev d) ∧
    (∀ r, s.dev.portMode p = 0 ∨ s.dev.portMode p = 3 → (s.dev.port p).noAn = false → s.dev.commonBelow p (s.dev.port p).rate = some r →
      Does (.trainTimeout t p []) s fun d =>
        d.portState p = 2 ∧ (d.port p).rate = r ∧ d.counter (Ct.LN_FALLBACK_CNT p) = s.dev.counter (Ct.LN_FALLBACK_CNT p) + 1 ∧ Happened d 289 ∧
        OnlyRegsAndEvents [(.LN_PSTAT, [p])] s.dev d) ∧
    (s.dev.portMode p = 0 ∨ s.dev.portMode p = 3 → (s.dev.port p).noAn = false → s.dev.commonBelow p (s.dev.port p).rate = none →
      Does (.trainTimeout t p []) s fun d =>
        d.portState p = 1 ∧ (d.port p).retryAt = some (max t s.dev.now + sec 1) ∧ Happened d 297 ∧ OnlyRegsAndEvents [(.LN_PSTAT, [p])] s.dev d)) ∧
  (∀ (s : State) (t p e : Nat), s.dev.active = true → p < 1024 → (s.dev.port p).retryAt = some e → e ≤ max t s.dev.now →
    Does (.retrainDelay t p) s fun d =>
      d.portState p = s.dev.portState p ∧ (d.port p).retryAt = none ∧ (d.port p).since = max t s.dev.now ∧ d.counters = s.dev.counters ∧
      OnlyRegs [(.LN_PSTAT, [p])] s.dev d) ∧
  (∀ (s : State) (t p rx tx : Nat), s.dev.active = true → p < 1024 → s.dev.portState p = 3 →
    Does (.asymMeasured t p rx tx) s fun d =>
      d.portState p = 4 ∧ d.fget F.TIM_PORT.ASYM [p] = ((((rx : Int) - tx) / 512) % (2 ^ 32 : Nat)).toNat ∧ d.fbit F.TIM_PORT.ASYM_SRC [p] = true ∧
      d.counters = s.dev.counters ∧ OnlyRegs [(.LN_PSTAT, [p]), (.TIM_PORT, [p])] s.dev d) ∧
  (∀ (s : State) (t p : Nat) (rev perm : Bool), s.dev.active = true → p < 1024 → PortsNamed s.dev → s.dev.portState p = 4 →
    s.dev.sliceDown (s.dev.portSlice p) = false → s.dev.lanesOn (s.dev.portLaneList p) = true →
    Does (.alignComplete t p rev perm []) s fun d =>
      d.portState p = 5 ∧ d.fbit F.LN_PSTAT.REVERSED [p] = rev ∧ d.fbit F.LN_PSTAT.PERMUTED [p] = perm ∧ Happened d 288 ∧
      (rev = true ∨ perm = true → Happened d 291) ∧ (∀ n ∈ s.dev.portLaneList p, d.fbit F.LN_STATUS.LOCK [n] = true) ∧
      (d.port p).lastSel = max t s.dev.now ∧ d.buf.cells = s.dev.buf.cells) ∧
  (∀ (s : State) (t p : Nat), s.dev.active = true → p < 1024 → s.dev.portState p = 4 →
    ((s.dev.port p).resume = false → (s.dev.port p).since + ms 10 ≤ max t s.dev.now → s.dev.sliceDown (s.dev.portSlice p) = false →
      Does (.alignTimeout t p) s fun d =>
        d.portState p = (if s.dev.portMode p = 0 ∨ s.dev.portMode p = 3 then 1 else 2) ∧ d.counters = s.dev.counters ∧ OnlyRegs [(.LN_PSTAT, [p])] s.dev d) ∧
    ((s.dev.port p).resume = true → (s.dev.port p).since + us 800 ≤ max t s.dev.now →
      Does (.alignTimeout t p) s fun d =>
        d.portState p = 2 ∧ (d.port p).fullTrain = true ∧ (d.port p).resume = false ∧ d.counters = s.dev.counters ∧ OnlyRegs [(.LN_PSTAT, [p])] s.dev d)) ∧
  (∀ (s : State) (t p : Nat) (lost : List Nat), s.dev.active = true → p < 1024 → s.dev.portUp p = true → s.dev.arriving p = none →
    s.dev.sliceDown (s.dev.portSlice p) = false →
    Does (.linkLoss t p lost) s fun d =>
      d.portState p = (if s.dev.fbit F.LN_PSTAT.JOINED [p] ∨ s.dev.portMode p = 1 ∨ s.dev.portMode p = 2 then 2 else 1) ∧ Happened d 288 ∧
      (∀ n ∈ lost, n < 1056 → d.fbit F.LN_STATUS.LOCK [n] = false) ∧ d.buf = s.dev.buf ∧ OnlySpans [laneSpan, sliceSpan, eventSpan] s.dev d) ∧
  (∀ (s : State) (p v : Nat), s.dev.up = true → p < 1024 → s.dev.portUp p = true → s.dev.arriving p = none →
    Does (.portRetrain p) s (fun d =>
      d.portState p = 2 ∧ Happened d 288 ∧ (d.port p).noAn = s.dev.fbit F.LN_PSTAT.JOINED [p] ∧ d.buf = s.dev.buf ∧
      OnlySpans [laneSpan, sliceSpan, eventSpan] s.dev d) ∧
    (v % 4 ≠ 0 → Does (.loopSet p v) s fun d =>
      d.portState p = 6 ∧ d.fget F.LN_PCTL.LOOP [p] = v % 4 ∧ Happened d 288 ∧ d.buf = s.dev.buf ∧ OnlySpans [laneSpan, sliceSpan, eventSpan] s.dev d) ∧
    Does (.dormantSet p) s fun d =>
      d.portState p = 7 ∧ d.fbit F.LN_PCTL.DORMANT [p] = true ∧ Happened d 288 ∧ d.buf = s.dev.buf ∧ OnlySpans [laneSpan, sliceSpan, eventSpan] s.dev d) ∧
  (∀ (s : State) (p v : Nat), s.dev.up = true → p < 1024 → s.dev.portUp p = false →
    (v % 4 ≠ 0 → Does (.loopSet p v) s fun d =>
      d.fget F.LN_PCTL.LOOP [p] = v % 4 ∧ d.lane = s.dev.lane ∧ d.counters = s.dev.counters ∧ OnlyRegs [(.LN_PCTL, [p])] s.dev d) ∧
    Does (.dormantSet p) s (fun d =>
      d.fbit F.LN_PCTL.DORMANT [p] = true ∧ d.lane = s.dev.lane ∧ d.counters = s.dev.counters ∧ OnlyRegs [(.LN_PCTL, [p])] s.dev d) ∧
    Does (.portRetrain p) s (fun d => d = s.dev) ∧
    (s.dev.portState p = 6 → s.dev.sliceDown (s.dev.portSlice p) = false →
      Does (.loopClear p) s fun d =>
        d.fget F.LN_PCTL.LOOP [p] = 0 ∧ d.portState p = (if s.dev.portMode p = 0 ∨ s.dev.portMode p = 3 then 1 else 2) ∧ d.counters = s.dev.counters ∧
        OnlyRegs [(.LN_PCTL, [p]), (.LN_PSTAT, [p])] s.dev d) ∧
    (s.dev.portState p = 7 → s.dev.sliceHeld (s.dev.portSlice p) = false →
      Does (.dormantExit p) s fun d =>
        d.fbit F.LN_PCTL.DORMANT [p] = false ∧
        (if (s.dev.portLaneList p).all fun n => s.dev.fbit F.LN_STATUS.COEF_VALID [n] then d.portState p = 4 ∧ (d.port p).resume = true
         else d.portState p = 2 ∧ (d.port p).fullTrain = true) ∧ d.counters = s.dev.counters ∧ OnlySpans [laneSpan] s.dev d))

/-- Lane care, quiet and sparing. Idle lanes freeze (R300); a snapshot and the measurements of the margin, the fourth low one restoring the snapshot (R301); corrected
symbols are counted, and above the limit start sparing (R309). The directions enter and leave quiet (R303, R304). A lane group's power is on (R306). A
fault sets its bit with event 290 and takes an UP port down, or starts sparing, and clears after 1 s (R307, R308). A replacement starts, is agreed 1 ms
ahead or fails, and completes with event 294 (R309 to R311). -/
def Obligations.LaneCareAndSparing : Prop :=
  (∀ (s : State) (t p : Nat), s.dev.active = true → p < 1024 → s.dev.portUp p = true → s.dev.arriving p = none →
    (s.dev.port p).lastRx + s.dev.codewords p 4096 ≤ max t s.dev.now →
    Does (.adaptFreeze t p) s fun d =>
      (∀ n ∈ s.dev.portLaneList p, s.dev.fbit F.LN_ADAPT.FREEZE_EN [n] = true → d.fbit F.LN_STATUS.FROZEN [n] = true) ∧ d.counters = s.dev.counters ∧
      OnlyRegs ((s.dev.portLaneList p).map fun n => (.LN_STATUS, [n])) s.dev d) ∧
  (∀ (s : State) (t n : Nat), s.dev.active = true → n < 1056 → s.dev.adapting n = true →
    ((s.dev.laneSt n).snapAt + ms (100 * atLeast1 (s.dev.fget F.LN_ADAPT.SNAP_INT [n])) ≤ max t s.dev.now →
      s.dev.fget F.LN_ADAPT.MARGIN_MIN [n] ≤ s.dev.fget F.LN_STATUS.MARGIN [n] →
      Does (.adaptSnapshot t n) s fun d =>
        d.fget F.LN_STATUS.SNAP_MARGIN [n] = s.dev.fget F.LN_STATUS.MARGIN [n] ∧ (d.laneSt n).snapAt = max t s.dev.now ∧ d.counters = s.dev.counters ∧
        OnlyRegs [(.LN_STATUS, [n])] s.dev d) ∧
    (∀ m < 256, (s.dev.laneSt n).afterRevert = none →
      (s.dev.fget F.LN_STATUS.SNAP_MARGIN [n] ≤ m + s.dev.fget F.LN_ADAPT.DRIFT_LIM [n] →
        Does (.marginMeasure t n m) s fun d =>
          d.fget F.LN_STATUS.MARGIN [n] = m ∧ (d.laneSt n).lowCount = 0 ∧ d.counters = s.dev.counters ∧ OnlyRegs [(.LN_STATUS, [n])] s.dev d) ∧
      (m + s.dev.fget F.LN_ADAPT.DRIFT_LIM [n] < s.dev.fget F.LN_STATUS.SNAP_MARGIN [n] → (s.dev.laneSt n).lowCount = 3 →
        Does (.marginMeasure t n m) s fun d =>
          d.fget F.LN_STATUS.MARGIN [n] = m ∧ (d.laneSt n).lowCount = 0 ∧ (d.laneSt n).afterRevert = some 0 ∧
          d.counter (Ct.LN_REVERT_CNT n) = s.dev.counter (Ct.LN_REVERT_CNT n) + 1 ∧ Happened d 292 ∧ OnlyRegsAndEvents [(.LN_STATUS, [n])] s.dev d))) ∧
  (∀ (s : State) (t n p cnt : Nat) (inj : Bool), s.dev.active = true → n < 1056 → s.dev.portOfLane n = some p → s.dev.portUp p = true →
    (cnt ≤ 2 ^ s.dev.fget F.LN_SPARE.SER_LIM [n / 33] ∨ inj = true ∨ s.dev.fbit F.LN_SPARE.AUTO [n / 33] = false →
      Does (.symbolTrigger t n cnt inj) s fun d =>
        d.counter (Ct.LN_FEC_CORR_CNT n) = s.dev.counter (Ct.LN_FEC_CORR_CNT n) + BitVec.ofNat 64 cnt ∧ d.lane = s.dev.lane ∧ d.regs = s.dev.regs) ∧
    (2 ^ s.dev.fget F.LN_SPARE.SER_LIM [n / 33] < cnt → inj = false → s.dev.fbit F.LN_SPARE.AUTO [n / 33] = true → s.dev.sliceRepairing (n / 33) = false →
      s.dev.maySpare n = true → s.dev.lanePort n = some p →
      Does (.symbolTrigger t n cnt inj) s fun d =>
        d.counter (Ct.LN_FEC_CORR_CNT n) = s.dev.counter (Ct.LN_FEC_CORR_CNT n) + BitVec.ofNat 64 cnt ∧ d.fget F.LN_SPARE.STATE [n / 33] = 1 ∧
        d.sparingOf (n / 33) = some { target := n % 33, port := p, start := max t s.dev.now } ∧ Happened d 293 ∧ OnlySpans [laneSpan, eventSpan] s.dev d)) ∧
  (∀ (s : State) (t p : Nat), s.dev.active = true → p < 1024 →
    (s.dev.mayQuiet p = true → s.dev.fbit F.LN_PCTL.QTX_EN [p] = true →
      (s.dev.port p).lastSel + ns (100 * atLeast1 (s.dev.fget F.LN_PCTL.QIDLE [p])) ≤ max t s.dev.now →
      Does (.txQuietEnter t p) s fun d =>
        d.fbit F.LN_PSTAT.TXQ [p] = true ∧ (d.port p).waking = none ∧ (d.port p).lastRefresh = max t s.dev.now ∧ d.counters = s.dev.counters ∧
        OnlyRegs [(.LN_PSTAT, [p])] s.dev d) ∧
    (s.dev.fbit F.LN_PSTAT.TXQ [p] = true → (s.dev.port p).waking = none →
      ((s.dev.outstanding p).isSome = true ∨ s.dev.releaseList p ≠ [] →
        Does (.txQuietExit t p) s fun d => (d.port p).waking = some (max t s.dev.now + us 1) ∧ d.regs = s.dev.regs ∧ d.counters = s.dev.counters) ∧
      (let e := s.dev.advanceTo t
       e.shuttered p = true → e.phaseValid = true → (∃ q < 20, e.headSeg p q ≠ [] ∧ ∃ x, e.toOpening p q = some x ∧ x ≤ us 1) →
        Does (.quietWakeBeforeOpening t p) s fun d =>
          (d.port p).waking = some (max t s.dev.now + us 1) ∧ d.regs = s.dev.regs ∧ d.counters = s.dev.counters)) ∧
    (∀ w, s.dev.fbit F.LN_PSTAT.TXQ [p] = true → (s.dev.port p).waking = some w → w ≤ max t s.dev.now →
      Does (.txQuietExit t p) s fun d =>
        d.fbit F.LN_PSTAT.TXQ [p] = false ∧ (d.port p).waking = none ∧ d.counters = s.dev.counters ∧ OnlyRegs [(.LN_PSTAT, [p])] s.dev d) ∧
    (s.dev.fbit F.LN_PSTAT.TXQ [p] = true → (s.dev.port p).lastRefresh + ms 1 ≤ max t s.dev.now →
      Does (.lpiRefresh t p) s fun d => (d.port p).lastRefresh = max t s.dev.now ∧ d.regs = s.dev.regs ∧ d.counters = s.dev.counters) ∧
    (s.dev.portUp p = true → s.dev.fbit F.LN_PCTL.QRX_EN [p] = true → s.dev.fbit F.LN_PSTAT.RXQ [p] = false →
      Does (.rxQuietEnter t p) s fun d =>
        d.fbit F.LN_PSTAT.RXQ [p] = true ∧ (∀ n ∈ s.dev.portLaneList p, d.fbit F.LN_STATUS.FROZEN [n] = true) ∧ d.counters = s.dev.counters ∧
        OnlyRegs ((.LN_PSTAT, [p]) :: (s.dev.portLaneList p).map fun n => (.LN_STATUS, [n])) s.dev d) ∧
    (s.dev.portUp p = true → s.dev.fbit F.LN_PSTAT.RXQ [p] = true →
      Does (.rxQuietExit t p) s fun d =>
        d.fbit F.LN_PSTAT.RXQ [p] = false ∧ (∀ n ∈ s.dev.portLaneList p, d.fbit F.LN_STATUS.FROZEN [n] = false) ∧ d.counters = s.dev.counters ∧
        OnlyRegs ((.LN_PSTAT, [p]) :: (s.dev.portLaneList p).map fun n => (.LN_STATUS, [n])) s.dev d)) ∧
  (∀ (s : State) (t g : Nat), s.dev.active = true → g < 66 → (mget? s.dev.lane.groupOn g).isSome = true → s.dev.pwr.on.getLsbD g = true →
    Does (.laneGroupPowerOnDone t g) s fun d =>
      mget? d.lane.groupOn g = none ∧ (∀ n, n / 16 = g → d.fget F.LN_STATUS.PWR [n] = if s.dev.deepShut n then 1 else 2) ∧ d.counters = s.dev.counters ∧
      OnlyRegs ((rangeFrom (16 * g) 16).map fun n => (.LN_STATUS, [n])) s.dev d) ∧
  (∀ (s : State) (t n k : Nat), s.dev.active = true → n < 1056 → k < 5 →
    (bitN (s.dev.fget F.LN_STATUS.FAULT [n]) k = false →
      (s.dev.maySpare n = false → s.dev.portOfLane n = none →
        Does (.laneFault t n k) s fun d =>
          bitN (d.fget F.LN_STATUS.FAULT [n]) k = true ∧ Happened d 290 ∧ (d.laneSt n).faultAt = max t s.dev.now ∧
          OnlyRegsAndEvents [(.LN_STATUS, [n])] s.dev d) ∧
      (∀ p < 1024, s.dev.maySpare n = false → s.dev.portOfLane n = some p → s.dev.portUp p = true → s.dev.arriving p = none →
        s.dev.sliceDown (s.dev.portSlice p) = false →
        Does (.laneFault t n k) s fun d =>
          bitN (d.fget F.LN_STATUS.FAULT [n]) k = true ∧ Happened d 290 ∧ Happened d 288 ∧ d.portUp p = false ∧ d.buf = s.dev.buf ∧
          OnlySpans [laneSpan, sliceSpan, eventSpan] s.dev d) ∧
      (∀ p < 1024, s.dev.fbit F.LN_SPARE.AUTO [n / 33] = true → s.dev.maySpare n = true → s.dev.lanePort n = some p →
        Does (.laneFault t n k) s fun d =>
          bitN (d.fget F.LN_STATUS.FAULT [n]) k = true ∧ Happened d 290 ∧ Happened d 293 ∧ d.fget F.LN_SPARE.STATE [n / 33] = 1 ∧
          d.sparingOf (n / 33) = some { target := n % 33, port := p, start := max t s.dev.now, down := ! s.dev.portUp p } ∧ d.buf = s.dev.buf ∧
          OnlySpans [laneSpan, eventSpan] s.dev d)) ∧
    (bitN (s.dev.fget F.LN_STATUS.FAULT [n]) k = true → (s.dev.laneSt n).faultAt + sec 1 ≤ max t s.dev.now →
      (s.dev.portOfLane n = none →
        Does (.laneFaultClear t n k) s fun d =>
          bitN (d.fget F.LN_STATUS.FAULT [n]) k = false ∧ d.counters = s.dev.counters ∧ OnlyRegs [(.LN_STATUS, [n])] s.dev d) ∧
      (∀ p < 1024, s.dev.portOfLane n = some p → s.dev.portState p < 5 → s.dev.sliceDown (s.dev.portSlice p) = false →
        Does (.laneFaultClear t n k) s fun d =>
          bitN (d.fget F.LN_STATUS.FAULT [n]) k = false ∧ d.portState p = (if s.dev.portMode p = 0 ∨ s.dev.portMode p = 3 then 1 else 2) ∧
          d.counters = s.dev.counters ∧ OnlyRegs [(.LN_STATUS, [n]), (.LN_PSTAT, [p])] s.dev d))) ∧
  (∀ (s : State) (sl i p : Nat), s.dev.up = true → sl < 32 → i < 32 → p < 1024 → s.dev.sliceRepairing sl = false → s.dev.maySpare (33 * sl + i) = true →
    s.dev.lanePort (33 * sl + i) = some p →
    Does (.laneSpareGo sl i) s fun d =>
      d.fget F.LN_SPARE.TARGET [sl] = i ∧ d.fget F.LN_SPARE.STATE [sl] = 1 ∧ Happened d 293 ∧
      d.sparingOf sl = some { target := i, port := p, start := s.dev.now, down := ! s.dev.portUp p } ∧ d.buf = s.dev.buf ∧
      OnlySpans [laneSpan, eventSpan] s.dev d) ∧
  (∀ (s : State) (t sl : Nat) (x : Sparing), s.dev.active = true → sl < 32 → s.dev.sparingOf sl = some x → x.down = false → x.restore = false → x.target < 32 →
    x.port < 1024 →
    (x.moveAt = none →
      Does (.spareTrainDone t sl true) s (fun d =>
        d.fget F.LN_SPARE.STATE [sl] = 2 ∧ d.sparingOf sl = some { x with moveAt := some ((s.dev.advanceTo t).fab + ms 1) } ∧ d.counters = s.dev.counters ∧
        OnlyRegs [(.LN_SPARE, [sl])] s.dev d) ∧
      (s.dev.fget F.LN_STATUS.FAULT [33 * sl + x.target] = 0 → (s.dev.laneSt (33 * sl + x.target)).degraded = false →
        Does (.spareTrainDone t sl false) s fun d =>
          d.fget F.LN_SPARE.STATE [sl] = 0 ∧ d.sparingOf sl = none ∧ Happened d 295 ∧ d.buf = s.dev.buf ∧ OnlySpans [laneSpan, eventSpan] s.dev d)) ∧
    (∀ m, x.moveAt = some m → m ≤ (s.dev.advanceTo t).fab →
      Does (.spareSwitch t sl) s fun d =>
        d.fget F.LN_SPARE.STATE [sl] = 3 ∧ d.fget F.LN_SPARE.REPLACED [sl] = x.target ∧ d.sparingOf sl = none ∧
        d.fbit F.LN_STATUS.FAILED [33 * sl + x.target] = true ∧ d.fbit F.LN_STATUS.COEF_VALID [33 * sl + x.target] = false ∧ Happened d 294 ∧
        d.buf = s.dev.buf))

/-- The fault injector (R312 to R315). It is enabled for one port of a slice, in a mode that exists and that the port's FEC allows, and otherwise event 299
is raised, or event 94 once the deadbolt is blown; disabled, it releases what it holds in order. A frame that matches and is drawn is dropped,
corrupted, held and released in reverse order, or held for its delay; one that does not match passes. A codeword is drawn and counted. -/
def Obligations.FaultInjector : Prop :=
  (∀ (s : State) (p : Nat), s.dev.up = true → p < 1024 →
    (s.dev.fuses.deadbolt = true → ∀ i ∈ ([.injectorEnable p, .injectorDisable p] : List Instr),
      Does i s fun d => Happened d 94 ∧ d.lane = s.dev.lane ∧ d.buf = s.dev.buf ∧ OnlyRegsAndEvents [] s.dev d) ∧
    (s.dev.fuses.deadbolt = false → s.dev.fbit F.INJ_CTL.EN [p] = false →
      ((∃ q ∈ s.dev.portList, q ≠ p ∧ s.dev.fbit F.INJ_CTL.EN [q] = true ∧ s.dev.portSlice q = s.dev.portSlice p) ∨ 6 ≤ s.dev.fget F.INJ_CTL.MODE [p] ∨
        (s.dev.fget F.INJ_CTL.MODE [p] = 5 ∧ s.dev.portRs p = false) →
        Does (.injectorEnable p) s fun d => d.fbit F.INJ_CTL.EN [p] = false ∧ Happened d 299 ∧ d.lane = s.dev.lane ∧ OnlyRegsAndEvents [] s.dev d) ∧
      ((∀ q ∈ s.dev.portList, q ≠ p → s.dev.fbit F.INJ_CTL.EN [q] = true → s.dev.portSlice q ≠ s.dev.portSlice p) → s.dev.fget F.INJ_CTL.MODE [p] < 6 →
        (s.dev.fget F.INJ_CTL.MODE [p] = 5 → s.dev.portRs p = true) →
        Does (.injectorEnable p) s fun d => d.fbit F.INJ_CTL.EN [p] = true ∧ d.buf = s.dev.buf ∧ d.counters = s.dev.counters ∧ OnlyRegs [(.INJ_CTL, [p])] s.dev d)) ∧
    (s.dev.fuses.deadbolt = false →
      Does (.injectorDisable p) s fun d =>
        d.fbit F.INJ_CTL.EN [p] = false ∧ (d.port p).held = [] ∧ (d.port p).release = (s.dev.port p).release ++ (s.dev.port p).held ∧
        (∀ c ∈ d.buf.copies, c.id ∈ (s.dev.port p).held → c.held = false ∧ c.injDone = true) ∧ d.counters = s.dev.counters ∧
        OnlyRegs [(.INJ_CTL, [p])] s.dev d)) ∧
  (∀ (s : State) (t p m : Nat) (c : Copy) (i : Instr), s.dev.active = true → p < 1024 → s.dev.atInjector p m = some c → s.dev.injReady p c = true →
    (m, i) ∈ ([(1, .injectDrop p), (2, .injectCorrupt p), (3, .injectReorder t p), (4, .injectDelay t p)] : List (Nat × Instr)) →
    (s.dev.port p).held = [] →
    (s.dev.injMatch p c = false →
      Does i s fun d =>
        d.buf.copies = (s.dev.buf.copies.map fun z => if z.id = c.id then { z with injDone := true } else z) ∧ d.counters = s.dev.counters ∧ d.regs = s.dev.regs) ∧
    (s.dev.injMatch p c = true → s.dev.fget F.INJ_CTL.K [p] = 0 →
      (m = 1 → c.port < 1024 → CellsNamed s.dev →
        Does i s fun d => (∀ z ∈ d.buf.copies, z.id ≠ c.id) ∧ d.counter (Ct.INJ_CNT p) = s.dev.counter (Ct.INJ_CNT p) + 1) ∧
      (m = 2 →
        Does i s fun d =>
          d.buf.copies = (s.dev.buf.copies.map fun z => if z.id = c.id then { z with
            corrupt := some (s.dev.fget F.INJ_CTL.MOFF [p] + s.dev.fget F.INJ_CTL.OFF [p],
              if s.dev.fget F.INJ_CTL.XMASK [p] = 0 then 0xFF else s.dev.fget F.INJ_CTL.XMASK [p], s.dev.fbit F.INJ_CTL.FCSV [p]),
            injDone := true } else z) ∧
          d.counters = (s.dev.count (Ct.INJ_CNT p) 1).counters ∧ d.regs = s.dev.regs) ∧
      (m = 3 → (s.dev.port p).heldUntil = none →
        Does i s fun d =>
          d.buf.copies = (s.dev.buf.copies.map fun z => if z.id = c.id then { z with held := true } else z) ∧ (d.port p).held = [c.id] ∧
          (d.port p).heldUntil = some (max t s.dev.now + us 64) ∧ d.counters = (s.dev.count (Ct.INJ_CNT p) 1).counters ∧ d.regs = s.dev.regs) ∧
      (m = 4 →
        Does i s fun d =>
          d.buf = s.dev.buf ∧ (d.port p).held = [c.id] ∧ (d.port p).heldUntil = some (max t s.dev.now + ns (16 * s.dev.fget F.INJ_CTL.DELAY [p])) ∧
          d.counters = (s.dev.count (Ct.INJ_CNT p) 1).counters ∧ d.regs = s.dev.regs))) ∧
  (∀ (s : State) (t p e : Nat), s.dev.active = true → p < 1024 → (s.dev.port p).heldUntil = some e → e ≤ max t s.dev.now →
    (s.dev.fget F.INJ_CTL.MODE [p] = 3 → (s.dev.port p).held ≠ [] →
      Does (.reorderTimeout t p) s fun d =>
        (d.port p).held = [] ∧ (d.port p).heldUntil = none ∧ (d.port p).release = (s.dev.port p).release ++ (s.dev.port p).held.reverse ∧
        (∀ z ∈ d.buf.copies, z.id ∈ (s.dev.port p).held → z.held = false ∧ z.injDone = true) ∧ d.counters = s.dev.counters ∧ d.regs = s.dev.regs) ∧
    (∀ c, s.dev.atInjector p 4 = some c → c.ended = true → (s.dev.port p).held = [c.id] →
      Does (.delayRelease t p) s fun d =>
        (d.port p).held = [] ∧ (d.port p).heldUntil = none ∧ d.buf.copies = (s.dev.buf.copies.map fun z => if z.id = c.id then { z with injDone := true } else z) ∧
        d.counters = s.dev.counters ∧ d.regs = s.dev.regs)) ∧
  (∀ (s : State) (p : Nat), s.dev.active = true → p < 1024 → s.dev.portUp p = true → s.dev.fuses.deadbolt = false → s.dev.fbit F.INJ_CTL.EN [p] = true →
    s.dev.fget F.INJ_CTL.MODE [p] = 5 → s.dev.fget F.INJ_CTL.K [p] = 0 →
    Does (.injectSymbol p) s fun d => d.counters = (s.dev.count (Ct.INJ_CNT p) 1).counters ∧ d.buf = s.dev.buf ∧ d.regs = s.dev.regs)

/-- Clock generation. The crystal is lost and found again (R319): XO_LOST and TRN_RO with event 112, and the control-port and transom muxes forced
(R324) and asked to switch back. A reference is lost (R320): its bit clears with event 113, and where it is the selected one its PLLs coast and the
other reference, if good, is selected; ten seconds without loss make it good, and it is selected where the other is not good or REVERT says so. A PLL
locks (R322), a mux completes its switch (R323) or is forced to (R324). Voltage and frequency steps run their stages in the order of R325, within the
limits of R326, and end without a settling report as R327 says. A frequency is measured (R329). -/
def Obligations.ClocksAndSteps : Prop :=
  (∀ (s : State) (t : Nat), s.dev.up = true →
    (s.dev.fbit F.CLK_STATUS.XO_LOST [] = false →
      Does (.xoLost t) s fun d =>
        d.fbit F.CLK_STATUS.XO_LOST [] = true ∧ d.fbit F.CLK_STATUS.TRN_RO [] = true ∧ bitN (d.fget F.CLK_SWFORCED.MUX []) 5 = true ∧
        bitN (d.fget F.CLK_SWFORCED.MUX []) 6 = true ∧ Happened d 112 ∧ Happened d 115 ∧
        OnlyRegsAndEvents [(.CLK_STATUS, []), (.CLK_SWFORCED, [])] s.dev d) ∧
    (s.dev.fbit F.CLK_STATUS.XO_LOST [] = true →
      Does (.xoRestored t) s fun d =>
        d.fbit F.CLK_STATUS.XO_LOST [] = false ∧ 5 ∈ d.clk.switching ∧ 6 ∈ d.clk.switching ∧ d.counters = s.dev.counters ∧
        OnlyRegs [(.CLK_STATUS, [])] s.dev d)) ∧
  (∀ (s : State) (t k : Nat), s.dev.up = true → k < 2 →
    (s.dev.fget F.CLK_STATUS.REFSEL [] ≠ k →
      Does (.refLost t k) s fun d => d.refOk k = false ∧ Happened d 113 ∧ OnlyRegsAndEvents [(.CLK_STATUS, [])] s.dev d) ∧
    (s.dev.fget F.CLK_STATUS.REFSEL [] = k →
      Does (.refLost t k) s fun d =>
        d.refOk k = false ∧ Happened d 113 ∧ d.fget F.CLK_STATUS.REFSEL [] = (if s.dev.refOk (1 - k) = true then 1 - k else k) ∧
        (∀ i ∈ s.dev.refPlls, d.coasting i = true ∧ (s.dev.coasting i = false → bitN (d.fget F.CLK_STATUS.LOCK []) i = false)) ∧
        (s.dev.coasting 4 = false → Happened d 114)) ∧
    (s.dev.refSince k + sec 10 ≤ max t s.dev.now →
      (s.dev.fget F.CLK_STATUS.REFSEL [] = 1 - k → s.dev.refOk (1 - k) = false →
        Does (.refGood t k) s fun d =>
          d.refOk k = true ∧ d.fget F.CLK_STATUS.REFSEL [] = k ∧ (∀ m ∈ s.dev.refMuxes, m ∈ d.clk.switching) ∧ d.counters = s.dev.counters ∧
          OnlyRegs [(.CLK_STATUS, [])] s.dev d) ∧
      (s.dev.fget F.CLK_STATUS.REFSEL [] = 1 - k → s.dev.refOk (1 - k) = true →
        Does (.refGood t k) s fun d =>
          d.refOk k = true ∧ d.counters = s.dev.counters ∧ OnlyRegs [(.CLK_STATUS, [])] s.dev d ∧
          (s.dev.fbit F.CLK_CTL.REVERT [] = false ∨ s.dev.fget F.CLK_CTL.REF_PRI [] ≠ k → d.fget F.CLK_STATUS.REFSEL [] = 1 - k) ∧
          (s.dev.fbit F.CLK_CTL.REVERT [] = true → s.dev.fget F.CLK_CTL.REF_PRI [] = k → s.dev.refSince k + sec 20 ≤ max t s.dev.now →
            d.fget F.CLK_STATUS.REFSEL [] = k)))) ∧
  (∀ (s : State) (t i : Nat), s.dev.up = true → i < 8 →
    (s.dev.coasting i = false →
      Does (.pllRelock t i) s fun d =>
        bitN (d.fget F.CLK_STATUS.LOCK []) i = true ∧ d.coasting i = false ∧ d.counters = s.dev.counters ∧ OnlyRegs [(.CLK_STATUS, [])] s.dev d) ∧
    (s.dev.coasting i = true → s.dev.refThere i = true →
      Does (.pllRelock t i) s fun d =>
        bitN (d.fget F.CLK_STATUS.LOCK []) i = true ∧ d.coasting i = false ∧ Happened d 117 ∧
        (i < 4 → OnlyRegsAndEvents [(.CLK_STATUS, [])] s.dev d))) ∧
  (∀ (s : State) (t m : Nat) (ratio : Int), s.dev.up = true → m < 8 → m ∈ s.dev.clk.switching →
    (Does (.muxSwitch t m ratio) s fun d =>
      m ∉ d.clk.switching ∧ d.counters = s.dev.counters ∧ OnlyRegs [(.CLK_STATUS, []), (.TIM_FREQ, [])] s.dev d ∧ (m < 6 → d.regs = s.dev.regs) ∧
      (m = 6 → s.dev.fbit F.CLK_STATUS.XO_LOST [] = false → d.fbit F.CLK_STATUS.TRN_RO [] = false) ∧
      (m = 7 → d.fget F.TIM_FREQ.ADJ [] = unsext 40 (sext 40 (s.dev.fget F.TIM_FREQ.ADJ []) + ratio))) ∧
    (Does (.muxForcedSwitch t m ratio) s fun d =>
      m ∉ d.clk.switching ∧ bitN (d.fget F.CLK_SWFORCED.MUX []) m = true ∧ Happened d 115 ∧
      OnlyRegsAndEvents [(.CLK_SWFORCED, []), (.CLK_STATUS, []), (.TIM_FREQ, [])] s.dev d)) ∧
  (∀ (s : State) (t : Nat), s.dev.up = true → s.dev.aligned = false → s.dev.clk.step = none → s.dev.clk.uvForced = false →
    s.dev.fbit F.CLK_OP.RETIRED [s.dev.curOp] = false → s.dev.coasting 0 = false →
    (s.dev.curOp < s.dev.fget F.CLK_DVFS.TARGET [] → s.dev.curOp < 5 → s.dev.fbit F.CLK_OP.RETIRED [s.dev.curOp + 1] = false →
      Does (.dvfsStepStart t) s fun d =>
        d.fget F.CLK_DVFS.STATE [] = 3 ∧ d.curOp = s.dev.curOp ∧ d.clk.voltage = s.dev.clk.voltage ∧
        d.clk.step = some { up := false, target := s.dev.curOp + 1, waitV := false, freqOnly := s.dev.fbit F.CLK_DVFS.VREG_LOST [], since := max t s.dev.now } ∧
        d.counters = s.dev.counters ∧ OnlyRegs [(.CLK_DVFS, [])] s.dev d) ∧
    (s.dev.fget F.CLK_DVFS.TARGET [] < s.dev.curOp → s.dev.curOp ≤ 5 → s.dev.fbit F.CLK_OP.RETIRED [s.dev.curOp - 1] = false →
      s.dev.fbit F.CLK_DVFS.VREG_LOST [] = false →
      Does (.dvfsStepStart t) s fun d =>
        d.fget F.CLK_DVFS.STATE [] = 1 ∧ d.curOp = s.dev.curOp ∧ d.clk.voltage = s.dev.opVolt (s.dev.curOp - 1) ∧
        d.clk.step = some { up := true, target := s.dev.curOp - 1, waitV := true, since := max t s.dev.now } ∧
        d.counters = s.dev.counters ∧ OnlyRegs [(.CLK_DVFS, [])] s.dev d) ∧
    (s.dev.fget F.CLK_DVFS.TARGET [] < s.dev.curOp → s.dev.fbit F.CLK_OP.RETIRED [s.dev.curOp - 1] = true ∨ s.dev.fbit F.CLK_DVFS.VREG_LOST [] = true →
      Does (.dvfsStepStart t) s fun d => d.clk = s.dev.clk ∧ d.regs = s.dev.regs ∧ d.counters = s.dev.counters)) ∧
  (∀ (s : State) (t : Nat) (x : DvfsStep), s.dev.up = true → s.dev.clk.step = some x → x.target ≤ 5 →
    (x.waitV = false → x.since + us 1 ≤ max t s.dev.now →
      (x.up = true ∨ x.freqOnly = true →
        Does (.cpllRampDone t) s fun d =>
          d.curOp = x.target ∧ d.fget F.CLK_DVFS.STATE [] = 0 ∧ d.clk = { s.dev.clk with step := none } ∧
          d.counters = (s.dev.count (Ct.CLK_STEP_CNT 0) 1).counters ∧ OnlyRegs [(.CLK_DVFS, [])] s.dev d) ∧
      (x.up = false → x.freqOnly = false →
        Does (.cpllRampDone t) s fun d =>
          d.curOp = x.target ∧ d.fget F.CLK_DVFS.STATE [] = 1 ∧ d.clk.voltage = s.dev.opVolt x.target ∧
          d.clk.step = some { x with waitV := true, since := max t s.dev.now } ∧ d.counters = s.dev.counters ∧ OnlyRegs [(.CLK_DVFS, [])] s.dev d)) ∧
    (x.waitV = true → s.dev.fbit F.CLK_DVFS.VREG_LOST [] = false →
      (x.voltOnly = false → x.up = false →
        Does (.settlingReport t) s fun d =>
          d.fget F.CLK_DVFS.STATE [] = 0 ∧ d.curOp = s.dev.curOp ∧ d.clk = { s.dev.clk with step := none } ∧
          d.counters = (s.dev.count (Ct.CLK_STEP_CNT 0) 1).counters ∧ OnlyRegs [(.CLK_DVFS, [])] s.dev d) ∧
      (x.voltOnly = false → x.up = true → s.dev.coasting 0 = false →
        Does (.settlingReport t) s fun d =>
          d.fget F.CLK_DVFS.STATE [] = 2 ∧ d.curOp = s.dev.curOp ∧ d.clk = { s.dev.clk with step := some { x with waitV := false, since := max t s.dev.now } } ∧
          d.counters = s.dev.counters ∧ OnlyRegs [(.CLK_DVFS, [])] s.dev d) ∧
      (x.voltOnly = false → x.up = true → s.dev.coasting 0 = true →
        Does (.settlingReport t) s fun d =>
          d.fget F.CLK_DVFS.STATE [] = 0 ∧ d.curOp = x.target ∧ d.clk = { s.dev.clk with step := none } ∧
          d.counters = (s.dev.count (Ct.CLK_STEP_CNT 0) 1).counters ∧ OnlyRegs [(.CLK_DVFS, [])] s.dev d)) ∧
    (x.waitV = true → x.since + us (atLeast1 (s.dev.fget F.CLK_DVFS.SETTLE_TMO [])) ≤ max t s.dev.now →
      Does (.settleTimeout t) s fun d =>
        d.fbit F.CLK_DVFS.VREG_LOST [] = true ∧ d.curOp = s.dev.curOp ∧ d.fget F.CLK_DVFS.STATE [] = 0 ∧ d.clk = { s.dev.clk with step := none } ∧
        Happened d 116 ∧ OnlyRegsAndEvents [(.CLK_DVFS, [])] s.dev d)) ∧
  (∀ (s : State) (t : Nat), s.dev.up = true → s.dev.fbit F.CLK_DVFS.VREG_LOST [] = true → s.dev.clk.step = none → s.dev.aligned = false →
    Does (.settlingReport t) s fun d =>
      d.fbit F.CLK_DVFS.VREG_LOST [] = false ∧ d.clk.voltage = s.dev.opVolt s.dev.curOp ∧ d.fget F.CLK_DVFS.STATE [] = 1 ∧ d.curOp = s.dev.curOp ∧
      d.counters = s.dev.counters ∧ OnlyRegs [(.CLK_DVFS, [])] s.dev d) ∧
  (∀ (s : State) (t n : Nat), s.dev.up = true → n < 2 ^ 48 →
    (Does .freqMeasureStart s fun d =>
      d.fbit F.CLK_FMEAS_CTL.GO [] = true ∧ d.fbit F.CLK_FMEAS_RES.VALID [] = false ∧ d.clk.measure = some s.dev.now ∧ d.counters = s.dev.counters ∧
      OnlyRegs [(.CLK_FMEAS_CTL, []), (.CLK_FMEAS_RES, [])] s.dev d) ∧
    (∀ x, s.dev.clk.measure = some x →
      (Does (.freqMeasureDone t n) s fun d =>
        d.fget F.CLK_FMEAS_RES.COUNT [] = (if 56 ≤ s.dev.fget F.CLK_FMEAS_CTL.TGT [] then 0 else n) ∧ d.fbit F.CLK_FMEAS_RES.VALID [] = true ∧
        d.fbit F.CLK_FMEAS_RES.TIMEOUT [] = false ∧ d.fbit F.CLK_FMEAS_CTL.GO [] = false ∧ d.clk.measure = none ∧ d.counters = s.dev.counters ∧
        OnlyRegs [(.CLK_FMEAS_CTL, []), (.CLK_FMEAS_RES, [])] s.dev d) ∧
      (x + ms (atLeast1 (s.dev.fget F.CLK_FMEAS_CTL.TMO [])) ≤ max t s.dev.now →
        Does (.freqMeasureTimeout t n) s fun d =>
          d.fget F.CLK_FMEAS_RES.COUNT [] = (if 56 ≤ s.dev.fget F.CLK_FMEAS_CTL.TGT [] then 0 else n) ∧ d.fbit F.CLK_FMEAS_RES.VALID [] = true ∧
          d.fbit F.CLK_FMEAS_RES.TIMEOUT [] = true ∧ d.fbit F.CLK_FMEAS_CTL.GO [] = false ∧ d.clk.measure = none ∧ d.counters = s.dev.counters ∧
          OnlyRegs [(.CLK_FMEAS_CTL, []), (.CLK_FMEAS_RES, [])] s.dev d)))

/-- Device states, wakes, the capping loop, hints, thermal control and ageing. REQ = 2 is held without an image, warms the device up where it is cold, and
else enters Active with event 320; REQ = 1 starts the drain, and its end leaves the device in Standby with every frame left discarded and counted; REQ = 0
leads to Rest (R334 to R336). In Rest an enabled comparator or the alarm starts a warm restart, or waits for VDD_CORE; elsewhere the comparators do nothing
but guard the voltage (R336, R337). A PMBus round, an iteration of the loop, and the hints act as R340 to R343 give; the sensors, the throttle and the trip
as R345; a re-plan as R347. -/
def Obligations.PowerAndAgeing : Prop :=
  (∀ (s : State) (t : Nat) (bad : List Nat), s.dev.pwr.dev = .standby →
    (s.dev.fbit F.GLB_PROFILE.LOADED [] = false →
      Does (.activeRequest t bad) s fun d =>
        d.fget F.PWR_STATE.REQ [] = 2 ∧ d.pwr.reqHeld = true ∧ d.pwr.dev = .standby ∧ d.counters = s.dev.counters ∧ OnlyRegs [(.PWR_STATE, [])] s.dev d) ∧
    (s.dev.fbit F.GLB_PROFILE.LOADED [] = true → s.dev.fbit F.PWR_STATE.WARMING [] = false → s.dev.warm = false →
      Does (.activeRequest t bad) s fun d =>
        d.fbit F.PWR_STATE.WARMING [] = true ∧ d.pwr.dev = .standby ∧ d.pwr.warmSince = some (max t s.dev.now)) ∧
    (s.dev.fbit F.GLB_PROFILE.LOADED [] = true → s.dev.fbit F.PWR_STATE.WARMING [] = false → s.dev.warm = true →
      Does (.activeRequest t bad) s fun d => d.pwr.dev = .active ∧ d.fget F.PWR_STATE.CUR [] = 2 ∧ Happened d 320) ∧
    (s.dev.fbit F.PWR_STATE.WARMING [] = true → s.dev.warm = true →
      Does (.warmupDone t bad) s fun d => d.pwr.dev = .active ∧ d.fget F.PWR_STATE.CUR [] = 2 ∧ d.fbit F.PWR_STATE.WARMING [] = false ∧ Happened d 320) ∧
    (∀ w, s.dev.fbit F.PWR_STATE.WARMING [] = true → s.dev.pwr.warmSince = some w → w + sec (atLeast1 (s.dev.fget F.PWR_THERM.WARM_TMO [])) ≤ max t s.dev.now →
      Does (.warmupTimeout t bad) s fun d =>
        d.pwr.dev = .active ∧ d.fget F.PWR_STATE.CUR [] = 2 ∧ d.fbit F.PWR_STATE.WARMING [] = false ∧ Happened d 320 ∧ Happened d 327) ∧
    (Does (.standbyRequest t) s fun d =>
      d.fget F.PWR_STATE.REQ [] = 1 ∧ d.fbit F.PWR_STATE.WARMING [] = false ∧ d.pwr.dev = .standby ∧ d.pwr.restAfter = false ∧ d.counters = s.dev.counters) ∧
    (Does (.restRequest t) s fun d =>
      d.fget F.PWR_STATE.REQ [] = 0 ∧ d.fbit F.PWR_STATE.WARMING [] = false ∧ d.pwr.dev = .standby ∧ d.pwr.restAfter = true ∧ d.counters = s.dev.counters) ∧
    (s.dev.pwr.restAfter = true →
      Does (.restEntryComplete t) s fun d =>
        d.pwr.dev = .rest ∧ d.fget F.PWR_STATE.CUR [] = 0 ∧ Happened d 320 ∧ (∀ n, d.sessionOpen n = false) ∧
        ∀ k < 2, d.fbit F.CTL_CP.LINK [k] = false)) ∧
  (∀ (s : State) (t : Nat) (i : Instr), s.dev.active = true → s.dev.pwr.drainSince = none → i ∈ ([.standbyRequest t, .restRequest t] : List Instr) →
    Does i s fun d =>
      d.active = true ∧ d.pwr.drainSince = some (max t s.dev.now) ∧ (∀ p < 1024, d.fbit F.BUF_PORT.HOLD [p] = true) ∧ d.buf = s.dev.buf ∧
      d.counters = s.dev.counters ∧ d.pwr.restAfter = decide (i = .restRequest t) ∧
      OnlyRegs ((.PWR_STATE, []) :: (List.range 1024).map fun p => (.BUF_PORT, [p])) s.dev d) ∧
  (∀ (s : State) (t x : Nat), s.dev.active = true → s.dev.pwr.drainSince = some x → s.dev.buf.copies = [] → s.dev.req ≠ 2 →
    (s.dev.prs.frames = [] →
      Does (.activeDrainEnd t) s fun d =>
        d.pwr.dev = .standby ∧ d.fget F.PWR_STATE.CUR [] = 1 ∧ d.pwr.drainSince = none ∧ d.pwr.replanDue = true ∧ Happened d 320 ∧ d.buf.cells = [] ∧
        d.spl.pages = [] ∧ ∀ p ∈ s.dev.portList, s.dev.fbit F.LN_PORT.EN [p] = true → d.portUp p = false) ∧
    (x + ms 10 ≤ max t s.dev.now → (∀ p ∈ s.dev.portList, s.dev.portUp p = false) → (∃ f ∈ s.dev.prs.frames, f.loc ≠ .gone ∧ f.loc ≠ .admitted) →
      Does (.activeDrainEnd t) s fun d =>
        d.pwr.dev = .standby ∧ d.fget F.PWR_STATE.CUR [] = 1 ∧ d.prs.frames = [] ∧ Happened d 335 ∧ Happened d 320 ∧
        d.counter (Ct.PWR_STATE_DROP_CNT 0) = s.dev.counter (Ct.PWR_STATE_DROP_CNT 0) +
          BitVec.ofNat 64 (s.dev.prs.frames.filter fun f => f.loc != .gone && f.loc != .admitted).length)) ∧
  (∀ (s : State) (t src : Nat) (temp : Int) (i : Instr),
    (src = 0 ∧ i = .jhiComparator t temp ∧ (s.dev.fget F.TRN_CTL.JHI_T [] : Int) ≤ temp) ∨
      (src = 1 ∧ i = .jloComparator t temp ∧ temp ≤ sext 8 (s.dev.fget F.TRN_CTL.JLO_T [])) ∨ (src = 3 ∧ i = .cpedEnergy t) ∨
      (src = 4 ∧ i = .timeAlarm t ∧ s.dev.fbit F.TRN_ALARM.EN [] = true ∧ s.dev.fget F.TRN_ALARM.SEC [] ≤ tSec (s.dev.advanceTo t).fab) →
    (s.dev.up = true → src ≠ 4 → Does i s fun d => d = s.dev.advanceTo t) ∧
    (s.dev.up = true → src = 4 →
      Does i s fun d => d.fbit F.TRN_ALARM.EN [] = false ∧ Happened d 320 ∧ OnlyRegsAndEvents [(.TRN_ALARM, [])] s.dev d) ∧
    (s.dev.pwr.dev = .rest → s.dev.fbit F.TRN_WAKE.TRIPPED [] = false → bitN (s.dev.fget F.TRN_CTL.WAKE_EN []) src = true →
      (Supply.core ∉ s.dev.pwr.supplies → s.dev.fbit F.TRN_WAKE.PENDING [] = false →
        Does i s fun d =>
          d.pwr.dev = .rest ∧ d.fbit F.TRN_WAKE.PENDING [] = true ∧ d.fget F.TRN_WAKE.SRC [] = 2 ^ src ∧ d.counters = s.dev.counters ∧
          OnlyRegs [(.TRN_WAKE, []), (.TRN_ALARM, [])] s.dev d) ∧
      (Supply.core ∈ s.dev.pwr.supplies → Does i s fun d => d.pwr.dev = .standby ∧ d.fget F.GLB_RESET.CAUSE [] = 6 ∧ Happened d 320)) ∧
    (s.dev.pwr.dev = .rest → s.dev.fbit F.TRN_WAKE.TRIPPED [] = true →
      Does i s fun d => d.pwr.dev = .rest ∧ d.counters = s.dev.counters ∧ OnlyRegs [(.TRN_ALARM, [])] s.dev d)) ∧
  (∀ (s : State) (t mv : Nat),
    (s.dev.pwr.dev = .rest → s.dev.fbit F.TRN_WAKE.TRIPPED [] = false → s.dev.fget F.TRN_CTL.UV_T [] < mv →
      s.dev.fbit F.TRN_WAKE.PENDING [] = true ∨ bitN (s.dev.fget F.TRN_CTL.WAKE_EN []) 2 = true →
      ∀ i ∈ ([.vuvComparator t mv, .vddCorePresent t] : List Instr), Does i s fun d => d.pwr.dev = .standby ∧ d.fget F.GLB_RESET.CAUSE [] = 6 ∧ Happened d 320) ∧
    (s.dev.up = true → mv < s.dev.fget F.TRN_CTL.UV_T [] → s.dev.clk.uvForced = false →
      Does (.vuvComparator t mv) s fun d => d.clk = { s.dev.clk with uvForced := true } ∧ Happened d 328 ∧ OnlyRegsAndEvents [] s.dev d) ∧
    (s.dev.up = true → s.dev.fget F.TRN_CTL.UV_T [] + 20 ≤ mv →
      Does (.vuvRecover t mv) s fun d => d.clk = { s.dev.clk with uvForced := false } ∧ d.regs = s.dev.regs ∧ d.counters = s.dev.counters)) ∧
  (∀ (s : State) (t avg : Nat) (reads status est : List Nat), s.dev.up = true →
    Does (.pmbusRound t reads status est avg) s fun d =>
      (∀ r ∈ s.dev.rails, reads.getD r 65537 < 65536 → d.fget F.PWR_RAIL.POUT [r] = reads.getD r 65537 ∧
        (2 ≤ mget 0 s.dev.pwr.railGood r → d.fbit F.PWR_RAIL.LOST [r] = false)) ∧
      (∀ r ∈ s.dev.rails, reads.getD r 65537 = 65536 → mget 0 s.dev.pwr.railMiss r = 2 → s.dev.fbit F.PWR_RAIL.LOST [r] = false →
        d.fbit F.PWR_RAIL.LOST [r] = true ∧ Happened d 323) ∧
      d.fget F.PWR_STATUS.MEAS [] = min 65535 (s.dev.rails.map fun r =>
        if d.fbit F.PWR_RAIL.LOST [r] then est.getD r 0 else d.fget F.PWR_RAIL.POUT [r]).sum ∧
      d.fget F.PWR_CAP.EFF [] = (let cap := max 450 (min 1250 (s.dev.fgetB F.PWR_CAP.CAP []))
        if s.dev.rails.any fun r => d.fbit F.PWR_RAIL.LOST [r] then cap * 7 / 10 else cap)) ∧
  (∀ (s : State) (t i : Nat) (x : CapInput), s.dev.up = true → s.dev.inForce = [] → s.dev.pwr.hints = [] → s.dev.aligned = false →
    (∀ r ∈ s.dev.rails, s.dev.fbit F.PWR_RAIL.LOST [r] = false) → s.dev.fbit F.PWR_STATUS.DISAGREE [] = false → s.dev.fbit F.PWR_CTL.LOOP_EN [] = true →
    let e := x.raw * s.dev.fget F.PWR_STATUS.GAIN [] / 1024
    let b := 10 * max 450 (min 1250 (s.dev.fget F.PWR_CAP.CAP []))
    let top := s.dev.ceilingNow (decide (x.p0 ≤ b))
    let fits := fun j => s.dev.fbit F.CLK_OP.RETIRED [j] = false ∧ s.dev.spillAt x j ≤ spillMax ∧ x.power j (s.dev.spillAt x j) ≤ b * 2000000
    i ≤ 5 → top ≤ i → i ≤ max top (s.dev.fget F.PWR_CTL.OPMIN []) → fits i → (∀ j, top ≤ j → j < i → ¬ fits j) →
    (e ≤ b → s.dev.fget F.PWR_STATUS.LIMIT [] = 0 →
      Does (.capLoopIteration t x.raw x.links x.control x.p0 x.spill x.compute x.frames x.cells) s fun d =>
        d.fget F.PWR_STATUS.EST [] = min 65535 e ∧ d.fget F.CLK_DVFS.TARGET [] = i ∧ d.fget F.PWR_STATUS.LIMIT [] = (if top < i then 1 else 0) ∧
        d.fbit F.PWR_STATUS.BOOST [] = decide (top = 0) ∧ OnlyRegsAndEvents [(.PWR_STATUS, []), (.PWR_CAP, []), (.CLK_DVFS, [])] s.dev d) ∧
    (b < e →
      Does (.capLoopIteration t x.raw x.links x.control x.p0 x.spill x.compute x.frames x.cells) s fun d =>
        d.fget F.PWR_STATUS.EST [] = min 65535 e ∧ d.fget F.CLK_DVFS.TARGET [] = i ∧ d.fget F.PWR_STATUS.LIMIT [] = 1 ∧
        (∀ k < 4, k ∉ s.dev.pwr.hotStacks → d.fget F.SPL_CTL.THROTTLE [k] = 15) ∧
        OnlyRegsAndEvents ([(.PWR_STATUS, []), (.PWR_CAP, []), (.CLK_DVFS, [])] ++ (List.range 4).map fun k => (.SPL_CTL, [k])) s.dev d)) ∧
  (∀ (s : State) (t : Nat), s.dev.up = true →
    let e := s.dev.advanceTo t
    (Does (.hintStart t) s fun d =>
      d.pwr.hints.length = s.dev.pwr.hints.length ∧ d.counters = s.dev.counters ∧ OnlyRegs [(.PWR_STATUS, [])] s.dev d ∧
      (d.fbit F.PWR_STATUS.HINT [] = true ↔ ∃ h ∈ d.pwr.hints, h.stop.isSome = true) ∧
      (∀ h ∈ s.dev.pwr.hints, ∀ n, h.stop = none → h.cyc = some n → e.phaseTime n h.phase ≤ e.fab + us (e.fgetB F.PWR_HCLASS.LEAD [h.cls]) →
        { h with stop := some (e.phaseTime n h.phase + h.len * e.cyc.per / 2 ^ 40) } ∈ d.pwr.hints)) ∧
    (Does (.hintEnd t) s fun d =>
      (∀ h, h ∈ d.pwr.hints ↔ h ∈ s.dev.pwr.hints ∧ ∀ x, h.stop = some x → e.fab < x) ∧ d.counters = s.dev.counters ∧
      (d.fbit F.PWR_STATUS.HINT [] = true ↔ ∃ h ∈ d.pwr.hints, h.stop.isSome = true) ∧ OnlyRegs [(.PWR_STATUS, [])] s.dev d)) ∧
  (∀ (s : State) (t : Nat) (temps stk : List Int), s.dev.up = true → temps.length = 64 → (∀ v ∈ temps, -2048 ≤ v ∧ v ≤ 2047) →
    ((∀ v ∈ temps, v < 1040) →
      Does (.sensorRead t temps stk) s fun d =>
        (∀ j < 64, d.sensor j = temps.getD j 0 ∧ d.sensor j ≤ d.hot) ∧ d.hot = d.sensor (d.fget F.PWR_THERM.HOTIDX []) ∧ d.pwr.dev = s.dev.pwr.dev ∧
        (∀ k < 4, ∀ v, stk[k]? = some v → 95 ≤ v → k ∉ s.dev.pwr.hotStacks → k ∈ d.pwr.hotStacks ∧ d.fget F.SPL_CTL.THROTTLE [k] ≤ 3) ∧
        (∀ k < 4, ∀ v, stk[k]? = some v → v < 90 → k ∉ d.pwr.hotStacks) ∧ d.counters = s.dev.counters ∧
        OnlyRegs (((List.range 64).map fun j => (.PWR_TSENS, [j])) ++ ((List.range 4).map fun k => (.SPL_CTL, [k])) ++ [(.PWR_THERM, [])]) s.dev d) ∧
    ((∃ v ∈ temps, 1040 ≤ v) →
      Does (.sensorRead t temps stk) s fun d =>
        d.pwr.dev = .rest ∧ d.fbit F.TRN_WAKE.TRIPPED [] = true ∧ d.pins.thermtripN = false ∧ d.clk.voltage = 0 ∧ Happened d 320)) ∧
  (∀ (s : State) (t : Nat), s.dev.up = true →
    (8 * s.dev.throtT ≤ s.dev.hot →
      (s.dev.pwr.thermal = 0 →
        Does (.throttleStep t) s fun d =>
          d.pwr.thermal = min 5 (s.dev.ceilingNow true + 1) ∧ d.fbit F.PWR_STATUS.THROT [] = true ∧ Happened d 324 ∧
          OnlyRegsAndEvents [(.PWR_STATUS, []), (.CLK_DVFS, [])] s.dev d) ∧
      (0 < s.dev.pwr.thermal → s.dev.pwr.throttleAt + us 100 ≤ max t s.dev.now →
        Does (.throttleStep t) s fun d =>
          d.pwr.thermal = min 5 (s.dev.pwr.thermal + 1) ∧ d.counters = s.dev.counters ∧ OnlyRegs [(.PWR_STATUS, []), (.CLK_DVFS, [])] s.dev d)) ∧
    (∀ x, s.dev.hot < 8 * s.dev.throtT → 0 < s.dev.pwr.thermal → s.dev.pwr.coolSince = some x → x + ms 1 ≤ max t s.dev.now →
      s.dev.pwr.throttleAt + ms 1 ≤ max t s.dev.now →
      Does (.throttleStep t) s fun d =>
        d.pwr.thermal = s.dev.pwr.thermal - 1 ∧ d.fbit F.PWR_STATUS.THROT [] = decide (s.dev.pwr.thermal ≠ 1) ∧ d.counters = s.dev.counters ∧
        OnlyRegs [(.PWR_STATUS, []), (.CLK_DVFS, [])] s.dev d)) ∧
  (∀ (s : State) (t shift : Nat) (i : Instr), s.dev.up = true →
    i = .ageGo t shift ∨ (i = .ageReplan t shift ∧ (s.dev.pwr.replanDue = true ∨
      s.dev.pwr.lastReplan + sec (3600 * atLeast1 (s.dev.fget F.AGE_CTL.PERIOD [])) ≤ max t s.dev.now)) →
    let need := fun j => ceilDiv (min 65535 shift * kv j) 50000 * 5
    Does i s fun d =>
      d.fget F.AGE_STATUS.SHIFT [] = min 65535 shift ∧ d.fget F.AGE_STATUS.SEC [] = tSec (s.dev.advanceTo t).fab % 2 ^ 48 ∧
      d.fbit F.AGE_CTL.GO [] = false ∧ d.pwr.lastReplan = max t s.dev.now ∧ d.pwr.replanDue = false ∧
      d.pwr.summaries.length = min 512 (s.dev.pwr.summaries.length + 1) ∧
      (∀ j < 6, (s.dev.fbit F.AGE_CTL.AUTO [] = false → d.fget F.CLK_OP.VADJ [j] = s.dev.fget F.CLK_OP.VADJ [j]) ∧
        (s.dev.fbit F.AGE_CTL.AUTO [] = true →
          max (s.dev.fget F.CLK_OP.VADJ [j]) (min (need j) 40) ≤ d.fget F.CLK_OP.VADJ [j] ∧
          (s.dev.pwr.replanDue = false → d.fget F.CLK_OP.VADJ [j] = max (s.dev.fget F.CLK_OP.VADJ [j]) (min (need j) 40)) ∧
          (s.dev.pwr.replanDue = true → ∀ w ∈ s.dev.ageRec, wbits w 62 56 = 1 → wbits w 55 40 = j → wbits w 39 24 ≤ d.fget F.CLK_OP.VADJ [j]))) ∧
      (40 < need 0 → s.dev.fbit F.AGE_CTL.AUTO [] = true → s.dev.hasMilestone 2 0 = false → d.fbit F.CLK_OP.RETIRED [0] = true ∧ Happened d 331) ∧
      (∀ j, 1 ≤ j → j < 6 → d.fbit F.CLK_OP.RETIRED [j] = s.dev.fbit F.CLK_OP.RETIRED [j] ∧
        (40 < need j → s.dev.hasMilestone 3 j = false → Happened d 332)))

/-- Fabric domains and stack mode. FAB_CTL.EN is taken or refused (R353). A domain message that fails on format is counted with event 362, one of another
domain or already seen is discarded, and an accepted one is remembered and relayed (R355 to R357). Members are numbered, kept by their HELLOs and dropped
(R358). CYCLE carries the period, which takes effect at EFF_NUM (R360). Epochs are issued and armed (R361). The deputy takes over from a silent manager,
and the claim that wins is followed (R362, R363). Deficits are reported and lead to a longer cycle (R364, R365); SHED sets the mask (R366). In stack mode
control frames are sent and heard every 10 ms (R369). -/
def Obligations.DomainsAndStacks : Prop :=
  (∀ (s : State) (t : Nat), s.dev.up = true →
    (s.dev.role = 0 → Does (.fabEnable t) s fun d => d = s.dev.advanceTo t) ∧
    (s.dev.role = 3 → s.dev.fbit F.FAB_STK.EN [] = true → Does (.fabEnable t) s fun d => Happened d 365 ∧ OnlyRegsAndEvents [] s.dev d) ∧
    (s.dev.role = 1 ∨ s.dev.role = 2 → s.dev.fabEn = false →
      (s.dev.fbit F.TIM_PTP_CLOCK.EXTCFG [] = false ∨ (s.dev.role = 1 ∧ s.dev.cycSrc ≠ 1) ∨ (s.dev.role = 2 ∧ s.dev.cycSrc = 1) →
        Does (.fabEnable t) s fun d => d.fabEn = false ∧ Happened d 354 ∧ OnlyRegsAndEvents [] s.dev d) ∧
      (s.dev.fbit F.TIM_PTP_CLOCK.EXTCFG [] = true → s.dev.role = 1 → s.dev.cycSrc = 1 →
        Does (.fabEnable t) s fun d => d.fabEn = true ∧ d.fabState = 1 ∧ d.fabric.lastPace = max t s.dev.now) ∧
      (s.dev.fbit F.TIM_PTP_CLOCK.EXTCFG [] = true → s.dev.role = 2 → s.dev.cycSrc ≠ 1 →
        Does (.fabEnable t) s fun d =>
          d.fabEn = true ∧ d.fabState = 3 ∧ d.rget .FAB_MGR [] = s.dev.fuses.uid ∧ d.fabric.rosterDue = true ∧
          d.fbit F.FAB_MEMBER.VALID [s.dev.myNum] = true ∧ d.rget .FAB_MEMBER_UID [s.dev.myNum] = s.dev.fuses.uid))) ∧
  (∀ (s : State) (t typ : Nat) (m : DomRx) (i : Instr), s.dev.up = true →
    (typ, i) ∈ ([(1, .helloRx t m), (2, .rosterRx t m), (3, .cycleMsgRx t m), (4, .epochRx t m), (5, .paceRx t m), (6, .shedRx t m),
      (7, .takeoverRx t m)] : List (Nat × Instr)) →
    (s.dev.fabEn = false ∨ m.port ∉ s.dev.domainLinks → Does i s fun d => d = s.dev.advanceTo t) ∧
    (s.dev.fabEn = true → m.port ∈ s.dev.domainLinks → domFormatOk m = false →
      Does i s fun d =>
        d.counter (Ct.FAB_MSG_BAD_CNT 0) = s.dev.counter (Ct.FAB_MSG_BAD_CNT 0) + 1 ∧ d.fabric = s.dev.fabric ∧ d.cyc = s.dev.cyc ∧
        (mget? s.dev.lastEv (64 * 362 + unitDev) = none → Happened d 362) ∧ OnlyRegsAndEvents [] s.dev d) ∧
    (s.dev.fabEn = true → m.port ∈ s.dev.domainLinks → domFormatOk m = true →
      m.domain ≠ s.dev.fget F.FAB_CTL.DOMAIN [] ∨ (∃ x, s.dev.lastSeqOf m.origin = some x ∧ seqAbove m.seq x.1 = false) →
      Does i s fun d => d = s.dev.advanceTo t) ∧
    (Heard s.dev typ m → ¬ Prevails s.dev m → m.hops = 0 → typ ∈ [2, 3, 4, 6, 7] →
      Does i s fun d => d.lastSeqOf m.origin = some (m.seq, max t s.dev.now) ∧ d.regs = s.dev.regs ∧ d.counters = s.dev.counters ∧ d.cyc = s.dev.cyc)) ∧
  (∀ (s : State) (t : Nat) (m : DomRx), Heard s.dev 1 m → s.dev.inCharge = false → 0 < m.hops → s.dev.fabric.releasedAt + ms 100 ≤ max t s.dev.now →
    (∃ p ∈ s.dev.domainLinks, p ≠ m.port ∧ (m.tomgr = true → p = s.dev.fget F.FAB_STATUS.UPPORT [])) →
    Does (.helloRx t m) s fun d =>
      d.fabric.sent = {
          typ := 1, hops := m.hops - 1, tomgr := m.tomgr, origin := m.origin, term := m.term, seq := m.seq,
          ports := (s.dev.domainLinks.filter fun p => p != m.port && (! m.tomgr || p == s.dev.fget F.FAB_STATUS.UPPORT [])),
          payload := m.payload.take m.len } :: s.dev.fabric.sent ∧
      d.lastSeqOf m.origin = some (m.seq, max t s.dev.now) ∧ d.counters = (s.dev.count (Ct.FAB_RELAY_CNT 0) 1).counters ∧ d.regs = s.dev.regs) ∧
  (∀ (s : State) (t o : Nat), s.dev.up = true → (∀ y ∈ s.dev.fabric.lastSeq, y.1 = o → y.2.2 + ms 100 ≤ max t s.dev.now) →
    Does (.originForget t o) s fun d =>
      d.lastSeqOf o = none ∧ (∀ k, k ≠ o → d.lastSeqOf k = s.dev.lastSeqOf k) ∧ d.regs = s.dev.regs ∧ d.counters = s.dev.counters) ∧
  (∀ (s : State) (t : Nat), s.dev.up = true → s.dev.fabEn = true → s.dev.fabric.releasedAt + ms 100 ≤ max t s.dev.now →
    (s.dev.role = 1 → s.dev.inCharge = false → s.dev.fabState ≠ 6 → (∀ x, s.dev.fabric.lastHello = some x → x + ms 10 ≤ max t s.dev.now) →
      Does (.helloSend t) s fun d =>
        d.fabric.sent = ownMessage s.dev 1 true s.dev.helloPayload :: s.dev.fabric.sent ∧ d.fabric.lastHello = some (max t s.dev.now) ∧
        d.fabric.seq = s.dev.fabric.seq + 1 ∧ d.regs = s.dev.regs ∧ d.counters = s.dev.counters) ∧
    (s.dev.fabState = 2 → s.dev.fabric.lastPace + ms 100 ≤ max t s.dev.now →
      let e := s.dev.advanceTo t
      Does (.paceInterval t) s fun d =>
        d.fabric.sent = ownMessage s.dev 5 true (e.pacePayload (s.dev.fget F.FAB_STATUS.DEFICIT [])) :: s.dev.fabric.sent ∧
        d.fabric.lastPace = max t s.dev.now ∧ d.fabric.sentDeficit = s.dev.fget F.FAB_STATUS.DEFICIT [] ∧ d.regs = s.dev.regs ∧
        d.counters = s.dev.counters) ∧
    (s.dev.inCharge = true → s.dev.fabric.rosterDue = true ∨ s.dev.fabric.lastRoster + ms 100 ≤ max t s.dev.now →
      Does (.rosterSend t) s fun d =>
        d.fabric.rosterDue = false ∧ d.fabric.lastRoster = max t s.dev.now ∧ d.regs = s.dev.regs ∧ d.counters = s.dev.counters ∧
        ∃ l : List DomMsg, d.fabric.sent = l ++ s.dev.fabric.sent ∧ l.length = ceilDiv (max 1 s.dev.memberNums.length) 64 ∧
          ∀ x ∈ l, x.typ = 2 ∧ x.hops = 15 ∧ x.tomgr = false ∧ x.origin = s.dev.uid ∧ x.ports = s.dev.domainLinks)) ∧
  (∀ (s : State) (t n : Nat) (m : DomRx), Heard s.dev 1 m → s.dev.inCharge = true → m.hops = 0 → s.dev.fabric.waitingUids = [] →
    (∀ x ∈ s.dev.fabric.members, x.uid ≠ m.origin) → 1 ≤ n → n ≤ 255 →
    (∀ x ∈ s.dev.fabric.members, x.num ≠ n) → (∀ x ∈ s.dev.fabric.released, x.1 ≠ n) →
    (∀ k, 1 ≤ k → k < n → (∃ x ∈ s.dev.fabric.members, x.num = k) ∨ ∃ x ∈ s.dev.fabric.released, x.1 = k) →
    Does (.helloRx t m) s fun d =>
      d.fbit F.FAB_MEMBER.VALID [n] = true ∧ d.rget .FAB_MEMBER_UID [n] = BitVec.ofNat 64 m.origin ∧
      d.fbit F.FAB_MEMBER.PROFILE [n] = decide ((m.payload.getD 0 0).toNat % 2 = 1) ∧
      d.fabric.members = s.dev.fabric.members ++ [{ uid := m.origin, num := n, lastHello := max t s.dev.now, pri := (m.payload.getD 1 0).toNat }] ∧
      d.fabric.rosterDue = true ∧ Happened d 353) ∧
  (∀ (s : State) (t n : Nat), s.dev.up = true →
    (∀ x ∈ s.dev.fabric.members, s.dev.inCharge = true → n < 256 → x.num = n → x.uid ≠ s.dev.uid → x.lastHello + ms 50 ≤ max t s.dev.now →
      (∀ y ∈ s.dev.fabric.members, y.num = n → y = x) →
      Does (.memberTimeout t n) s fun d =>
        d.fbit F.FAB_MEMBER.VALID [n] = false ∧ (n, max t s.dev.now) ∈ d.fabric.released ∧ (∀ y ∈ d.fabric.members, y.num ≠ n) ∧
        d.fabric.rosterDue = true ∧ Happened d 353) ∧
    (∀ x ∈ s.dev.fabric.released, x.1 = n → x.2 + sec 1 ≤ max t s.dev.now → s.dev.fabric.waitingUids = [] →
      Does (.numberRelease t n) s fun d => (∀ y ∈ d.fabric.released, y.1 ≠ n) ∧ d.regs = s.dev.regs ∧ d.counters = s.dev.counters)) ∧
  (∀ (s : State) (t n fl : Nat) (m : DomRx), Heard s.dev 2 m → Prevails s.dev m → m.hops = 0 → s.dev.role = 1 → s.dev.fabState = 1 →
    (s.dev.uid, n, fl) ∈ rosterEntries m.payload → (∀ e ∈ rosterEntries m.payload, e.1 = s.dev.uid → e = (s.dev.uid, n, fl)) →
    Does (.rosterRx t m) s fun d =>
      d.fabState = 2 ∧ d.myNum = n ∧ d.fget F.FAB_STATUS.TERM [] = m.term % 65536 ∧ d.rget .FAB_MGR [] = BitVec.ofNat 64 m.origin ∧
      d.fbit F.PWR_STATUS.FORCED_FIXED [] = decide (8 < beNat (slice m.payload 4 2)) ∧ Happened d 352 ∧ Happened d 353) ∧
  (∀ (s : State) (t : Nat) (m : DomRx) (c : CycChange), Heard s.dev 3 m → Prevails s.dev m → m.hops = 0 → s.dev.role = 1 → s.dev.inCharge = false →
    s.dev.cycSrc = 1 → s.dev.cycState = 2 → s.dev.cyc.change = some c →
    let x := m.payload
    let base := (sec (beNat (slice x 0 6)) + ns (beNat (slice x 6 4)) + beNat (slice x 10 2)) * 65536
    let off := (base : Int) - s.dev.gridTime (beNat (slice x 12 6))
    let eff := beNat (slice x 26 6)
    off.natAbs ≤ 65536 * 65536 →
    Does (.cycleMsgRx t m) s fun d =>
      d.fget F.CYC_PERIOD.NS [] = beNat (slice x 18 4) ∧ d.fget F.CYC_PERIOD.FRAC [] = beNat (slice x 22 2) ∧
      d.fget F.CYC_PERIOD.STRETCH [] = beNat (slice x 24 2) ∧
      d.cyc = { s.dev.cyc with change := some { eff := eff, period := periodOf (d.rget .CYC_PERIOD []), stretch := beNat (slice x 24 2) } } ∧
      d.fget F.FAB_STATUS.UPPORT [] = m.port ∧ d.fabric.lastCycleRx = some (max t s.dev.now) ∧
      (cycReached s.dev.cyc.num eff = false → d.counters = s.dev.counters) ∧
      (cycReached s.dev.cyc.num eff = true → beNat (slice x 32 1) ≠ 2 →
        d.counter (Ct.FAB_LATE_CNT 0) = s.dev.counter (Ct.FAB_LATE_CNT 0) + 1 ∧ Happened d 357)) ∧
  (∀ (s : State) (t n : Nat), s.dev.up = true → s.dev.role ≠ 0 → n < 2 ^ 48 →
    let e := s.dev.advanceTo t
    let ph := s.dev.fget F.FAB_EPOCH_PHASE.PHASE []
    let far := e.phaseValid = true ∧ e.phaseReached n ph = false ∧ e.fab + us (atLeast1 (e.fget F.FAB_CTL.LEAD [])) ≤ e.phaseTime n ph
    (far → s.dev.inCharge = true → s.dev.cyc.epochs.length < 8 →
      Does (.epochIssue t n) s fun d =>
        d.fget F.FAB_EPOCH_CMD.RESULT [] = 1 ∧ d.fget F.FAB_EPOCH_PHASE.PENDING [] = s.dev.cyc.epochs.length + 1 ∧ Happened d 361 ∧
        d.cyc.epochs = s.dev.cyc.epochs ++
          [{ id := s.dev.fabric.nextEpoch % 65536, groups := s.dev.rget .FAB_EPOCH_GROUPS [], cyc := n, phase := ph }] ∧
        OnlyRegsAndEvents [(.FAB_EPOCH_CMD, []), (.FAB_EPOCH_PHASE, [])] s.dev d) ∧
    (¬ far ∨ s.dev.inCharge = false ∨ 8 ≤ s.dev.cyc.epochs.length →
      Does (.epochIssue t n) s fun d =>
        d.fget F.FAB_EPOCH_CMD.RESULT [] = 2 ∧ d.cyc = s.dev.cyc ∧ Happened d 361 ∧ OnlyRegsAndEvents [(.FAB_EPOCH_CMD, [])] s.dev d)) ∧
  (∀ (s : State) (t : Nat) (m : DomRx), Heard s.dev 4 m → Prevails s.dev m → m.hops = 0 → s.dev.inCharge = false →
    let e := s.dev.advanceTo t
    let x : Epoch := {
      id := beNat (slice m.payload 0 2), groups := BitVec.ofNat 64 (beNat (slice m.payload 4 8)), cyc := beNat (slice m.payload 12 6),
      phase := beNat (slice m.payload 20 4) }
    (e.phaseReached x.cyc x.phase = false → s.dev.cyc.epochs.length < 8 →
      Does (.epochRx t m) s fun d => d.cyc.epochs = s.dev.cyc.epochs ++ [x] ∧ d.fget F.FAB_EPOCH_PHASE.ID [] = x.id ∧ Happened d 361) ∧
    (e.phaseReached x.cyc x.phase = false → 8 ≤ s.dev.cyc.epochs.length →
      Does (.epochRx t m) s fun d => d.cyc = s.dev.cyc ∧ Happened d 361) ∧
    (e.phaseReached x.cyc x.phase = true →
      Does (.epochRx t m) s fun d =>
        d.counter (Ct.FAB_LATE_CNT 0) = s.dev.counter (Ct.FAB_LATE_CNT 0) + 1 ∧ Happened d 357 ∧
        ∀ g < 64, x.groups.getLsbD g = true → ∀ sl < 32,
          mget? d.mat.swaps (sl * 64 + g) = some ((mget? s.dev.mat.swaps (sl * 64 + g)).getD 0 + 1))) ∧
  (∀ (s : State) (t : Nat) (m : DomRx) (x : Member), Heard s.dev 5 m → m.hops = 0 → s.dev.inCharge = true → x ∈ s.dev.fabric.members → x.uid = m.origin →
    (∀ y ∈ s.dev.fabric.members, y.uid = m.origin → y = x) → x.num < 256 →
    let v := beNat (slice m.payload 0 2)
    (s.dev.policy = 2 →
      Does (.paceRx t m) s fun d =>
        d.fget F.FAB_MEMBER.DEFICIT [x.num] = v ∧ d.fget F.FAB_MEMBER.ACK [x.num] = beNat (slice m.payload 10 2) ∧
        d.fget F.FAB_MEMBER.SHED [x.num] = beNat (slice m.payload 12 2) ∧ d.cyc = s.dev.cyc ∧
        (farApart v (s.dev.fget F.FAB_MEMBER.DEFICIT [x.num]) = true → Happened d 358) ∧ OnlyRegsAndEvents [(.FAB_MEMBER, [x.num])] s.dev d) ∧
    (s.dev.policy = 0 → s.dev.cycSrc ≠ 2 → s.dev.fbit F.FAB_MEMBER.VALID [x.num] = true →
      (∀ n < 256, n ≠ x.num → s.dev.fget F.FAB_MEMBER.DEFICIT [n] ≤ v) → s.dev.fget F.CYC_STATUS.EFF_STRETCH [] < min 13107 v →
      s.dev.fabric.announced ≠ min 13107 v →
      let e := s.dev.advanceTo t
      Does (.paceRx t m) s fun d =>
        d.fget F.CYC_PERIOD.STRETCH [] = min 13107 v ∧ d.fabric.announced = min 13107 v ∧ Happened d 358 ∧
        d.cyc = { s.dev.cyc with change := some { eff := e.effNum, period := periodOf (s.dev.rforce .CYC_PERIOD []), stretch := min 13107 v } } ∧
        OnlyRegsAndEvents [(.FAB_MEMBER, [x.num]), (.CYC_PERIOD, [])] s.dev d)) ∧
  (∀ (s : State) (t : Nat) (m : DomRx), Heard s.dev 6 m → Prevails s.dev m → m.hops = 0 → s.dev.fabState = 2 → beNat (slice m.payload 0 8) = s.dev.uid →
    let v := beNat (slice m.payload 8 2)
    Does (.shedRx t m) s fun d => d.fabric.shedMask = v ∧ (¬ (s.dev.fabric.shedMask = 0 ↔ v = 0) → Happened d 360)) ∧
  (∀ (s : State) (t x : Nat), s.dev.up = true → s.dev.fabEn = true → s.dev.fabState = 2 → (∀ y ∈ s.dev.fabric.members, y.num < 256) →
    s.dev.fabric.lastCycleRx = some x → x + max (ms 10) (3 * s.dev.cyc.per / 65536) ≤ max t s.dev.now →
    (s.dev.fbit F.FAB_STATUS.DEPUTY [] = true →
      Does (.managerSilent t) s fun d =>
        d.fabState = 4 ∧ d.fget F.FAB_STATUS.TERM [] = (s.dev.fget F.FAB_STATUS.TERM [] + 1) % 65536 ∧ d.fbit F.FAB_STATUS.DEPUTY [] = false ∧
        d.rget .FAB_MGR [] = s.dev.fuses.uid ∧ d.cyc = s.dev.cyc ∧ Happened d 352 ∧ Happened d 355) ∧
    (s.dev.fbit F.FAB_STATUS.DEPUTY [] = false → s.dev.fabric.silent = false →
      Does (.managerSilent t) s fun d => d.fabric = { s.dev.fabric with silent := true } ∧ d.cyc = s.dev.cyc ∧ Happened d 356 ∧ OnlyRegsAndEvents [] s.dev d)) ∧
  (∀ (s : State) (t : Nat) (m : DomRx), Heard s.dev 7 m → Prevails s.dev m → m.hops = 0 →
    (s.dev.inCharge = false →
      Does (.takeoverRx t m) s fun d =>
        d.fget F.FAB_STATUS.TERM [] = m.term % 65536 ∧ d.rget .FAB_MGR [] = BitVec.ofNat 64 m.origin ∧ d.fabState = s.dev.fabState ∧
        d.counters = s.dev.counters ∧ OnlyRegs [(.FAB_STATUS, []), (.FAB_MGR, [])] s.dev d) ∧
    (s.dev.inCharge = true →
      Does (.takeoverRx t m) s fun d =>
        d.fget F.FAB_STATUS.TERM [] = m.term % 65536 ∧ d.rget .FAB_MGR [] = BitVec.ofNat 64 m.origin ∧
        d.fabState = (if s.dev.role = 2 then 5 else 2) ∧ Happened d 352 ∧ Happened d 363)) ∧
  (∀ (s : State) (t : Nat), s.dev.up = true →
    (s.dev.fabEn = true → s.dev.fabState = 5 → (∀ y ∈ s.dev.fabric.members, y.num < 256) →
      Does (.fabReclaim t) s fun d =>
        d.fabState = 3 ∧ d.fget F.FAB_STATUS.TERM [] = (s.dev.fget F.FAB_STATUS.TERM [] + 1) % 65536 ∧ d.myNum = 0 ∧
        d.rget .FAB_MGR [] = s.dev.fuses.uid ∧ Happened d 352) ∧
    (s.dev.fabState = 6 →
      Does (.fabRejoin t) s fun d => d.fabState = 1 ∧ d.fabric.rosterMiss = 0 ∧ Happened d 352 ∧ OnlyRegsAndEvents [(.FAB_STATUS, [])] s.dev d)) ∧
  (∀ (s : State) (t p uid pri num : Nat), s.dev.up = true → s.dev.stkOn = true →
    (∀ n, s.dev.fabric.stkMe = some n → (∀ x, s.dev.fabric.lastStk = some x → x + ms 10 ≤ max t s.dev.now) →
      Does (.stackControlSend t) s fun d =>
        d.fabric.lastStk = some (max t s.dev.now) ∧
        (∃ m : DomMsg, d.fabric.sent = m :: s.dev.fabric.sent ∧ m.ports = s.dev.stkPorts ∧
          m.payload = beBytes 8 s.dev.uid ++ beBytes 1 (s.dev.fget F.FAB_STK.PRI []) ++ beBytes 1 n ++ beBytes 1 (d.fget F.FAB_STK.MEMBERS []) ++
            beBytes 5 0) ∧
        OnlyRegsAndEvents [(.FAB_STK, [])] s.dev d) ∧
    (s.dev.stackPort p = true → uid ≠ s.dev.uid →
      Does (.stackControlRx t p uid pri num) s fun d =>
        (∃ y ∈ d.fabric.stk, y.uid = uid ∧ y.pri = pri ∧ y.num = (if num < 4 then some num else none) ∧ y.lastSeen = max t s.dev.now) ∧
        OnlyRegsAndEvents [(.FAB_STK, [])] s.dev d ∧
        (∀ k < 4, s.dev.fabric.stkMe = some k → num < 4 → num ≠ k → s.dev.fabric.stkSince + ms 30 ≤ max t s.dev.now → s.dev.fget F.FAB_STK.STATE [] ≠ 4 →
          s.dev.fget F.FAB_STK.PRI [] < pri → (∀ y ∈ s.dev.fabric.stk, y.uid ≠ uid → y.pri < pri) →
          d.fget F.FAB_STK.STATE [] = 2 ∧ d.fget F.FAB_STK.MASTER [] = num ∧ d.fget F.FAB_STK.MYNUM [] = k)) ∧
    (∀ x ∈ s.dev.fabric.stk, x.uid = uid → x.lastSeen + ms 30 ≤ max t s.dev.now →
      Does (.stackMemberTimeout t uid) s fun d => (∀ y ∈ d.fabric.stk, y.uid ≠ uid) ∧ OnlyRegsAndEvents [(.FAB_STK, [])] s.dev d))

/-- Digests, selections, events and repair. Flows are reported when idle, when flushed and when their profile is disabled (R379); a selection keeps the
counter it names where the mask allows it (R386). Event status bits clear by a write of 1, and masks are stored (R390). A slice repair starts or is
queued, drains, rebuilds and returns, each with its state, event and record (R395 to R402, R411). A sequencer out of service is repaired (R406), and a
replaced lane restored after its retest (R407). -/
def Obligations.DigestsEventsAndRepair : Prop :=
  (∀ (s : State) (t sl j : Nat), s.dev.up = true → sl < 32 →
    (s.dev.sliceOn sl = true →
      let e := s.dev.advanceTo t
      Does (.digestScan t sl) s fun d =>
        OnlyRegsAndEvents [] s.dev d ∧ ∀ f ∈ d.mat.flows, f.slice = sl →
          e.fab - f.last ≤ ms (atLeast1 (s.dev.fget F.TEL_DIG.IDLE [sl, f.profile])) ∧
          (e.fab - f.first < sec (atLeast1 (s.dev.fget F.TEL_DIG.ACTIVE [sl, f.profile])) ∨ (f.packets = 0 ∧ f.bytes = 0 ∧ f.first = e.fab))) ∧
    (Does (.digestFlush sl) s fun d =>
      d.mat.flows = (s.dev.mat.flows.filter fun f => f.slice != sl) ∧ d.fbit F.TEL_DIG_FLUSH.GO [sl] = false ∧
      OnlyRegsAndEvents [(.TEL_DIG_FLUSH, [sl])] s.dev d) ∧
    (j < 4 →
      Does (.digestDisable sl j) s fun d =>
        d.mat.flows = (s.dev.mat.flows.filter fun f => ! (f.slice == sl && f.profile == j)) ∧ d.fbit F.TEL_DIG.EN [sl, j] = false ∧
        OnlyRegsAndEvents [(.TEL_DIG, [sl, j])] s.dev d)) ∧
  (∀ (s : State) (t sl : Nat), s.dev.up = true → sl < 32 → s.dev.sliceOn sl = true →
    Does (.counterSelectionPoll t sl) s fun d => ∀ j < 16,
      let idx := s.dev.fget F.TEL_CSEL.INDEX [sl, j]
      let allowed := bitN (s.dev.fget F.CNT_ALLOW.ALLOW [bitsN idx 31 26]) (bitsN idx 25 21)
      (s.dev.fbit F.TEL_CSEL.EN [sl, j] = false ∨ ctExists idx = false ∨ allowed = false → mget 0 d.mat.kept (sl * 16 + j) = 0) ∧
      (s.dev.fbit F.TEL_CSEL.EN [sl, j] = true → ctExists idx = true → allowed = false → d.fbit F.TEL_CSEL.DENIED [sl, j] = true) ∧
      (s.dev.fbit F.TEL_CSEL.EN [sl, j] = true → ctExists idx = true → allowed = true →
        d.fbit F.TEL_CSEL.DENIED [sl, j] = false ∧
        ((∀ i < 16, s.dev.fbit F.TEL_CSEL.EN [sl, i] = true → ctExists (s.dev.fget F.TEL_CSEL.INDEX [sl, i]) = true →
            bitN (s.dev.fget F.CNT_ALLOW.ALLOW [bitsN (s.dev.fget F.TEL_CSEL.INDEX [sl, i]) 31 26]) (bitsN (s.dev.fget F.TEL_CSEL.INDEX [sl, i]) 25 21) = true) →
          mget 0 d.mat.kept (sl * 16 + j) = s.dev.counter idx))) ∧
  (∀ (s : State) (g v : Nat), s.dev.up = true → g < 48 →
    (Does (.eventStatusClear g v) s fun d =>
      (∀ i < 32, bitN (d.fget F.EVT_STATUS.STATUS [g]) i = (bitN (s.dev.fget F.EVT_STATUS.STATUS [g]) i && ! bitN v i) ∧
        bitN (d.fget F.EVT_STATUS.HIGH [g]) i = (bitN (s.dev.fget F.EVT_STATUS.HIGH [g]) i && ! bitN v i)) ∧
      d.counters = s.dev.counters ∧ OnlyRegs [(.EVT_STATUS, [g])] s.dev d) ∧
    (Does (.eventMaskWrite g v) s fun d =>
      d.fget F.EVT_MASK.MASK [g] = v % 2 ^ 32 ∧ d.counters = s.dev.counters ∧ OnlyRegs [(.EVT_MASK, [g])] s.dev d)) ∧
  (∀ (s : State) (sl : Nat), s.dev.up = true → sl < 32 →
    (s.dev.rep.cur = none → sl ∉ s.dev.rep.queue →
      Does (.sliceRepairGo sl) s fun d =>
        d.fget F.GLB_REP_STATUS.STATE [] = 1 ∧ d.fget F.GLB_REP_STATUS.SLICE [] = sl ∧ (∃ r, d.rep.cur = some r ∧ r.slice = sl ∧ r.start = s.dev.now ∧
          r.upPorts = s.dev.portList.filter fun p => s.dev.portUp p && s.dev.portSlice p == sl) ∧
        (∀ f ∈ d.prs.frames, s.dev.portSlice f.port = sl → f.loc ≠ .fifo) ∧ Happened d 416 ∧
        OnlyRegsAndEvents [(.GLB_REP_CTL, []), (.GLB_REP_STATUS, [])] s.dev d) ∧
    (∀ r, s.dev.rep.cur = some r → r.slice ≠ sl → sl ∉ s.dev.rep.queue →
      Does (.sliceRepairGo sl) s fun d =>
        d.rep.queue = s.dev.rep.queue ++ [sl] ∧ d.rep.cur = some r ∧ bitN (d.fget F.GLB_REP_STATUS.PENDING []) sl = true ∧ d.counters = s.dev.counters ∧
        OnlyRegs [(.GLB_REP_CTL, []), (.GLB_REP_STATUS, [])] s.dev d)) ∧
  (∀ (s : State) (t res : Nat) (rows log bad : List Nat) (r : SliceRepair), s.dev.up = true → s.dev.rep.cur = some r → r.slice < 32 →
    (s.dev.fget F.GLB_REP_STATUS.STATE [] = 1 → s.dev.prs.frames = [] → s.dev.sliceEmpty r.slice = true →
      Does (.sliceDrainDone t) s fun d =>
        d.fget F.GLB_REP_STATUS.STATE [] = 2 ∧ d.rep.cur = some r ∧ ∀ p ∈ s.dev.slicePorts r.slice, d.portState p = 7) ∧
    (s.dev.fget F.GLB_REP_STATUS.STATE [] = 2 → s.dev.rep.queue = [] → s.dev.rep.keptLanes = [] → s.dev.rep.keptGo = [] →
      s.dev.fbit F.LN_SPARE.GO [r.slice] = false → res = 1 ∨ res = 2 →
      Does (.sliceRebuildDone t res rows log bad) s fun d =>
        d.fget F.GLB_REP_STATUS.STATE [] = 0 ∧ d.rep.cur = none ∧ bitN (d.fget F.GLB_REP_FAILED.FAILED []) r.slice = true ∧ Happened d 418 ∧
        (res = 1 → Happened d 93)) ∧
    (s.dev.fget F.GLB_REP_STATUS.STATE [] = 2 →
      Does (.sliceRebuildDone t 0 rows log bad) s fun d => d.fget F.GLB_REP_STATUS.STATE [] = 3 ∧ d.rep.cur = some r) ∧
    (s.dev.fget F.GLB_REP_STATUS.STATE [] = 3 → (∀ p ∈ r.upPorts, s.dev.fbit F.LN_PORT.EN [p] = false ∨ s.dev.fbit F.LN_PCTL.DORMANT [p] = true ∨
        s.dev.portState p ≠ 7) → s.dev.rep.queue = [] → s.dev.rep.keptLanes = [] → s.dev.rep.keptGo = [] → s.dev.fbit F.LN_SPARE.GO [r.slice] = false →
      let i := s.dev.fget F.GLB_REP_STATUS.NEXT []
      Does (.sliceReturnDone t) s fun d =>
        d.fget F.GLB_REP_STATUS.STATE [] = 0 ∧ d.rep.cur = none ∧ bitN (d.fget F.GLB_REP_FAILED.FAILED []) r.slice = false ∧ Happened d 417 ∧
        Happened d 421 ∧ d.fget F.GLB_REP_STATUS.NEXT [] = (i + 1) % 16 ∧ d.fget F.GLB_RECOV_LOG.KIND [i] = 3 ∧
        d.fget F.GLB_RECOV_LOG.UNIT [i] = r.slice ∧ d.fget F.GLB_RECOV_LOG.LOST [i] = min r.lost (2 ^ 24 - 1))) ∧
  (∀ (s : State) (t sq res : Nat), s.dev.up = true → sq < 2 →
    (sq ∈ s.dev.csq.faulted → sq ∉ s.dev.csq.repairing → s.dev.precision = true ∨ s.dev.fget F.CSQ_STATUS.STATE [] ≠ 1 →
      (Does (.sequencerRepairGo sq) s fun d =>
        d.csq = { s.dev.csq with repairing := s.dev.csq.repairing ++ [sq] } ∧ d.counters = s.dev.counters ∧ OnlyRegs [(.GLB_REP_CTL, [])] s.dev d) ∧
      (∀ x, mget? s.dev.csq.faultTime sq = some x → s.dev.fbit F.GLB_REP_CTL.CSQ_AUTO [] = true → x + ms 100 ≤ max t s.dev.now →
        Does (.sequencerRepairAuto t sq) s fun d =>
          d.csq = { s.dev.csq with repairing := s.dev.csq.repairing ++ [sq] } ∧ d.counters = s.dev.counters ∧ d.regs = s.dev.regs)) ∧
    (sq ∈ s.dev.csq.repairing →
      (res ≠ 0 →
        Does (.sequencerRepairDone t sq res) s fun d =>
          sq ∉ d.csq.repairing ∧ d.csq.faulted = s.dev.csq.faulted ∧ Happened d 425 ∧ (res = 1 → Happened d 93) ∧ OnlyRegsAndEvents [] s.dev d) ∧
      (Does (.sequencerRepairDone t sq 0) s fun d =>
        sq ∉ d.csq.repairing ∧ sq ∉ d.csq.faulted ∧ Happened d 424 ∧ Happened d 421 ∧
        (s.dev.precision = false → d.fget F.CSQ_STATUS.STATE [] = 3)))) ∧
  (∀ (s : State) (t sl : Nat) (x : Sparing), s.dev.up = true → sl < 32 → s.dev.sparingOf sl = some x → x.restore = true → x.tested = false →
    x.start + ms 10 ≤ max t s.dev.now →
    (Does (.laneRetestDone t sl true) s fun d =>
      d.sparingOf sl = some { x with tested := true } ∧ d.regs = s.dev.regs ∧ d.counters = s.dev.counters) ∧
    (Does (.laneRetestDone t sl false) s fun d => d.sparingOf sl = none ∧ d.fget F.LN_SPARE.STATE [sl] = s.dev.fget F.LN_SPARE.STATE [sl] ∧ Happened d 423)) ∧
  (∀ (s : State) (sl : Nat), s.dev.up = true → sl < 32 →
    (s.dev.sliceRepairing sl = false → s.dev.sparingOf sl = none → s.dev.fget F.LN_SPARE.STATE [sl] = 3 →
      Does (.laneRestoreGo sl) s fun d =>
        (∃ x, d.sparingOf sl = some x ∧ x.restore = true ∧ x.start = s.dev.now ∧ x.target = s.dev.fget F.LN_SPARE.REPLACED [sl] % 33) ∧
        d.fbit F.GLB_REP_CTL.LANE_GO [] = false ∧ d.fget F.LN_SPARE.STATE [sl] = 3 ∧ d.counters = s.dev.counters) ∧
    (s.dev.sliceRepairing sl = false → s.dev.fget F.LN_SPARE.STATE [sl] ≠ 3 →
      Does (.laneRestoreGo sl) s fun d =>
        d.fbit F.GLB_REP_CTL.LANE_GO [] = false ∧ d.lane = s.dev.lane ∧ d.counters = s.dev.counters ∧ OnlyRegs [(.GLB_REP_CTL, [])] s.dev d) ∧
    (s.dev.sliceRepairing sl = true →
      Does (.laneRestoreGo sl) s fun d =>
        d.rep = { s.dev.rep with keptGo := s.dev.rep.keptGo ++ [sl] } ∧ d.lane = s.dev.lane ∧ d.counters = s.dev.counters ∧
        OnlyRegs [(.GLB_REP_CTL, [])] s.dev d))
end

