-- ==== Sys2Proof/Laws/Maps.lean ====
section
/-! SUPPORT. Laws of sparse maps and of bit fields: a read after a write, and the canonical form that every write keeps. -/

namespace Sys2Proof.Machine

variable {α : Type}

theorem mget_mins (d : α) (m : List (Nat × α)) (k : Nat) (v : α) (j : Nat) :
    mget d (mins m k v) j = if k = j then v else mget d m j := by
  induction m with
  | nil => simp [mins, mget]
  | cons p m ih =>
    obtain ⟨i, w⟩ := p
    simp only [mins]
    split
    · subst i; simp only [mget]; split <;> rfl
    · split
      · simp only [mget]
      · simp only [mget, ih]
        split
        · rename_i h _ hij; subst hij; simp [Ne.symm h]
        · rfl

theorem mget_mdel (d : α) (m : List (Nat × α)) (k j : Nat) :
    mget d (mdel m k) j = if k = j then d else mget d m j := by
  induction m with
  | nil => simp [mdel, mget]
  | cons p m ih =>
    obtain ⟨i, w⟩ := p
    simp only [mdel]
    split
    · subst i; simp only [mget, ih]; split <;> rfl
    · simp only [mget, ih]
      split
      · rename_i h hij; subst hij; simp [Ne.symm h]
      · rfl

/-- A read after a write gives the value written at its key and what was there before at every other. -/
theorem mget_mset [DecidableEq α] (d : α) (m : List (Nat × α)) (k : Nat) (v : α) (j : Nat) :
    mget d (mset d m k v) j = if k = j then v else mget d m j := by
  unfold mset
  split
  · rename_i h; rw [mget_mdel, h]
  · exact mget_mins d m k v j

/-- A write at another key leaves a read, whatever default either has. -/
theorem mget_mset_ne [DecidableEq α] (d e : α) (m : List (Nat × α)) (k : Nat) (v : α) (j : Nat) (h : k ≠ j) :
    mget e (mset d m k v) j = mget e m j := by
  unfold mset
  split
  · rw [mget_mdel, if_neg h]
  · rw [mget_mins, if_neg h]

theorem mget?_mins (m : List (Nat × α)) (k : Nat) (v : α) (j : Nat) :
    mget? (mins m k v) j = if k = j then some v else mget? m j := by
  induction m with
  | nil => simp [mins, mget?]
  | cons p m ih =>
    obtain ⟨i, w⟩ := p
    simp only [mins]
    split
    · subst i; simp only [mget?]; split <;> rfl
    · split
      · simp only [mget?]
      · simp only [mget?, ih]
        split
        · rename_i h _ hij; subst hij; simp [Ne.symm h]
        · rfl

theorem mget?_mdel (m : List (Nat × α)) (k j : Nat) :
    mget? (mdel m k) j = if k = j then none else mget? m j := by
  induction m with
  | nil => simp [mdel, mget?]
  | cons p m ih =>
    obtain ⟨i, w⟩ := p
    simp only [mdel]
    split
    · subst i; simp only [mget?, ih]; split <;> rfl
    · simp only [mget?, ih]
      split
      · rename_i h hij; subst hij; simp [Ne.symm h]
      · rfl

/-- The canonical form, said by its two parts: keys strictly rising, and no entry equal to the default. -/
theorem mwf_iff [DecidableEq α] (d : α) (m : List (Nat × α)) :
    mwf d m = true ↔ m.Pairwise (fun a b => a.1 < b.1) ∧ ∀ p ∈ m, p.2 ≠ d := by
  induction m with
  | nil => simp [mwf]
  | cons p m ih =>
    obtain ⟨i, v⟩ := p
    cases m with
    | nil => simp [mwf]
    | cons q m =>
      obtain ⟨j, w⟩ := q
      simp only [mwf, Bool.and_eq_true, decide_eq_true_eq, ih]
      constructor
      · rintro ⟨⟨hij, hv⟩, hp, hd⟩
        refine ⟨List.pairwise_cons.2 ⟨?_, hp⟩, ?_⟩
        · intro a ha
          rcases List.mem_cons.1 ha with rfl | ha
          · exact hij
          · exact Nat.lt_trans hij ((List.pairwise_cons.1 hp).1 a ha)
        · intro a ha
          rcases List.mem_cons.1 ha with rfl | ha
          · exact hv
          · exact hd a ha
      · rintro ⟨hp, hd⟩
        have h := List.pairwise_cons.1 hp
        exact ⟨⟨h.1 _ (List.mem_cons_self ..), hd _ (List.mem_cons_self ..)⟩, h.2, fun a ha => hd a (List.mem_cons_of_mem _ ha)⟩

theorem mem_mdel {m : List (Nat × α)} {k : Nat} {p : Nat × α} (h : p ∈ mdel m k) : p ∈ m := by
  induction m with
  | nil => exact h
  | cons q m ih =>
    obtain ⟨i, w⟩ := q
    simp only [mdel] at h
    split at h
    · exact List.mem_cons_of_mem _ (ih h)
    · rcases List.mem_cons.1 h with h | h
      · exact h ▸ List.mem_cons_self ..
      · exact List.mem_cons_of_mem _ (ih h)

theorem mem_mins {m : List (Nat × α)} {k : Nat} {v : α} {p : Nat × α} (h : p ∈ mins m k v) : p = (k, v) ∨ p ∈ m := by
  induction m with
  | nil => simpa [mins] using h
  | cons q m ih =>
    obtain ⟨i, w⟩ := q
    simp only [mins] at h
    split at h
    · rcases List.mem_cons.1 h with h | h
      · exact .inl h
      · exact .inr (List.mem_cons_of_mem _ h)
    · split at h
      · rcases List.mem_cons.1 h with h | h
        · exact .inl h
        · exact .inr h
      · rcases List.mem_cons.1 h with h | h
        · exact .inr (h ▸ List.mem_cons_self ..)
        · rcases ih h with h | h
          · exact .inl h
          · exact .inr (List.mem_cons_of_mem _ h)

theorem mdel_pairwise {m : List (Nat × α)} (k : Nat) (h : m.Pairwise (fun a b => a.1 < b.1)) :
    (mdel m k).Pairwise (fun a b => a.1 < b.1) := by
  induction m with
  | nil => exact h
  | cons q m ih =>
    obtain ⟨i, w⟩ := q
    have hq := List.pairwise_cons.1 h
    simp only [mdel]
    split
    · exact ih hq.2
    · exact List.pairwise_cons.2 ⟨fun a ha => hq.1 a (mem_mdel ha), ih hq.2⟩

theorem mins_pairwise {m : List (Nat × α)} (k : Nat) (v : α) (h : m.Pairwise (fun a b => a.1 < b.1)) :
    (mins m k v).Pairwise (fun a b => a.1 < b.1) := by
  induction m with
  | nil => simp [mins]
  | cons q m ih =>
    obtain ⟨i, w⟩ := q
    have hq := List.pairwise_cons.1 h
    simp only [mins]
    split
    · subst i; exact List.pairwise_cons.2 ⟨hq.1, hq.2⟩
    · split
      · rename_i hki
        refine List.pairwise_cons.2 ⟨?_, h⟩
        intro a ha
        rcases List.mem_cons.1 ha with rfl | ha
        · exact hki
        · exact Nat.lt_trans hki (hq.1 a ha)
      · rename_i hne hki
        refine List.pairwise_cons.2 ⟨?_, ih hq.2⟩
        intro a ha
        rcases mem_mins ha with rfl | ha
        · simp only; omega
        · exact hq.1 a ha

/-- A write keeps the canonical form. -/
theorem mset_mwf [DecidableEq α] (d : α) (m : List (Nat × α)) (k : Nat) (v : α) (h : mwf d m = true) : mwf d (mset d m k v) = true := by
  rw [mwf_iff] at h ⊢
  unfold mset
  split
  · exact ⟨mdel_pairwise k h.1, fun p hp => h.2 p (mem_mdel hp)⟩
  · rename_i hv
    refine ⟨mins_pairwise k v h.1, fun p hp => ?_⟩
    rcases mem_mins hp with rfl | hp
    · exact hv
    · exact h.2 p hp

/-- A fold of writes keeps the canonical form. -/
theorem foldl_mset_mwf [DecidableEq α] {β : Type} (d : α) (key : β → Nat) (val : β → α) (cond : β → Bool) (l : List β)
    (m : List (Nat × α)) (h : mwf d m = true) :
    mwf d (l.foldl (fun m x => if cond x then mset d m (key x) (val x) else m) m) = true := by
  induction l generalizing m with
  | nil => exact h
  | cons x l ih =>
    refine ih _ ?_
    dsimp only
    split
    · exact mset_mwf d m _ _ h
    · exact h

/-- An entry of a list replaced by f of it. -/
theorem getElem?_lmod (l : List α) (i j : Nat) (f : α → α) :
    (lmod l i f)[j]? = if i = j then l[j]?.map f else l[j]? := by
  induction l generalizing i j with
  | nil => cases i <;> simp [lmod]
  | cons x l ih =>
    cases i with
    | zero => cases j <;> simp [lmod]
    | succ i => cases j <;> simp [lmod, ih]

@[simp] theorem length_lmod (l : List α) (i : Nat) (f : α → α) : (lmod l i f).length = l.length := by
  induction l generalizing i with
  | nil => cases i <;> rfl
  | cons x l ih => cases i <;> simp [lmod, ih]

theorem getD_lmod_same (l : List α) (i : Nat) (f : α → α) (e : α) (h : i < l.length) : (lmod l i f).getD i e = f (l.getD i e) := by
  simp [List.getD, getElem?_lmod, List.getElem?_eq_getElem h]

theorem getD_lmod_ne (l : List α) (i j : Nat) (f : α → α) (e : α) (h : i ≠ j) : (lmod l i f).getD j e = l.getD j e := by
  simp [List.getD, getElem?_lmod, h]

theorem findFirst_some {p : α → Bool} {l : List α} {x : α} (h : findFirst p l = some x) : x ∈ l ∧ p x = true := by
  induction l with
  | nil => cases h
  | cons y l ih =>
    simp only [findFirst] at h
    split at h
    · cases h; exact ⟨List.mem_cons_self .., by assumption⟩
    · exact ⟨List.mem_cons_of_mem _ (ih h).1, (ih h).2⟩

/-- Each bit of a word with a field replaced. -/
theorem testBit_wput (w : Word) (hi lo v : Nat) (hl : lo ≤ hi) (hh : hi < 64) (i : Nat) :
    (wput w hi lo v).toNat.testBit i = if lo ≤ i ∧ i ≤ hi then v.testBit (i - lo) else w.toNat.testBit i := by
  by_cases hi64 : i < 64
  · have e : (wput w hi lo v).toNat.testBit i = (wput w hi lo v).getLsbD i := rfl
    have ew : w.toNat.testBit i = w.getLsbD i := rfl
    rw [e, ew]
    simp only [wput, BitVec.getLsbD_or, BitVec.getLsbD_and, BitVec.getLsbD_not, BitVec.getLsbD_ofNat, hi64, decide_true, Bool.true_and,
      Nat.testBit_shiftLeft, Nat.testBit_two_pow_sub_one, Nat.testBit_mod_two_pow]
    by_cases h1 : lo ≤ i <;> by_cases h2 : i ≤ hi
    · have : i - lo < hi + 1 - lo := by omega
      simp [h1, h2, this]
    · have : ¬ i - lo < hi + 1 - lo := by omega
      simp [h1, h2, this]
    · simp [h1]
    · simp [h1]
  · have h0 : ∀ x : Word, x.toNat.testBit i = false := fun x =>
      Nat.testBit_lt_two_pow (Nat.lt_of_lt_of_le x.isLt (Nat.pow_le_pow_right (by decide) (by omega)))
    have hni : ¬ (lo ≤ i ∧ i ≤ hi) := by omega
    rw [h0, h0, if_neg hni]

theorem testBit_bitsN (n hi lo i : Nat) : (bitsN n hi lo).testBit i = (decide (i < hi + 1 - lo) && n.testBit (lo + i)) := by
  simp [bitsN, Nat.testBit_mod_two_pow, Nat.testBit_shiftRight]

/-- A field written reads the low bits of what was written. -/
theorem wbits_wput_same (w : Word) (hi lo v : Nat) (hl : lo ≤ hi) (hh : hi < 64) : wbits (wput w hi lo v) hi lo = v % 2 ^ (hi + 1 - lo) := by
  apply Nat.eq_of_testBit_eq
  intro i
  rw [wbits, testBit_bitsN, testBit_wput w hi lo v hl hh, Nat.testBit_mod_two_pow]
  by_cases h : i < hi + 1 - lo
  · have : lo ≤ lo + i ∧ lo + i ≤ hi := by omega
    simp [h, this]
  · simp [h]

/-- A field written leaves every field that shares no bit with it. -/
theorem wbits_wput_disj (w : Word) (hi lo v hi' lo' : Nat) (hl : lo ≤ hi) (hh : hi < 64) (h : hi' < lo ∨ hi < lo') :
    wbits (wput w hi lo v) hi' lo' = wbits w hi' lo' := by
  apply Nat.eq_of_testBit_eq
  intro i
  rw [wbits, wbits, testBit_bitsN, testBit_bitsN, testBit_wput w hi lo v hl hh]
  by_cases h1 : i < hi' + 1 - lo'
  · have : ¬ (lo ≤ lo' + i ∧ lo' + i ≤ hi) := by omega
    simp [h1, this]
  · simp [h1]

theorem bitsN_lt (n hi lo : Nat) : bitsN n hi lo < 2 ^ (hi + 1 - lo) := Nat.mod_lt _ (Nat.two_pow_pos _)

theorem wbits_lt (w : Word) (hi lo : Nat) : wbits w hi lo < 2 ^ (hi + 1 - lo) := bitsN_lt _ _ _

end Sys2Proof.Machine
end

