-- ==== Sys2Proof/Laws/Regs.lean ====
section
/-! SUPPORT. Laws of the register file: what a stored register or field reads as afterwards, and what it leaves. -/

namespace Sys2Proof.Machine

/-- A stored register reads what was stored. -/
@[simp] theorem Dev.rget_rset_same (d : Dev) (n : RegName) (ix : List Nat) (v : Word) : (d.rset n ix v).rget n ix = v := by
  simp [Dev.rget, Dev.rset, mget_mset]

/-- A store leaves every register of another address. -/
theorem Dev.rget_rset_ne (d : Dev) (n : RegName) (ix : List Nat) (v : Word) (n' : RegName) (ix' : List Nat)
    (h : n.addr ix ≠ n'.addr ix') : (d.rset n ix v).rget n' ix' = d.rget n' ix' := by
  simp [Dev.rget, Dev.rset, mget_mset_ne _ _ _ _ _ _ h]

/-- A stored field reads the low bits of what was stored. -/
theorem Dev.fget_fset_same (d : Dev) (f : Fld) (ix : List Nat) (v : Nat) (hl : f.lo ≤ f.hi) (hh : f.hi < 64) :
    (d.fset f ix v).fget f ix = v % 2 ^ (f.hi + 1 - f.lo) := by
  simp [Dev.fget, Dev.fset, wbits_wput_same _ _ _ _ hl hh]

/-- A stored field leaves a field of the same register that shares no bit with it. -/
theorem Dev.fget_fset_disj (d : Dev) (f : Fld) (ix : List Nat) (v : Nat) (g : Fld) (hl : f.lo ≤ f.hi) (hh : f.hi < 64)
    (hr : g.reg = f.reg) (h : g.hi < f.lo ∨ f.hi < g.lo) : (d.fset f ix v).fget g ix = d.fget g ix := by
  simp [Dev.fget, Dev.fset, hr, wbits_wput_disj _ _ _ _ _ _ hl hh h]

/-- A stored field leaves the fields of every register of another address. -/
theorem Dev.fget_fset_ne (d : Dev) (f : Fld) (ix : List Nat) (v : Nat) (g : Fld) (jx : List Nat)
    (h : f.reg.addr ix ≠ g.reg.addr jx) : (d.fset f ix v).fget g jx = d.fget g jx := by
  simp [Dev.fget, Dev.fset, Dev.rget_rset_ne _ _ _ _ _ _ h]

/-- A stored field leaves the registers of every other address. -/
theorem Dev.rget_fset_ne (d : Dev) (f : Fld) (ix : List Nat) (v : Nat) (n : RegName) (jx : List Nat)
    (h : f.reg.addr ix ≠ n.addr jx) : (d.fset f ix v).rget n jx = d.rget n jx := Dev.rget_rset_ne _ _ _ _ _ _ h

theorem Dev.fget_lt (d : Dev) (f : Fld) (ix : List Nat) : d.fget f ix < 2 ^ (f.hi + 1 - f.lo) := wbits_lt _ _ _

theorem Dev.rget_congr {d e : Dev} (h : e.regs = d.regs) (n : RegName) (ix : List Nat) : e.rget n ix = d.rget n ix := by
  simp [Dev.rget, h]

/-- A field reads from the register file alone. -/
theorem Dev.fget_congr {d e : Dev} (h : e.regs = d.regs) (f : Fld) (ix : List Nat) : e.fget f ix = d.fget f ix := by
  simp [Dev.fget, Dev.rget, h]

/-- Applying a register's pending fields leaves the stored values. -/
@[simp] theorem Dev.rget_applyB (d : Dev) (n : RegName) (ix : List Nat) (m : RegName) (jx : List Nat) :
    (d.applyB n ix).rget m jx = d.rget m jx := rfl
@[simp] theorem Dev.fget_applyB (d : Dev) (n : RegName) (ix : List Nat) (f : Fld) (jx : List Nat) :
    (d.applyB n ix).fget f jx = d.fget f jx := rfl

/-- Once a register's pending fields have taken effect, the values in force are the stored ones. -/
theorem Dev.rforce_applyB (d : Dev) (n : RegName) (ix : List Nat) : (d.applyB n ix).rforce n ix = d.rget n ix := by
  simp [Dev.rforce, Dev.applyB, mget?_mdel, Dev.rget]

end Sys2Proof.Machine
end

