-- ==== Sys2Proof/Laws/State.lean ====
section
/-! SUPPORT. What each update of the state leaves: one lemma per field and update, so that no proof unfolds a record update. -/

namespace Sys2Proof.Machine


@[simp] theorem Dev.rset_now (d : Dev) (n : RegName) (ix : List Nat) (v : Word) : (d.rset n ix v).now = d.now := rfl
@[simp] theorem Dev.rset_fab (d : Dev) (n : RegName) (ix : List Nat) (v : Word) : (d.rset n ix v).fab = d.fab := rfl
@[simp] theorem Dev.rset_freeCtr (d : Dev) (n : RegName) (ix : List Nat) (v : Word) : (d.rset n ix v).freeCtr = d.freeCtr := rfl
@[simp] theorem Dev.rset_cntGen (d : Dev) (n : RegName) (ix : List Nat) (v : Word) : (d.rset n ix v).cntGen = d.cntGen := rfl
@[simp] theorem Dev.rset_inForce (d : Dev) (n : RegName) (ix : List Nat) (v : Word) : (d.rset n ix v).inForce = d.inForce := rfl
@[simp] theorem Dev.rset_counters (d : Dev) (n : RegName) (ix : List Nat) (v : Word) : (d.rset n ix v).counters = d.counters := rfl
@[simp] theorem Dev.rset_lastEv (d : Dev) (n : RegName) (ix : List Nat) (v : Word) : (d.rset n ix v).lastEv = d.lastEv := rfl
@[simp] theorem Dev.rset_fuses (d : Dev) (n : RegName) (ix : List Nat) (v : Word) : (d.rset n ix v).fuses = d.fuses := rfl
@[simp] theorem Dev.rset_ageRec (d : Dev) (n : RegName) (ix : List Nat) (v : Word) : (d.rset n ix v).ageRec = d.ageRec := rfl
@[simp] theorem Dev.rset_tmem (d : Dev) (n : RegName) (ix : List Nat) (v : Word) : (d.rset n ix v).tmem = d.tmem := rfl
@[simp] theorem Dev.rset_tim (d : Dev) (n : RegName) (ix : List Nat) (v : Word) : (d.rset n ix v).tim = d.tim := rfl
@[simp] theorem Dev.rset_cyc (d : Dev) (n : RegName) (ix : List Nat) (v : Word) : (d.rset n ix v).cyc = d.cyc := rfl
@[simp] theorem Dev.rset_ctl (d : Dev) (n : RegName) (ix : List Nat) (v : Word) : (d.rset n ix v).ctl = d.ctl := rfl
@[simp] theorem Dev.rset_csq (d : Dev) (n : RegName) (ix : List Nat) (v : Word) : (d.rset n ix v).csq = d.csq := rfl
@[simp] theorem Dev.rset_img (d : Dev) (n : RegName) (ix : List Nat) (v : Word) : (d.rset n ix v).img = d.img := rfl
@[simp] theorem Dev.rset_prs (d : Dev) (n : RegName) (ix : List Nat) (v : Word) : (d.rset n ix v).prs = d.prs := rfl
@[simp] theorem Dev.rset_mat (d : Dev) (n : RegName) (ix : List Nat) (v : Word) : (d.rset n ix v).mat = d.mat := rfl
@[simp] theorem Dev.rset_buf (d : Dev) (n : RegName) (ix : List Nat) (v : Word) : (d.rset n ix v).buf = d.buf := rfl
@[simp] theorem Dev.rset_spl (d : Dev) (n : RegName) (ix : List Nat) (v : Word) : (d.rset n ix v).spl = d.spl := rfl
@[simp] theorem Dev.rset_que (d : Dev) (n : RegName) (ix : List Nat) (v : Word) : (d.rset n ix v).que = d.que := rfl
@[simp] theorem Dev.rset_shu (d : Dev) (n : RegName) (ix : List Nat) (v : Word) : (d.rset n ix v).shu = d.shu := rfl
@[simp] theorem Dev.rset_lane (d : Dev) (n : RegName) (ix : List Nat) (v : Word) : (d.rset n ix v).lane = d.lane := rfl
@[simp] theorem Dev.rset_clk (d : Dev) (n : RegName) (ix : List Nat) (v : Word) : (d.rset n ix v).clk = d.clk := rfl
@[simp] theorem Dev.rset_pwr (d : Dev) (n : RegName) (ix : List Nat) (v : Word) : (d.rset n ix v).pwr = d.pwr := rfl
@[simp] theorem Dev.rset_fabric (d : Dev) (n : RegName) (ix : List Nat) (v : Word) : (d.rset n ix v).fabric = d.fabric := rfl
@[simp] theorem Dev.rset_rep (d : Dev) (n : RegName) (ix : List Nat) (v : Word) : (d.rset n ix v).rep = d.rep := rfl
@[simp] theorem Dev.rset_pins (d : Dev) (n : RegName) (ix : List Nat) (v : Word) : (d.rset n ix v).pins = d.pins := rfl

@[simp] theorem Dev.fset_now (d : Dev) (f : Fld) (ix : List Nat) (v : Nat) : (d.fset f ix v).now = d.now := rfl
@[simp] theorem Dev.fset_fab (d : Dev) (f : Fld) (ix : List Nat) (v : Nat) : (d.fset f ix v).fab = d.fab := rfl
@[simp] theorem Dev.fset_freeCtr (d : Dev) (f : Fld) (ix : List Nat) (v : Nat) : (d.fset f ix v).freeCtr = d.freeCtr := rfl
@[simp] theorem Dev.fset_cntGen (d : Dev) (f : Fld) (ix : List Nat) (v : Nat) : (d.fset f ix v).cntGen = d.cntGen := rfl
@[simp] theorem Dev.fset_inForce (d : Dev) (f : Fld) (ix : List Nat) (v : Nat) : (d.fset f ix v).inForce = d.inForce := rfl
@[simp] theorem Dev.fset_counters (d : Dev) (f : Fld) (ix : List Nat) (v : Nat) : (d.fset f ix v).counters = d.counters := rfl
@[simp] theorem Dev.fset_lastEv (d : Dev) (f : Fld) (ix : List Nat) (v : Nat) : (d.fset f ix v).lastEv = d.lastEv := rfl
@[simp] theorem Dev.fset_fuses (d : Dev) (f : Fld) (ix : List Nat) (v : Nat) : (d.fset f ix v).fuses = d.fuses := rfl
@[simp] theorem Dev.fset_ageRec (d : Dev) (f : Fld) (ix : List Nat) (v : Nat) : (d.fset f ix v).ageRec = d.ageRec := rfl
@[simp] theorem Dev.fset_tmem (d : Dev) (f : Fld) (ix : List Nat) (v : Nat) : (d.fset f ix v).tmem = d.tmem := rfl
@[simp] theorem Dev.fset_tim (d : Dev) (f : Fld) (ix : List Nat) (v : Nat) : (d.fset f ix v).tim = d.tim := rfl
@[simp] theorem Dev.fset_cyc (d : Dev) (f : Fld) (ix : List Nat) (v : Nat) : (d.fset f ix v).cyc = d.cyc := rfl
@[simp] theorem Dev.fset_ctl (d : Dev) (f : Fld) (ix : List Nat) (v : Nat) : (d.fset f ix v).ctl = d.ctl := rfl
@[simp] theorem Dev.fset_csq (d : Dev) (f : Fld) (ix : List Nat) (v : Nat) : (d.fset f ix v).csq = d.csq := rfl
@[simp] theorem Dev.fset_img (d : Dev) (f : Fld) (ix : List Nat) (v : Nat) : (d.fset f ix v).img = d.img := rfl
@[simp] theorem Dev.fset_prs (d : Dev) (f : Fld) (ix : List Nat) (v : Nat) : (d.fset f ix v).prs = d.prs := rfl
@[simp] theorem Dev.fset_mat (d : Dev) (f : Fld) (ix : List Nat) (v : Nat) : (d.fset f ix v).mat = d.mat := rfl
@[simp] theorem Dev.fset_buf (d : Dev) (f : Fld) (ix : List Nat) (v : Nat) : (d.fset f ix v).buf = d.buf := rfl
@[simp] theorem Dev.fset_spl (d : Dev) (f : Fld) (ix : List Nat) (v : Nat) : (d.fset f ix v).spl = d.spl := rfl
@[simp] theorem Dev.fset_que (d : Dev) (f : Fld) (ix : List Nat) (v : Nat) : (d.fset f ix v).que = d.que := rfl
@[simp] theorem Dev.fset_shu (d : Dev) (f : Fld) (ix : List Nat) (v : Nat) : (d.fset f ix v).shu = d.shu := rfl
@[simp] theorem Dev.fset_lane (d : Dev) (f : Fld) (ix : List Nat) (v : Nat) : (d.fset f ix v).lane = d.lane := rfl
@[simp] theorem Dev.fset_clk (d : Dev) (f : Fld) (ix : List Nat) (v : Nat) : (d.fset f ix v).clk = d.clk := rfl
@[simp] theorem Dev.fset_pwr (d : Dev) (f : Fld) (ix : List Nat) (v : Nat) : (d.fset f ix v).pwr = d.pwr := rfl
@[simp] theorem Dev.fset_fabric (d : Dev) (f : Fld) (ix : List Nat) (v : Nat) : (d.fset f ix v).fabric = d.fabric := rfl
@[simp] theorem Dev.fset_rep (d : Dev) (f : Fld) (ix : List Nat) (v : Nat) : (d.fset f ix v).rep = d.rep := rfl
@[simp] theorem Dev.fset_pins (d : Dev) (f : Fld) (ix : List Nat) (v : Nat) : (d.fset f ix v).pins = d.pins := rfl

@[simp] theorem Dev.count_now (d : Dev) (i n : Nat) : (d.count i n).now = d.now := rfl
@[simp] theorem Dev.count_fab (d : Dev) (i n : Nat) : (d.count i n).fab = d.fab := rfl
@[simp] theorem Dev.count_freeCtr (d : Dev) (i n : Nat) : (d.count i n).freeCtr = d.freeCtr := rfl
@[simp] theorem Dev.count_cntGen (d : Dev) (i n : Nat) : (d.count i n).cntGen = d.cntGen := rfl
@[simp] theorem Dev.count_regs (d : Dev) (i n : Nat) : (d.count i n).regs = d.regs := rfl
@[simp] theorem Dev.count_inForce (d : Dev) (i n : Nat) : (d.count i n).inForce = d.inForce := rfl
@[simp] theorem Dev.count_lastEv (d : Dev) (i n : Nat) : (d.count i n).lastEv = d.lastEv := rfl
@[simp] theorem Dev.count_fuses (d : Dev) (i n : Nat) : (d.count i n).fuses = d.fuses := rfl
@[simp] theorem Dev.count_ageRec (d : Dev) (i n : Nat) : (d.count i n).ageRec = d.ageRec := rfl
@[simp] theorem Dev.count_tmem (d : Dev) (i n : Nat) : (d.count i n).tmem = d.tmem := rfl
@[simp] theorem Dev.count_tim (d : Dev) (i n : Nat) : (d.count i n).tim = d.tim := rfl
@[simp] theorem Dev.count_cyc (d : Dev) (i n : Nat) : (d.count i n).cyc = d.cyc := rfl
@[simp] theorem Dev.count_ctl (d : Dev) (i n : Nat) : (d.count i n).ctl = d.ctl := rfl
@[simp] theorem Dev.count_csq (d : Dev) (i n : Nat) : (d.count i n).csq = d.csq := rfl
@[simp] theorem Dev.count_img (d : Dev) (i n : Nat) : (d.count i n).img = d.img := rfl
@[simp] theorem Dev.count_prs (d : Dev) (i n : Nat) : (d.count i n).prs = d.prs := rfl
@[simp] theorem Dev.count_mat (d : Dev) (i n : Nat) : (d.count i n).mat = d.mat := rfl
@[simp] theorem Dev.count_buf (d : Dev) (i n : Nat) : (d.count i n).buf = d.buf := rfl
@[simp] theorem Dev.count_spl (d : Dev) (i n : Nat) : (d.count i n).spl = d.spl := rfl
@[simp] theorem Dev.count_que (d : Dev) (i n : Nat) : (d.count i n).que = d.que := rfl
@[simp] theorem Dev.count_shu (d : Dev) (i n : Nat) : (d.count i n).shu = d.shu := rfl
@[simp] theorem Dev.count_lane (d : Dev) (i n : Nat) : (d.count i n).lane = d.lane := rfl
@[simp] theorem Dev.count_clk (d : Dev) (i n : Nat) : (d.count i n).clk = d.clk := rfl
@[simp] theorem Dev.count_pwr (d : Dev) (i n : Nat) : (d.count i n).pwr = d.pwr := rfl
@[simp] theorem Dev.count_fabric (d : Dev) (i n : Nat) : (d.count i n).fabric = d.fabric := rfl
@[simp] theorem Dev.count_rep (d : Dev) (i n : Nat) : (d.count i n).rep = d.rep := rfl
@[simp] theorem Dev.count_pins (d : Dev) (i n : Nat) : (d.count i n).pins = d.pins := rfl

@[simp] theorem Dev.drawn_now (d : Dev) : (d.drawn).now = d.now := rfl
@[simp] theorem Dev.drawn_fab (d : Dev) : (d.drawn).fab = d.fab := rfl
@[simp] theorem Dev.drawn_cntGen (d : Dev) : (d.drawn).cntGen = d.cntGen := rfl
@[simp] theorem Dev.drawn_regs (d : Dev) : (d.drawn).regs = d.regs := rfl
@[simp] theorem Dev.drawn_inForce (d : Dev) : (d.drawn).inForce = d.inForce := rfl
@[simp] theorem Dev.drawn_counters (d : Dev) : (d.drawn).counters = d.counters := rfl
@[simp] theorem Dev.drawn_lastEv (d : Dev) : (d.drawn).lastEv = d.lastEv := rfl
@[simp] theorem Dev.drawn_fuses (d : Dev) : (d.drawn).fuses = d.fuses := rfl
@[simp] theorem Dev.drawn_ageRec (d : Dev) : (d.drawn).ageRec = d.ageRec := rfl
@[simp] theorem Dev.drawn_tmem (d : Dev) : (d.drawn).tmem = d.tmem := rfl
@[simp] theorem Dev.drawn_tim (d : Dev) : (d.drawn).tim = d.tim := rfl
@[simp] theorem Dev.drawn_cyc (d : Dev) : (d.drawn).cyc = d.cyc := rfl
@[simp] theorem Dev.drawn_ctl (d : Dev) : (d.drawn).ctl = d.ctl := rfl
@[simp] theorem Dev.drawn_csq (d : Dev) : (d.drawn).csq = d.csq := rfl
@[simp] theorem Dev.drawn_img (d : Dev) : (d.drawn).img = d.img := rfl
@[simp] theorem Dev.drawn_prs (d : Dev) : (d.drawn).prs = d.prs := rfl
@[simp] theorem Dev.drawn_mat (d : Dev) : (d.drawn).mat = d.mat := rfl
@[simp] theorem Dev.drawn_buf (d : Dev) : (d.drawn).buf = d.buf := rfl
@[simp] theorem Dev.drawn_spl (d : Dev) : (d.drawn).spl = d.spl := rfl
@[simp] theorem Dev.drawn_que (d : Dev) : (d.drawn).que = d.que := rfl
@[simp] theorem Dev.drawn_shu (d : Dev) : (d.drawn).shu = d.shu := rfl
@[simp] theorem Dev.drawn_lane (d : Dev) : (d.drawn).lane = d.lane := rfl
@[simp] theorem Dev.drawn_clk (d : Dev) : (d.drawn).clk = d.clk := rfl
@[simp] theorem Dev.drawn_pwr (d : Dev) : (d.drawn).pwr = d.pwr := rfl
@[simp] theorem Dev.drawn_fabric (d : Dev) : (d.drawn).fabric = d.fabric := rfl
@[simp] theorem Dev.drawn_rep (d : Dev) : (d.drawn).rep = d.rep := rfl
@[simp] theorem Dev.drawn_pins (d : Dev) : (d.drawn).pins = d.pins := rfl

@[simp] theorem Dev.ctxMod_now (d : Dev) (sq c : Nat) (f : Ctx → Ctx) : (d.ctxMod sq c f).now = d.now := rfl
@[simp] theorem Dev.ctxMod_fab (d : Dev) (sq c : Nat) (f : Ctx → Ctx) : (d.ctxMod sq c f).fab = d.fab := rfl
@[simp] theorem Dev.ctxMod_freeCtr (d : Dev) (sq c : Nat) (f : Ctx → Ctx) : (d.ctxMod sq c f).freeCtr = d.freeCtr := rfl
@[simp] theorem Dev.ctxMod_cntGen (d : Dev) (sq c : Nat) (f : Ctx → Ctx) : (d.ctxMod sq c f).cntGen = d.cntGen := rfl
@[simp] theorem Dev.ctxMod_regs (d : Dev) (sq c : Nat) (f : Ctx → Ctx) : (d.ctxMod sq c f).regs = d.regs := rfl
@[simp] theorem Dev.ctxMod_inForce (d : Dev) (sq c : Nat) (f : Ctx → Ctx) : (d.ctxMod sq c f).inForce = d.inForce := rfl
@[simp] theorem Dev.ctxMod_counters (d : Dev) (sq c : Nat) (f : Ctx → Ctx) : (d.ctxMod sq c f).counters = d.counters := rfl
@[simp] theorem Dev.ctxMod_lastEv (d : Dev) (sq c : Nat) (f : Ctx → Ctx) : (d.ctxMod sq c f).lastEv = d.lastEv := rfl
@[simp] theorem Dev.ctxMod_fuses (d : Dev) (sq c : Nat) (f : Ctx → Ctx) : (d.ctxMod sq c f).fuses = d.fuses := rfl
@[simp] theorem Dev.ctxMod_ageRec (d : Dev) (sq c : Nat) (f : Ctx → Ctx) : (d.ctxMod sq c f).ageRec = d.ageRec := rfl
@[simp] theorem Dev.ctxMod_tmem (d : Dev) (sq c : Nat) (f : Ctx → Ctx) : (d.ctxMod sq c f).tmem = d.tmem := rfl
@[simp] theorem Dev.ctxMod_tim (d : Dev) (sq c : Nat) (f : Ctx → Ctx) : (d.ctxMod sq c f).tim = d.tim := rfl
@[simp] theorem Dev.ctxMod_cyc (d : Dev) (sq c : Nat) (f : Ctx → Ctx) : (d.ctxMod sq c f).cyc = d.cyc := rfl
@[simp] theorem Dev.ctxMod_ctl (d : Dev) (sq c : Nat) (f : Ctx → Ctx) : (d.ctxMod sq c f).ctl = d.ctl := rfl
@[simp] theorem Dev.ctxMod_img (d : Dev) (sq c : Nat) (f : Ctx → Ctx) : (d.ctxMod sq c f).img = d.img := rfl
@[simp] theorem Dev.ctxMod_prs (d : Dev) (sq c : Nat) (f : Ctx → Ctx) : (d.ctxMod sq c f).prs = d.prs := rfl
@[simp] theorem Dev.ctxMod_mat (d : Dev) (sq c : Nat) (f : Ctx → Ctx) : (d.ctxMod sq c f).mat = d.mat := rfl
@[simp] theorem Dev.ctxMod_buf (d : Dev) (sq c : Nat) (f : Ctx → Ctx) : (d.ctxMod sq c f).buf = d.buf := rfl
@[simp] theorem Dev.ctxMod_spl (d : Dev) (sq c : Nat) (f : Ctx → Ctx) : (d.ctxMod sq c f).spl = d.spl := rfl
@[simp] theorem Dev.ctxMod_que (d : Dev) (sq c : Nat) (f : Ctx → Ctx) : (d.ctxMod sq c f).que = d.que := rfl
@[simp] theorem Dev.ctxMod_shu (d : Dev) (sq c : Nat) (f : Ctx → Ctx) : (d.ctxMod sq c f).shu = d.shu := rfl
@[simp] theorem Dev.ctxMod_lane (d : Dev) (sq c : Nat) (f : Ctx → Ctx) : (d.ctxMod sq c f).lane = d.lane := rfl
@[simp] theorem Dev.ctxMod_clk (d : Dev) (sq c : Nat) (f : Ctx → Ctx) : (d.ctxMod sq c f).clk = d.clk := rfl
@[simp] theorem Dev.ctxMod_pwr (d : Dev) (sq c : Nat) (f : Ctx → Ctx) : (d.ctxMod sq c f).pwr = d.pwr := rfl
@[simp] theorem Dev.ctxMod_fabric (d : Dev) (sq c : Nat) (f : Ctx → Ctx) : (d.ctxMod sq c f).fabric = d.fabric := rfl
@[simp] theorem Dev.ctxMod_rep (d : Dev) (sq c : Nat) (f : Ctx → Ctx) : (d.ctxMod sq c f).rep = d.rep := rfl
@[simp] theorem Dev.ctxMod_pins (d : Dev) (sq c : Nat) (f : Ctx → Ctx) : (d.ctxMod sq c f).pins = d.pins := rfl

@[simp] theorem Dev.sessionMod_now (d : Dev) (n : Nat) (f : Session → Session) : (d.sessionMod n f).now = d.now := rfl
@[simp] theorem Dev.sessionMod_fab (d : Dev) (n : Nat) (f : Session → Session) : (d.sessionMod n f).fab = d.fab := rfl
@[simp] theorem Dev.sessionMod_freeCtr (d : Dev) (n : Nat) (f : Session → Session) : (d.sessionMod n f).freeCtr = d.freeCtr := rfl
@[simp] theorem Dev.sessionMod_cntGen (d : Dev) (n : Nat) (f : Session → Session) : (d.sessionMod n f).cntGen = d.cntGen := rfl
@[simp] theorem Dev.sessionMod_regs (d : Dev) (n : Nat) (f : Session → Session) : (d.sessionMod n f).regs = d.regs := rfl
@[simp] theorem Dev.sessionMod_inForce (d : Dev) (n : Nat) (f : Session → Session) : (d.sessionMod n f).inForce = d.inForce := rfl
@[simp] theorem Dev.sessionMod_counters (d : Dev) (n : Nat) (f : Session → Session) : (d.sessionMod n f).counters = d.counters := rfl
@[simp] theorem Dev.sessionMod_lastEv (d : Dev) (n : Nat) (f : Session → Session) : (d.sessionMod n f).lastEv = d.lastEv := rfl
@[simp] theorem Dev.sessionMod_fuses (d : Dev) (n : Nat) (f : Session → Session) : (d.sessionMod n f).fuses = d.fuses := rfl
@[simp] theorem Dev.sessionMod_ageRec (d : Dev) (n : Nat) (f : Session → Session) : (d.sessionMod n f).ageRec = d.ageRec := rfl
@[simp] theorem Dev.sessionMod_tmem (d : Dev) (n : Nat) (f : Session → Session) : (d.sessionMod n f).tmem = d.tmem := rfl
@[simp] theorem Dev.sessionMod_tim (d : Dev) (n : Nat) (f : Session → Session) : (d.sessionMod n f).tim = d.tim := rfl
@[simp] theorem Dev.sessionMod_cyc (d : Dev) (n : Nat) (f : Session → Session) : (d.sessionMod n f).cyc = d.cyc := rfl
@[simp] theorem Dev.sessionMod_csq (d : Dev) (n : Nat) (f : Session → Session) : (d.sessionMod n f).csq = d.csq := rfl
@[simp] theorem Dev.sessionMod_img (d : Dev) (n : Nat) (f : Session → Session) : (d.sessionMod n f).img = d.img := rfl
@[simp] theorem Dev.sessionMod_prs (d : Dev) (n : Nat) (f : Session → Session) : (d.sessionMod n f).prs = d.prs := rfl
@[simp] theorem Dev.sessionMod_mat (d : Dev) (n : Nat) (f : Session → Session) : (d.sessionMod n f).mat = d.mat := rfl
@[simp] theorem Dev.sessionMod_buf (d : Dev) (n : Nat) (f : Session → Session) : (d.sessionMod n f).buf = d.buf := rfl
@[simp] theorem Dev.sessionMod_spl (d : Dev) (n : Nat) (f : Session → Session) : (d.sessionMod n f).spl = d.spl := rfl
@[simp] theorem Dev.sessionMod_que (d : Dev) (n : Nat) (f : Session → Session) : (d.sessionMod n f).que = d.que := rfl
@[simp] theorem Dev.sessionMod_shu (d : Dev) (n : Nat) (f : Session → Session) : (d.sessionMod n f).shu = d.shu := rfl
@[simp] theorem Dev.sessionMod_lane (d : Dev) (n : Nat) (f : Session → Session) : (d.sessionMod n f).lane = d.lane := rfl
@[simp] theorem Dev.sessionMod_clk (d : Dev) (n : Nat) (f : Session → Session) : (d.sessionMod n f).clk = d.clk := rfl
@[simp] theorem Dev.sessionMod_pwr (d : Dev) (n : Nat) (f : Session → Session) : (d.sessionMod n f).pwr = d.pwr := rfl
@[simp] theorem Dev.sessionMod_fabric (d : Dev) (n : Nat) (f : Session → Session) : (d.sessionMod n f).fabric = d.fabric := rfl
@[simp] theorem Dev.sessionMod_rep (d : Dev) (n : Nat) (f : Session → Session) : (d.sessionMod n f).rep = d.rep := rfl
@[simp] theorem Dev.sessionMod_pins (d : Dev) (n : Nat) (f : Session → Session) : (d.sessionMod n f).pins = d.pins := rfl

@[simp] theorem Dev.portMod_now (d : Dev) (p : Nat) (f : PortSt → PortSt) : (d.portMod p f).now = d.now := rfl
@[simp] theorem Dev.portMod_fab (d : Dev) (p : Nat) (f : PortSt → PortSt) : (d.portMod p f).fab = d.fab := rfl
@[simp] theorem Dev.portMod_freeCtr (d : Dev) (p : Nat) (f : PortSt → PortSt) : (d.portMod p f).freeCtr = d.freeCtr := rfl
@[simp] theorem Dev.portMod_cntGen (d : Dev) (p : Nat) (f : PortSt → PortSt) : (d.portMod p f).cntGen = d.cntGen := rfl
@[simp] theorem Dev.portMod_regs (d : Dev) (p : Nat) (f : PortSt → PortSt) : (d.portMod p f).regs = d.regs := rfl
@[simp] theorem Dev.portMod_inForce (d : Dev) (p : Nat) (f : PortSt → PortSt) : (d.portMod p f).inForce = d.inForce := rfl
@[simp] theorem Dev.portMod_counters (d : Dev) (p : Nat) (f : PortSt → PortSt) : (d.portMod p f).counters = d.counters := rfl
@[simp] theorem Dev.portMod_lastEv (d : Dev) (p : Nat) (f : PortSt → PortSt) : (d.portMod p f).lastEv = d.lastEv := rfl
@[simp] theorem Dev.portMod_fuses (d : Dev) (p : Nat) (f : PortSt → PortSt) : (d.portMod p f).fuses = d.fuses := rfl
@[simp] theorem Dev.portMod_ageRec (d : Dev) (p : Nat) (f : PortSt → PortSt) : (d.portMod p f).ageRec = d.ageRec := rfl
@[simp] theorem Dev.portMod_tmem (d : Dev) (p : Nat) (f : PortSt → PortSt) : (d.portMod p f).tmem = d.tmem := rfl
@[simp] theorem Dev.portMod_tim (d : Dev) (p : Nat) (f : PortSt → PortSt) : (d.portMod p f).tim = d.tim := rfl
@[simp] theorem Dev.portMod_cyc (d : Dev) (p : Nat) (f : PortSt → PortSt) : (d.portMod p f).cyc = d.cyc := rfl
@[simp] theorem Dev.portMod_ctl (d : Dev) (p : Nat) (f : PortSt → PortSt) : (d.portMod p f).ctl = d.ctl := rfl
@[simp] theorem Dev.portMod_csq (d : Dev) (p : Nat) (f : PortSt → PortSt) : (d.portMod p f).csq = d.csq := rfl
@[simp] theorem Dev.portMod_img (d : Dev) (p : Nat) (f : PortSt → PortSt) : (d.portMod p f).img = d.img := rfl
@[simp] theorem Dev.portMod_prs (d : Dev) (p : Nat) (f : PortSt → PortSt) : (d.portMod p f).prs = d.prs := rfl
@[simp] theorem Dev.portMod_mat (d : Dev) (p : Nat) (f : PortSt → PortSt) : (d.portMod p f).mat = d.mat := rfl
@[simp] theorem Dev.portMod_buf (d : Dev) (p : Nat) (f : PortSt → PortSt) : (d.portMod p f).buf = d.buf := rfl
@[simp] theorem Dev.portMod_spl (d : Dev) (p : Nat) (f : PortSt → PortSt) : (d.portMod p f).spl = d.spl := rfl
@[simp] theorem Dev.portMod_que (d : Dev) (p : Nat) (f : PortSt → PortSt) : (d.portMod p f).que = d.que := rfl
@[simp] theorem Dev.portMod_shu (d : Dev) (p : Nat) (f : PortSt → PortSt) : (d.portMod p f).shu = d.shu := rfl
@[simp] theorem Dev.portMod_clk (d : Dev) (p : Nat) (f : PortSt → PortSt) : (d.portMod p f).clk = d.clk := rfl
@[simp] theorem Dev.portMod_pwr (d : Dev) (p : Nat) (f : PortSt → PortSt) : (d.portMod p f).pwr = d.pwr := rfl
@[simp] theorem Dev.portMod_fabric (d : Dev) (p : Nat) (f : PortSt → PortSt) : (d.portMod p f).fabric = d.fabric := rfl
@[simp] theorem Dev.portMod_rep (d : Dev) (p : Nat) (f : PortSt → PortSt) : (d.portMod p f).rep = d.rep := rfl
@[simp] theorem Dev.portMod_pins (d : Dev) (p : Nat) (f : PortSt → PortSt) : (d.portMod p f).pins = d.pins := rfl

@[simp] theorem Dev.copyMod_now (d : Dev) (i : Nat) (f : Copy → Copy) : (d.copyMod i f).now = d.now := rfl
@[simp] theorem Dev.copyMod_fab (d : Dev) (i : Nat) (f : Copy → Copy) : (d.copyMod i f).fab = d.fab := rfl
@[simp] theorem Dev.copyMod_freeCtr (d : Dev) (i : Nat) (f : Copy → Copy) : (d.copyMod i f).freeCtr = d.freeCtr := rfl
@[simp] theorem Dev.copyMod_cntGen (d : Dev) (i : Nat) (f : Copy → Copy) : (d.copyMod i f).cntGen = d.cntGen := rfl
@[simp] theorem Dev.copyMod_regs (d : Dev) (i : Nat) (f : Copy → Copy) : (d.copyMod i f).regs = d.regs := rfl
@[simp] theorem Dev.copyMod_inForce (d : Dev) (i : Nat) (f : Copy → Copy) : (d.copyMod i f).inForce = d.inForce := rfl
@[simp] theorem Dev.copyMod_counters (d : Dev) (i : Nat) (f : Copy → Copy) : (d.copyMod i f).counters = d.counters := rfl
@[simp] theorem Dev.copyMod_lastEv (d : Dev) (i : Nat) (f : Copy → Copy) : (d.copyMod i f).lastEv = d.lastEv := rfl
@[simp] theorem Dev.copyMod_fuses (d : Dev) (i : Nat) (f : Copy → Copy) : (d.copyMod i f).fuses = d.fuses := rfl
@[simp] theorem Dev.copyMod_ageRec (d : Dev) (i : Nat) (f : Copy → Copy) : (d.copyMod i f).ageRec = d.ageRec := rfl
@[simp] theorem Dev.copyMod_tmem (d : Dev) (i : Nat) (f : Copy → Copy) : (d.copyMod i f).tmem = d.tmem := rfl
@[simp] theorem Dev.copyMod_tim (d : Dev) (i : Nat) (f : Copy → Copy) : (d.copyMod i f).tim = d.tim := rfl
@[simp] theorem Dev.copyMod_cyc (d : Dev) (i : Nat) (f : Copy → Copy) : (d.copyMod i f).cyc = d.cyc := rfl
@[simp] theorem Dev.copyMod_ctl (d : Dev) (i : Nat) (f : Copy → Copy) : (d.copyMod i f).ctl = d.ctl := rfl
@[simp] theorem Dev.copyMod_csq (d : Dev) (i : Nat) (f : Copy → Copy) : (d.copyMod i f).csq = d.csq := rfl
@[simp] theorem Dev.copyMod_img (d : Dev) (i : Nat) (f : Copy → Copy) : (d.copyMod i f).img = d.img := rfl
@[simp] theorem Dev.copyMod_prs (d : Dev) (i : Nat) (f : Copy → Copy) : (d.copyMod i f).prs = d.prs := rfl
@[simp] theorem Dev.copyMod_mat (d : Dev) (i : Nat) (f : Copy → Copy) : (d.copyMod i f).mat = d.mat := rfl
@[simp] theorem Dev.copyMod_spl (d : Dev) (i : Nat) (f : Copy → Copy) : (d.copyMod i f).spl = d.spl := rfl
@[simp] theorem Dev.copyMod_que (d : Dev) (i : Nat) (f : Copy → Copy) : (d.copyMod i f).que = d.que := rfl
@[simp] theorem Dev.copyMod_shu (d : Dev) (i : Nat) (f : Copy → Copy) : (d.copyMod i f).shu = d.shu := rfl
@[simp] theorem Dev.copyMod_lane (d : Dev) (i : Nat) (f : Copy → Copy) : (d.copyMod i f).lane = d.lane := rfl
@[simp] theorem Dev.copyMod_clk (d : Dev) (i : Nat) (f : Copy → Copy) : (d.copyMod i f).clk = d.clk := rfl
@[simp] theorem Dev.copyMod_pwr (d : Dev) (i : Nat) (f : Copy → Copy) : (d.copyMod i f).pwr = d.pwr := rfl
@[simp] theorem Dev.copyMod_fabric (d : Dev) (i : Nat) (f : Copy → Copy) : (d.copyMod i f).fabric = d.fabric := rfl
@[simp] theorem Dev.copyMod_rep (d : Dev) (i : Nat) (f : Copy → Copy) : (d.copyMod i f).rep = d.rep := rfl
@[simp] theorem Dev.copyMod_pins (d : Dev) (i : Nat) (f : Copy → Copy) : (d.copyMod i f).pins = d.pins := rfl

@[simp] theorem Dev.applyB_now (d : Dev) (n : RegName) (ix : List Nat) : (d.applyB n ix).now = d.now := rfl
@[simp] theorem Dev.applyB_fab (d : Dev) (n : RegName) (ix : List Nat) : (d.applyB n ix).fab = d.fab := rfl
@[simp] theorem Dev.applyB_freeCtr (d : Dev) (n : RegName) (ix : List Nat) : (d.applyB n ix).freeCtr = d.freeCtr := rfl
@[simp] theorem Dev.applyB_cntGen (d : Dev) (n : RegName) (ix : List Nat) : (d.applyB n ix).cntGen = d.cntGen := rfl
@[simp] theorem Dev.applyB_regs (d : Dev) (n : RegName) (ix : List Nat) : (d.applyB n ix).regs = d.regs := rfl
@[simp] theorem Dev.applyB_counters (d : Dev) (n : RegName) (ix : List Nat) : (d.applyB n ix).counters = d.counters := rfl
@[simp] theorem Dev.applyB_lastEv (d : Dev) (n : RegName) (ix : List Nat) : (d.applyB n ix).lastEv = d.lastEv := rfl
@[simp] theorem Dev.applyB_fuses (d : Dev) (n : RegName) (ix : List Nat) : (d.applyB n ix).fuses = d.fuses := rfl
@[simp] theorem Dev.applyB_ageRec (d : Dev) (n : RegName) (ix : List Nat) : (d.applyB n ix).ageRec = d.ageRec := rfl
@[simp] theorem Dev.applyB_tmem (d : Dev) (n : RegName) (ix : List Nat) : (d.applyB n ix).tmem = d.tmem := rfl
@[simp] theorem Dev.applyB_tim (d : Dev) (n : RegName) (ix : List Nat) : (d.applyB n ix).tim = d.tim := rfl
@[simp] theorem Dev.applyB_cyc (d : Dev) (n : RegName) (ix : List Nat) : (d.applyB n ix).cyc = d.cyc := rfl
@[simp] theorem Dev.applyB_ctl (d : Dev) (n : RegName) (ix : List Nat) : (d.applyB n ix).ctl = d.ctl := rfl
@[simp] theorem Dev.applyB_csq (d : Dev) (n : RegName) (ix : List Nat) : (d.applyB n ix).csq = d.csq := rfl
@[simp] theorem Dev.applyB_img (d : Dev) (n : RegName) (ix : List Nat) : (d.applyB n ix).img = d.img := rfl
@[simp] theorem Dev.applyB_prs (d : Dev) (n : RegName) (ix : List Nat) : (d.applyB n ix).prs = d.prs := rfl
@[simp] theorem Dev.applyB_mat (d : Dev) (n : RegName) (ix : List Nat) : (d.applyB n ix).mat = d.mat := rfl
@[simp] theorem Dev.applyB_buf (d : Dev) (n : RegName) (ix : List Nat) : (d.applyB n ix).buf = d.buf := rfl
@[simp] theorem Dev.applyB_spl (d : Dev) (n : RegName) (ix : List Nat) : (d.applyB n ix).spl = d.spl := rfl
@[simp] theorem Dev.applyB_que (d : Dev) (n : RegName) (ix : List Nat) : (d.applyB n ix).que = d.que := rfl
@[simp] theorem Dev.applyB_shu (d : Dev) (n : RegName) (ix : List Nat) : (d.applyB n ix).shu = d.shu := rfl
@[simp] theorem Dev.applyB_lane (d : Dev) (n : RegName) (ix : List Nat) : (d.applyB n ix).lane = d.lane := rfl
@[simp] theorem Dev.applyB_clk (d : Dev) (n : RegName) (ix : List Nat) : (d.applyB n ix).clk = d.clk := rfl
@[simp] theorem Dev.applyB_pwr (d : Dev) (n : RegName) (ix : List Nat) : (d.applyB n ix).pwr = d.pwr := rfl
@[simp] theorem Dev.applyB_fabric (d : Dev) (n : RegName) (ix : List Nat) : (d.applyB n ix).fabric = d.fabric := rfl
@[simp] theorem Dev.applyB_rep (d : Dev) (n : RegName) (ix : List Nat) : (d.applyB n ix).rep = d.rep := rfl
@[simp] theorem Dev.applyB_pins (d : Dev) (n : RegName) (ix : List Nat) : (d.applyB n ix).pins = d.pins := rfl

@[simp] theorem Dev.drawn_freeCtr (d : Dev) : d.drawn.freeCtr = d.freeCtr + 1 := rfl

@[simp] theorem Dev.fsets_now (d : Dev) (l : List (Fld × Nat)) (ix : List Nat) : (d.fsets l ix).now = d.now := by
  induction l generalizing d with
  | nil => rfl
  | cons p l ih => exact (ih _).trans (Dev.fset_now ..)
@[simp] theorem Dev.fsets_fab (d : Dev) (l : List (Fld × Nat)) (ix : List Nat) : (d.fsets l ix).fab = d.fab := by
  induction l generalizing d with
  | nil => rfl
  | cons p l ih => exact (ih _).trans (Dev.fset_fab ..)
@[simp] theorem Dev.fsets_freeCtr (d : Dev) (l : List (Fld × Nat)) (ix : List Nat) : (d.fsets l ix).freeCtr = d.freeCtr := by
  induction l generalizing d with
  | nil => rfl
  | cons p l ih => exact (ih _).trans (Dev.fset_freeCtr ..)
@[simp] theorem Dev.fsets_cntGen (d : Dev) (l : List (Fld × Nat)) (ix : List Nat) : (d.fsets l ix).cntGen = d.cntGen := by
  induction l generalizing d with
  | nil => rfl
  | cons p l ih => exact (ih _).trans (Dev.fset_cntGen ..)
@[simp] theorem Dev.fsets_inForce (d : Dev) (l : List (Fld × Nat)) (ix : List Nat) : (d.fsets l ix).inForce = d.inForce := by
  induction l generalizing d with
  | nil => rfl
  | cons p l ih => exact (ih _).trans (Dev.fset_inForce ..)
@[simp] theorem Dev.fsets_counters (d : Dev) (l : List (Fld × Nat)) (ix : List Nat) : (d.fsets l ix).counters = d.counters := by
  induction l generalizing d with
  | nil => rfl
  | cons p l ih => exact (ih _).trans (Dev.fset_counters ..)
@[simp] theorem Dev.fsets_lastEv (d : Dev) (l : List (Fld × Nat)) (ix : List Nat) : (d.fsets l ix).lastEv = d.lastEv := by
  induction l generalizing d with
  | nil => rfl
  | cons p l ih => exact (ih _).trans (Dev.fset_lastEv ..)
@[simp] theorem Dev.fsets_fuses (d : Dev) (l : List (Fld × Nat)) (ix : List Nat) : (d.fsets l ix).fuses = d.fuses := by
  induction l generalizing d with
  | nil => rfl
  | cons p l ih => exact (ih _).trans (Dev.fset_fuses ..)
@[simp] theorem Dev.fsets_ageRec (d : Dev) (l : List (Fld × Nat)) (ix : List Nat) : (d.fsets l ix).ageRec = d.ageRec := by
  induction l generalizing d with
  | nil => rfl
  | cons p l ih => exact (ih _).trans (Dev.fset_ageRec ..)
@[simp] theorem Dev.fsets_tmem (d : Dev) (l : List (Fld × Nat)) (ix : List Nat) : (d.fsets l ix).tmem = d.tmem := by
  induction l generalizing d with
  | nil => rfl
  | cons p l ih => exact (ih _).trans (Dev.fset_tmem ..)
@[simp] theorem Dev.fsets_tim (d : Dev) (l : List (Fld × Nat)) (ix : List Nat) : (d.fsets l ix).tim = d.tim := by
  induction l generalizing d with
  | nil => rfl
  | cons p l ih => exact (ih _).trans (Dev.fset_tim ..)
@[simp] theorem Dev.fsets_cyc (d : Dev) (l : List (Fld × Nat)) (ix : List Nat) : (d.fsets l ix).cyc = d.cyc := by
  induction l generalizing d with
  | nil => rfl
  | cons p l ih => exact (ih _).trans (Dev.fset_cyc ..)
@[simp] theorem Dev.fsets_ctl (d : Dev) (l : List (Fld × Nat)) (ix : List Nat) : (d.fsets l ix).ctl = d.ctl := by
  induction l generalizing d with
  | nil => rfl
  | cons p l ih => exact (ih _).trans (Dev.fset_ctl ..)
@[simp] theorem Dev.fsets_csq (d : Dev) (l : List (Fld × Nat)) (ix : List Nat) : (d.fsets l ix).csq = d.csq := by
  induction l generalizing d with
  | nil => rfl
  | cons p l ih => exact (ih _).trans (Dev.fset_csq ..)
@[simp] theorem Dev.fsets_img (d : Dev) (l : List (Fld × Nat)) (ix : List Nat) : (d.fsets l ix).img = d.img := by
  induction l generalizing d with
  | nil => rfl
  | cons p l ih => exact (ih _).trans (Dev.fset_img ..)
@[simp] theorem Dev.fsets_prs (d : Dev) (l : List (Fld × Nat)) (ix : List Nat) : (d.fsets l ix).prs = d.prs := by
  induction l generalizing d with
  | nil => rfl
  | cons p l ih => exact (ih _).trans (Dev.fset_prs ..)
@[simp] theorem Dev.fsets_mat (d : Dev) (l : List (Fld × Nat)) (ix : List Nat) : (d.fsets l ix).mat = d.mat := by
  induction l generalizing d with
  | nil => rfl
  | cons p l ih => exact (ih _).trans (Dev.fset_mat ..)
@[simp] theorem Dev.fsets_buf (d : Dev) (l : List (Fld × Nat)) (ix : List Nat) : (d.fsets l ix).buf = d.buf := by
  induction l generalizing d with
  | nil => rfl
  | cons p l ih => exact (ih _).trans (Dev.fset_buf ..)
@[simp] theorem Dev.fsets_spl (d : Dev) (l : List (Fld × Nat)) (ix : List Nat) : (d.fsets l ix).spl = d.spl := by
  induction l generalizing d with
  | nil => rfl
  | cons p l ih => exact (ih _).trans (Dev.fset_spl ..)
@[simp] theorem Dev.fsets_que (d : Dev) (l : List (Fld × Nat)) (ix : List Nat) : (d.fsets l ix).que = d.que := by
  induction l generalizing d with
  | nil => rfl
  | cons p l ih => exact (ih _).trans (Dev.fset_que ..)
@[simp] theorem Dev.fsets_shu (d : Dev) (l : List (Fld × Nat)) (ix : List Nat) : (d.fsets l ix).shu = d.shu := by
  induction l generalizing d with
  | nil => rfl
  | cons p l ih => exact (ih _).trans (Dev.fset_shu ..)
@[simp] theorem Dev.fsets_lane (d : Dev) (l : List (Fld × Nat)) (ix : List Nat) : (d.fsets l ix).lane = d.lane := by
  induction l generalizing d with
  | nil => rfl
  | cons p l ih => exact (ih _).trans (Dev.fset_lane ..)
@[simp] theorem Dev.fsets_clk (d : Dev) (l : List (Fld × Nat)) (ix : List Nat) : (d.fsets l ix).clk = d.clk := by
  induction l generalizing d with
  | nil => rfl
  | cons p l ih => exact (ih _).trans (Dev.fset_clk ..)
@[simp] theorem Dev.fsets_pwr (d : Dev) (l : List (Fld × Nat)) (ix : List Nat) : (d.fsets l ix).pwr = d.pwr := by
  induction l generalizing d with
  | nil => rfl
  | cons p l ih => exact (ih _).trans (Dev.fset_pwr ..)
@[simp] theorem Dev.fsets_fabric (d : Dev) (l : List (Fld × Nat)) (ix : List Nat) : (d.fsets l ix).fabric = d.fabric := by
  induction l generalizing d with
  | nil => rfl
  | cons p l ih => exact (ih _).trans (Dev.fset_fabric ..)
@[simp] theorem Dev.fsets_rep (d : Dev) (l : List (Fld × Nat)) (ix : List Nat) : (d.fsets l ix).rep = d.rep := by
  induction l generalizing d with
  | nil => rfl
  | cons p l ih => exact (ih _).trans (Dev.fset_rep ..)
@[simp] theorem Dev.fsets_pins (d : Dev) (l : List (Fld × Nat)) (ix : List Nat) : (d.fsets l ix).pins = d.pins := by
  induction l generalizing d with
  | nil => rfl
  | cons p l ih => exact (ih _).trans (Dev.fset_pins ..)

/-- Time that passes changes device time, fabric time and the slew in progress. -/
theorem Dev.advanceTo_eq (d : Dev) (t : Nat) :
    ∃ fab tim, d.advanceTo t = { d with now := max d.now t, fab := fab, tim := tim } := by
  unfold Dev.advanceTo
  split
  · exact ⟨d.fab, d.tim, by rw [Nat.max_eq_left (by assumption)]⟩
  · exact ⟨_, _, by rw [Nat.max_eq_right (by omega)]⟩

@[simp] theorem Dev.advanceTo_freeCtr (d : Dev) (t : Nat) : (d.advanceTo t).freeCtr = d.freeCtr := by
  obtain ⟨_, _, h⟩ := d.advanceTo_eq t; rw [h]
@[simp] theorem Dev.advanceTo_cntGen (d : Dev) (t : Nat) : (d.advanceTo t).cntGen = d.cntGen := by
  obtain ⟨_, _, h⟩ := d.advanceTo_eq t; rw [h]
@[simp] theorem Dev.advanceTo_regs (d : Dev) (t : Nat) : (d.advanceTo t).regs = d.regs := by
  obtain ⟨_, _, h⟩ := d.advanceTo_eq t; rw [h]
@[simp] theorem Dev.advanceTo_inForce (d : Dev) (t : Nat) : (d.advanceTo t).inForce = d.inForce := by
  obtain ⟨_, _, h⟩ := d.advanceTo_eq t; rw [h]
@[simp] theorem Dev.advanceTo_counters (d : Dev) (t : Nat) : (d.advanceTo t).counters = d.counters := by
  obtain ⟨_, _, h⟩ := d.advanceTo_eq t; rw [h]
@[simp] theorem Dev.advanceTo_lastEv (d : Dev) (t : Nat) : (d.advanceTo t).lastEv = d.lastEv := by
  obtain ⟨_, _, h⟩ := d.advanceTo_eq t; rw [h]
@[simp] theorem Dev.advanceTo_fuses (d : Dev) (t : Nat) : (d.advanceTo t).fuses = d.fuses := by
  obtain ⟨_, _, h⟩ := d.advanceTo_eq t; rw [h]
@[simp] theorem Dev.advanceTo_ageRec (d : Dev) (t : Nat) : (d.advanceTo t).ageRec = d.ageRec := by
  obtain ⟨_, _, h⟩ := d.advanceTo_eq t; rw [h]
@[simp] theorem Dev.advanceTo_tmem (d : Dev) (t : Nat) : (d.advanceTo t).tmem = d.tmem := by
  obtain ⟨_, _, h⟩ := d.advanceTo_eq t; rw [h]
@[simp] theorem Dev.advanceTo_cyc (d : Dev) (t : Nat) : (d.advanceTo t).cyc = d.cyc := by
  obtain ⟨_, _, h⟩ := d.advanceTo_eq t; rw [h]
@[simp] theorem Dev.advanceTo_ctl (d : Dev) (t : Nat) : (d.advanceTo t).ctl = d.ctl := by
  obtain ⟨_, _, h⟩ := d.advanceTo_eq t; rw [h]
@[simp] theorem Dev.advanceTo_csq (d : Dev) (t : Nat) : (d.advanceTo t).csq = d.csq := by
  obtain ⟨_, _, h⟩ := d.advanceTo_eq t; rw [h]
@[simp] theorem Dev.advanceTo_img (d : Dev) (t : Nat) : (d.advanceTo t).img = d.img := by
  obtain ⟨_, _, h⟩ := d.advanceTo_eq t; rw [h]
@[simp] theorem Dev.advanceTo_prs (d : Dev) (t : Nat) : (d.advanceTo t).prs = d.prs := by
  obtain ⟨_, _, h⟩ := d.advanceTo_eq t; rw [h]
@[simp] theorem Dev.advanceTo_mat (d : Dev) (t : Nat) : (d.advanceTo t).mat = d.mat := by
  obtain ⟨_, _, h⟩ := d.advanceTo_eq t; rw [h]
@[simp] theorem Dev.advanceTo_buf (d : Dev) (t : Nat) : (d.advanceTo t).buf = d.buf := by
  obtain ⟨_, _, h⟩ := d.advanceTo_eq t; rw [h]
@[simp] theorem Dev.advanceTo_spl (d : Dev) (t : Nat) : (d.advanceTo t).spl = d.spl := by
  obtain ⟨_, _, h⟩ := d.advanceTo_eq t; rw [h]
@[simp] theorem Dev.advanceTo_que (d : Dev) (t : Nat) : (d.advanceTo t).que = d.que := by
  obtain ⟨_, _, h⟩ := d.advanceTo_eq t; rw [h]
@[simp] theorem Dev.advanceTo_shu (d : Dev) (t : Nat) : (d.advanceTo t).shu = d.shu := by
  obtain ⟨_, _, h⟩ := d.advanceTo_eq t; rw [h]
@[simp] theorem Dev.advanceTo_lane (d : Dev) (t : Nat) : (d.advanceTo t).lane = d.lane := by
  obtain ⟨_, _, h⟩ := d.advanceTo_eq t; rw [h]
@[simp] theorem Dev.advanceTo_clk (d : Dev) (t : Nat) : (d.advanceTo t).clk = d.clk := by
  obtain ⟨_, _, h⟩ := d.advanceTo_eq t; rw [h]
@[simp] theorem Dev.advanceTo_pwr (d : Dev) (t : Nat) : (d.advanceTo t).pwr = d.pwr := by
  obtain ⟨_, _, h⟩ := d.advanceTo_eq t; rw [h]
@[simp] theorem Dev.advanceTo_fabric (d : Dev) (t : Nat) : (d.advanceTo t).fabric = d.fabric := by
  obtain ⟨_, _, h⟩ := d.advanceTo_eq t; rw [h]
@[simp] theorem Dev.advanceTo_rep (d : Dev) (t : Nat) : (d.advanceTo t).rep = d.rep := by
  obtain ⟨_, _, h⟩ := d.advanceTo_eq t; rw [h]
@[simp] theorem Dev.advanceTo_pins (d : Dev) (t : Nat) : (d.advanceTo t).pins = d.pins := by
  obtain ⟨_, _, h⟩ := d.advanceTo_eq t; rw [h]
@[simp] theorem Dev.advanceTo_now (d : Dev) (t : Nat) : (d.advanceTo t).now = max d.now t := by
  obtain ⟨_, _, h⟩ := d.advanceTo_eq t; rw [h]

@[simp] theorem Dev.rget_count (d : Dev) (i k : Nat) (n : RegName) (ix : List Nat) : (d.count i k).rget n ix = d.rget n ix := rfl
@[simp] theorem Dev.fget_count (d : Dev) (i n : Nat) (g : Fld) (ix : List Nat) : (d.count i n).fget g ix = d.fget g ix := rfl
@[simp] theorem Dev.rget_drawn (d : Dev) (n : RegName) (ix : List Nat) : (d.drawn).rget n ix = d.rget n ix := rfl
@[simp] theorem Dev.fget_drawn (d : Dev) (g : Fld) (ix : List Nat) : (d.drawn).fget g ix = d.fget g ix := rfl
@[simp] theorem Dev.rget_ctxMod (d : Dev) (sq c : Nat) (f : Ctx → Ctx) (n : RegName) (ix : List Nat) : (d.ctxMod sq c f).rget n ix = d.rget n ix := rfl
@[simp] theorem Dev.fget_ctxMod (d : Dev) (sq c : Nat) (f : Ctx → Ctx) (g : Fld) (ix : List Nat) : (d.ctxMod sq c f).fget g ix = d.fget g ix := rfl
@[simp] theorem Dev.rget_sessionMod (d : Dev) (k : Nat) (f : Session → Session) (n : RegName) (ix : List Nat) : (d.sessionMod k f).rget n ix = d.rget n ix := rfl
@[simp] theorem Dev.fget_sessionMod (d : Dev) (n : Nat) (f : Session → Session) (g : Fld) (ix : List Nat) : (d.sessionMod n f).fget g ix = d.fget g ix := rfl
@[simp] theorem Dev.rget_portMod (d : Dev) (p : Nat) (f : PortSt → PortSt) (n : RegName) (ix : List Nat) : (d.portMod p f).rget n ix = d.rget n ix := rfl
@[simp] theorem Dev.fget_portMod (d : Dev) (p : Nat) (f : PortSt → PortSt) (g : Fld) (ix : List Nat) : (d.portMod p f).fget g ix = d.fget g ix := rfl
@[simp] theorem Dev.rget_copyMod (d : Dev) (i : Nat) (f : Copy → Copy) (n : RegName) (ix : List Nat) : (d.copyMod i f).rget n ix = d.rget n ix := rfl
@[simp] theorem Dev.fget_copyMod (d : Dev) (i : Nat) (f : Copy → Copy) (g : Fld) (ix : List Nat) : (d.copyMod i f).fget g ix = d.fget g ix := rfl
@[simp] theorem Dev.rget_advanceTo (d : Dev) (t : Nat) (n : RegName) (ix : List Nat) : (d.advanceTo t).rget n ix = d.rget n ix := by
  simp [Dev.rget]
@[simp] theorem Dev.fget_advanceTo (d : Dev) (t : Nat) (g : Fld) (ix : List Nat) : (d.advanceTo t).fget g ix = d.fget g ix := by
  simp [Dev.fget]
@[simp] theorem Dev.fbit_advanceTo (d : Dev) (t : Nat) (g : Fld) (ix : List Nat) : (d.advanceTo t).fbit g ix = d.fbit g ix := by
  simp [Dev.fbit]
@[simp] theorem Dev.counter_advanceTo (d : Dev) (t i : Nat) : (d.advanceTo t).counter i = d.counter i := by
  simp [Dev.counter]
@[simp] theorem Dev.up_advanceTo (d : Dev) (t : Nat) : (d.advanceTo t).up = d.up := by simp [Dev.up]
@[simp] theorem Dev.active_advanceTo (d : Dev) (t : Nat) : (d.advanceTo t).active = d.active := by simp [Dev.active]
@[simp] theorem Dev.up_fset (d : Dev) (f : Fld) (ix : List Nat) (v : Nat) : (d.fset f ix v).up = d.up := rfl
@[simp] theorem Dev.counter_fset (d : Dev) (f : Fld) (ix : List Nat) (v i : Nat) : (d.fset f ix v).counter i = d.counter i := rfl

/-- A counter that grows. -/
theorem Dev.counter_count (d : Dev) (i n j : Nat) :
    (d.count i n).counter j = if i = j then d.counter i + BitVec.ofNat 64 n else d.counter j := by
  simp [Dev.counter, Dev.count, mget_mset]

/-- A context changed by f, and every other context. -/
theorem Dev.ctx_ctxMod_same (d : Dev) (sq c : Nat) (f : Ctx → Ctx) (h : ctxIx sq c < d.csq.ctxs.length) :
    (d.ctxMod sq c f).ctx sq c = f (d.ctx sq c) := getD_lmod_same _ _ _ _ h
theorem Dev.ctx_ctxMod_ne (d : Dev) (sq c : Nat) (f : Ctx → Ctx) (sq' c' : Nat) (h : ctxIx sq c ≠ ctxIx sq' c') :
    (d.ctxMod sq c f).ctx sq' c' = d.ctx sq' c' := getD_lmod_ne _ _ _ _ _ h

/-- A port changed by f, and every other port. -/
theorem Dev.port_portMod (d : Dev) (p : Nat) (f : PortSt → PortSt) (q : Nat) :
    (d.portMod p f).port q = if p = q then f (d.port p) else d.port q := by
  simp only [Dev.port, Dev.portMod, mget?_mins]
  split <;> rfl

/-- What the three runners answer: a next state that differs in the device alone. -/
theorem State.run_next (s : State) (f : Dev → Dev) : ∃ d, s.run f = .next { s with dev := d } ∧ d.fuses = s.dev.fuses ∧ d.tmem = s.dev.tmem :=
  ⟨_, rfl, rfl, rfl⟩
theorem State.runTables_next (s : State) (f : Dev → Dev) : ∃ d, s.runTables f = .next { s with dev := d } ∧ d.fuses = s.dev.fuses ∧ d.tmem = (f s.dev).tmem :=
  ⟨_, rfl, rfl, rfl⟩
theorem State.runFuses_next (s : State) (f : Dev → Dev) : ∃ d, s.runFuses f = .next { s with dev := d } ∧ d.tmem = s.dev.tmem ∧ d.fuses = (f s.dev).fuses :=
  ⟨_, rfl, rfl, rfl⟩

end Sys2Proof.Machine
end

