-- ==== Sys2Proof/Laws/Ops.lean ====
section
/-! SUPPORT. What raising an event does, said once: it sets status bits of EVT_STATUS, counts, and adds records to the queues of contexts
and sessions; it leaves everything else. -/

namespace Sys2Proof.Machine

/-- A relation between devices that differ by what raising an event may change, outside the register file. -/
def RaiseFrame (d e : Dev) : Prop :=
  ∃ r c q t, e = { d with regs := r, counters := c, csq := q, ctl := t }

theorem RaiseFrame.refl (d : Dev) : RaiseFrame d d := ⟨_, _, _, _, rfl⟩

theorem RaiseFrame.trans {d e g : Dev} (h : RaiseFrame d e) (k : RaiseFrame e g) : RaiseFrame d g := by
  obtain ⟨_, _, _, _, rfl⟩ := h
  obtain ⟨_, _, _, _, rfl⟩ := k
  exact ⟨_, _, _, _, rfl⟩

/-- A fold of steps that each keep a relation keeps it. -/
theorem foldl_keeps {β σ : Type} (R : σ → σ → Prop) (hr : ∀ s, R s s) (ht : ∀ s t u, R s t → R t u → R s u) (f : σ → β → σ)
    (hf : ∀ s b, R s (f s b)) (l : List β) (s : σ) : R s (l.foldl f s) := by
  induction l generalizing s with
  | nil => exact hr s
  | cons b l ih => exact ht _ _ _ (hf s b) (ih _)

/-- What pushing a session's record leaves: all but the sessions and a counter. -/
theorem Dev.pushSessionRec_eq (d : Dev) (n : Nat) (r : EvRec) : ∃ c t, d.pushSessionRec n r = { d with counters := c, ctl := t } := by
  unfold Dev.pushSessionRec
  dsimp only
  split
  · exact ⟨_, _, rfl⟩
  · split
    · exact ⟨_, _, rfl⟩
    · exact ⟨_, _, rfl⟩

/-- Devices that differ in the counters and the control complex. -/
def PushFrame (d e : Dev) : Prop := ∃ c t, e = { d with counters := c, ctl := t }

theorem raiseSessions_push (d : Dev) (p : Dev → Nat → Bool) (r : EvRec) (l : List Nat) :
    PushFrame d (l.foldl (fun (d : Dev) n => if p d n then d.pushSessionRec n r else d) d) := by
  apply foldl_keeps PushFrame
  · exact fun _ => ⟨_, _, rfl⟩
  · rintro _ _ _ ⟨_, _, rfl⟩ ⟨_, _, rfl⟩; exact ⟨_, _, rfl⟩
  · intro d n
    show PushFrame d (if p d n then _ else _)
    split
    · exact Dev.pushSessionRec_eq ..
    · exact ⟨_, _, rfl⟩

/-- A device with the status bit of event id set, and its HIGH bit if the severity is major or critical (R389). -/
def Dev.raiseMark (d : Dev) (id sev : Nat) : Dev :=
  let e := d.fset F.EVT_STATUS.STATUS [id / 32] (d.fget F.EVT_STATUS.STATUS [id / 32] ||| 2 ^ (id % 32))
  if 2 ≤ sev then e.fset F.EVT_STATUS.HIGH [id / 32] (e.fget F.EVT_STATUS.HIGH [id / 32] ||| 2 ^ (id % 32)) else e

/-- What one raise does: the status bits, counters, contexts and sessions. -/
theorem Dev.raiseOne_eq (d : Dev) (id sev arg unit : Nat) :
    ∃ c q t, d.raiseOne id sev arg unit = { d.raiseMark id sev with counters := c, csq := q, ctl := t } := by
  unfold Dev.raiseOne
  extract_lets g i e1 e2 e3 r q e4
  split
  · exact ⟨_, _, _, rfl⟩
  · obtain ⟨c, t, h⟩ := raiseSessions_push e4 (fun d n => d.sessionOpen n && bitN (d.fget F.TVX_EVT_SUB.GROUPS [n]) g) r (List.range 8)
    exact ⟨c, e4.csq, t, h⟩

theorem Dev.raiseMark_frame (d : Dev) (id sev : Nat) : RaiseFrame d (d.raiseMark id sev) := by
  unfold Dev.raiseMark
  extract_lets e
  split <;> exact ⟨_, _, _, _, rfl⟩

theorem Dev.raiseOne_regs (d : Dev) (id sev arg unit : Nat) : (d.raiseOne id sev arg unit).regs = (d.raiseMark id sev).regs := by
  obtain ⟨c, q, t, h⟩ := d.raiseOne_eq id sev arg unit; rw [h]

theorem Dev.raiseOne_frame (d : Dev) (id sev arg unit : Nat) : RaiseFrame d (d.raiseOne id sev arg unit) := by
  obtain ⟨c, q, t, h⟩ := d.raiseOne_eq id sev arg unit
  rw [h]
  exact (d.raiseMark_frame id sev).trans ⟨_, _, _, _, rfl⟩

theorem Dev.raiseSev_frame (d : Dev) (id sev arg unit : Nat) : RaiseFrame d (d.raiseSev id sev arg unit) := by
  unfold Dev.raiseSev
  dsimp only
  split
  · exact d.raiseOne_frame ..
  · exact (d.raiseOne_frame id sev arg unit).trans
      (foldl_keeps RaiseFrame RaiseFrame.refl (fun _ _ _ => RaiseFrame.trans) _ (fun d i => d.raiseOne_frame ..) _ _)

theorem Dev.raise_frame (d : Dev) (id arg unit : Nat) : RaiseFrame d (d.raise id arg unit) := d.raiseSev_frame ..

@[simp] theorem Dev.raiseSev_now (d : Dev) (id sev arg unit : Nat) : (d.raiseSev id sev arg unit).now = d.now := by
  obtain ⟨_, _, _, _, h⟩ := d.raiseSev_frame id sev arg unit; rw [h]
@[simp] theorem Dev.raise_now (d : Dev) (id arg unit : Nat) : (d.raise id arg unit).now = d.now := Dev.raiseSev_now ..
@[simp] theorem Dev.raiseSev_fab (d : Dev) (id sev arg unit : Nat) : (d.raiseSev id sev arg unit).fab = d.fab := by
  obtain ⟨_, _, _, _, h⟩ := d.raiseSev_frame id sev arg unit; rw [h]
@[simp] theorem Dev.raise_fab (d : Dev) (id arg unit : Nat) : (d.raise id arg unit).fab = d.fab := Dev.raiseSev_fab ..
@[simp] theorem Dev.raiseSev_freeCtr (d : Dev) (id sev arg unit : Nat) : (d.raiseSev id sev arg unit).freeCtr = d.freeCtr := by
  obtain ⟨_, _, _, _, h⟩ := d.raiseSev_frame id sev arg unit; rw [h]
@[simp] theorem Dev.raise_freeCtr (d : Dev) (id arg unit : Nat) : (d.raise id arg unit).freeCtr = d.freeCtr := Dev.raiseSev_freeCtr ..
@[simp] theorem Dev.raiseSev_cntGen (d : Dev) (id sev arg unit : Nat) : (d.raiseSev id sev arg unit).cntGen = d.cntGen := by
  obtain ⟨_, _, _, _, h⟩ := d.raiseSev_frame id sev arg unit; rw [h]
@[simp] theorem Dev.raise_cntGen (d : Dev) (id arg unit : Nat) : (d.raise id arg unit).cntGen = d.cntGen := Dev.raiseSev_cntGen ..
@[simp] theorem Dev.raiseSev_inForce (d : Dev) (id sev arg unit : Nat) : (d.raiseSev id sev arg unit).inForce = d.inForce := by
  obtain ⟨_, _, _, _, h⟩ := d.raiseSev_frame id sev arg unit; rw [h]
@[simp] theorem Dev.raise_inForce (d : Dev) (id arg unit : Nat) : (d.raise id arg unit).inForce = d.inForce := Dev.raiseSev_inForce ..
@[simp] theorem Dev.raiseSev_lastEv (d : Dev) (id sev arg unit : Nat) : (d.raiseSev id sev arg unit).lastEv = d.lastEv := by
  obtain ⟨_, _, _, _, h⟩ := d.raiseSev_frame id sev arg unit; rw [h]
@[simp] theorem Dev.raise_lastEv (d : Dev) (id arg unit : Nat) : (d.raise id arg unit).lastEv = d.lastEv := Dev.raiseSev_lastEv ..
@[simp] theorem Dev.raiseSev_fuses (d : Dev) (id sev arg unit : Nat) : (d.raiseSev id sev arg unit).fuses = d.fuses := by
  obtain ⟨_, _, _, _, h⟩ := d.raiseSev_frame id sev arg unit; rw [h]
@[simp] theorem Dev.raise_fuses (d : Dev) (id arg unit : Nat) : (d.raise id arg unit).fuses = d.fuses := Dev.raiseSev_fuses ..
@[simp] theorem Dev.raiseSev_ageRec (d : Dev) (id sev arg unit : Nat) : (d.raiseSev id sev arg unit).ageRec = d.ageRec := by
  obtain ⟨_, _, _, _, h⟩ := d.raiseSev_frame id sev arg unit; rw [h]
@[simp] theorem Dev.raise_ageRec (d : Dev) (id arg unit : Nat) : (d.raise id arg unit).ageRec = d.ageRec := Dev.raiseSev_ageRec ..
@[simp] theorem Dev.raiseSev_tmem (d : Dev) (id sev arg unit : Nat) : (d.raiseSev id sev arg unit).tmem = d.tmem := by
  obtain ⟨_, _, _, _, h⟩ := d.raiseSev_frame id sev arg unit; rw [h]
@[simp] theorem Dev.raise_tmem (d : Dev) (id arg unit : Nat) : (d.raise id arg unit).tmem = d.tmem := Dev.raiseSev_tmem ..
@[simp] theorem Dev.raiseSev_tim (d : Dev) (id sev arg unit : Nat) : (d.raiseSev id sev arg unit).tim = d.tim := by
  obtain ⟨_, _, _, _, h⟩ := d.raiseSev_frame id sev arg unit; rw [h]
@[simp] theorem Dev.raise_tim (d : Dev) (id arg unit : Nat) : (d.raise id arg unit).tim = d.tim := Dev.raiseSev_tim ..
@[simp] theorem Dev.raiseSev_cyc (d : Dev) (id sev arg unit : Nat) : (d.raiseSev id sev arg unit).cyc = d.cyc := by
  obtain ⟨_, _, _, _, h⟩ := d.raiseSev_frame id sev arg unit; rw [h]
@[simp] theorem Dev.raise_cyc (d : Dev) (id arg unit : Nat) : (d.raise id arg unit).cyc = d.cyc := Dev.raiseSev_cyc ..
@[simp] theorem Dev.raiseSev_img (d : Dev) (id sev arg unit : Nat) : (d.raiseSev id sev arg unit).img = d.img := by
  obtain ⟨_, _, _, _, h⟩ := d.raiseSev_frame id sev arg unit; rw [h]
@[simp] theorem Dev.raise_img (d : Dev) (id arg unit : Nat) : (d.raise id arg unit).img = d.img := Dev.raiseSev_img ..
@[simp] theorem Dev.raiseSev_prs (d : Dev) (id sev arg unit : Nat) : (d.raiseSev id sev arg unit).prs = d.prs := by
  obtain ⟨_, _, _, _, h⟩ := d.raiseSev_frame id sev arg unit; rw [h]
@[simp] theorem Dev.raise_prs (d : Dev) (id arg unit : Nat) : (d.raise id arg unit).prs = d.prs := Dev.raiseSev_prs ..
@[simp] theorem Dev.raiseSev_mat (d : Dev) (id sev arg unit : Nat) : (d.raiseSev id sev arg unit).mat = d.mat := by
  obtain ⟨_, _, _, _, h⟩ := d.raiseSev_frame id sev arg unit; rw [h]
@[simp] theorem Dev.raise_mat (d : Dev) (id arg unit : Nat) : (d.raise id arg unit).mat = d.mat := Dev.raiseSev_mat ..
@[simp] theorem Dev.raiseSev_buf (d : Dev) (id sev arg unit : Nat) : (d.raiseSev id sev arg unit).buf = d.buf := by
  obtain ⟨_, _, _, _, h⟩ := d.raiseSev_frame id sev arg unit; rw [h]
@[simp] theorem Dev.raise_buf (d : Dev) (id arg unit : Nat) : (d.raise id arg unit).buf = d.buf := Dev.raiseSev_buf ..
@[simp] theorem Dev.raiseSev_spl (d : Dev) (id sev arg unit : Nat) : (d.raiseSev id sev arg unit).spl = d.spl := by
  obtain ⟨_, _, _, _, h⟩ := d.raiseSev_frame id sev arg unit; rw [h]
@[simp] theorem Dev.raise_spl (d : Dev) (id arg unit : Nat) : (d.raise id arg unit).spl = d.spl := Dev.raiseSev_spl ..
@[simp] theorem Dev.raiseSev_que (d : Dev) (id sev arg unit : Nat) : (d.raiseSev id sev arg unit).que = d.que := by
  obtain ⟨_, _, _, _, h⟩ := d.raiseSev_frame id sev arg unit; rw [h]
@[simp] theorem Dev.raise_que (d : Dev) (id arg unit : Nat) : (d.raise id arg unit).que = d.que := Dev.raiseSev_que ..
@[simp] theorem Dev.raiseSev_shu (d : Dev) (id sev arg unit : Nat) : (d.raiseSev id sev arg unit).shu = d.shu := by
  obtain ⟨_, _, _, _, h⟩ := d.raiseSev_frame id sev arg unit; rw [h]
@[simp] theorem Dev.raise_shu (d : Dev) (id arg unit : Nat) : (d.raise id arg unit).shu = d.shu := Dev.raiseSev_shu ..
@[simp] theorem Dev.raiseSev_lane (d : Dev) (id sev arg unit : Nat) : (d.raiseSev id sev arg unit).lane = d.lane := by
  obtain ⟨_, _, _, _, h⟩ := d.raiseSev_frame id sev arg unit; rw [h]
@[simp] theorem Dev.raise_lane (d : Dev) (id arg unit : Nat) : (d.raise id arg unit).lane = d.lane := Dev.raiseSev_lane ..
@[simp] theorem Dev.raiseSev_clk (d : Dev) (id sev arg unit : Nat) : (d.raiseSev id sev arg unit).clk = d.clk := by
  obtain ⟨_, _, _, _, h⟩ := d.raiseSev_frame id sev arg unit; rw [h]
@[simp] theorem Dev.raise_clk (d : Dev) (id arg unit : Nat) : (d.raise id arg unit).clk = d.clk := Dev.raiseSev_clk ..
@[simp] theorem Dev.raiseSev_pwr (d : Dev) (id sev arg unit : Nat) : (d.raiseSev id sev arg unit).pwr = d.pwr := by
  obtain ⟨_, _, _, _, h⟩ := d.raiseSev_frame id sev arg unit; rw [h]
@[simp] theorem Dev.raise_pwr (d : Dev) (id arg unit : Nat) : (d.raise id arg unit).pwr = d.pwr := Dev.raiseSev_pwr ..
@[simp] theorem Dev.raiseSev_fabric (d : Dev) (id sev arg unit : Nat) : (d.raiseSev id sev arg unit).fabric = d.fabric := by
  obtain ⟨_, _, _, _, h⟩ := d.raiseSev_frame id sev arg unit; rw [h]
@[simp] theorem Dev.raise_fabric (d : Dev) (id arg unit : Nat) : (d.raise id arg unit).fabric = d.fabric := Dev.raiseSev_fabric ..
@[simp] theorem Dev.raiseSev_rep (d : Dev) (id sev arg unit : Nat) : (d.raiseSev id sev arg unit).rep = d.rep := by
  obtain ⟨_, _, _, _, h⟩ := d.raiseSev_frame id sev arg unit; rw [h]
@[simp] theorem Dev.raise_rep (d : Dev) (id arg unit : Nat) : (d.raise id arg unit).rep = d.rep := Dev.raiseSev_rep ..
@[simp] theorem Dev.raiseSev_pins (d : Dev) (id sev arg unit : Nat) : (d.raiseSev id sev arg unit).pins = d.pins := by
  obtain ⟨_, _, _, _, h⟩ := d.raiseSev_frame id sev arg unit; rw [h]
@[simp] theorem Dev.raise_pins (d : Dev) (id arg unit : Nat) : (d.raise id arg unit).pins = d.pins := Dev.raiseSev_pins ..
@[simp] theorem Dev.up_raise (d : Dev) (id arg unit : Nat) : (d.raise id arg unit).up = d.up := by simp [Dev.up]
@[simp] theorem Dev.active_raise (d : Dev) (id arg unit : Nat) : (d.raise id arg unit).active = d.active := by simp [Dev.active]

/-- Devices whose register files agree outside EVT_STATUS. -/
def StatusFrame (d e : Dev) : Prop :=
  ∀ (n : RegName) (ix : List Nat), (n.addr ix < 0x500000000 ∨ 0x500000180 ≤ n.addr ix) → e.rget n ix = d.rget n ix

theorem evtStatus_addr (g : Nat) : RegName.addr .EVT_STATUS [g] = 0x500000000 + 8 * g := rfl

theorem Dev.raiseOne_rget (d : Dev) (id sev arg unit : Nat) (hid : id < 1536) : StatusFrame d (d.raiseOne id sev arg unit) := by
  intro n ix hn
  have ha : RegName.addr .EVT_STATUS [id / 32] ≠ n.addr ix := by rw [evtStatus_addr]; omega
  rw [Dev.rget_congr (d.raiseOne_regs id sev arg unit)]
  unfold Dev.raiseMark
  extract_lets e
  split
  · exact (Dev.rget_fset_ne _ _ _ _ _ _ ha).trans (Dev.rget_fset_ne _ _ _ _ _ _ ha)
  · exact Dev.rget_fset_ne _ _ _ _ _ _ ha

theorem Dev.raiseSev_rget (d : Dev) (id sev arg unit : Nat) (hid : id < 1536) : StatusFrame d (d.raiseSev id sev arg unit) := by
  unfold Dev.raiseSev
  dsimp only
  split
  · exact d.raiseOne_rget _ _ _ _ hid
  · intro n ix hn
    rw [← d.raiseOne_rget id sev arg unit hid n ix hn]
    exact foldl_keeps StatusFrame (fun _ _ _ _ => rfl) (fun _ _ _ h k n ix hn => (k n ix hn).trans (h n ix hn)) _
      (fun d i => d.raiseOne_rget _ _ _ _ (by decide)) _ _ n ix hn

/-- Raising an event leaves every register but EVT_STATUS. -/
theorem Dev.rget_raise (d : Dev) (id arg unit : Nat) (n : RegName) (ix : List Nat) (hid : id < 1536)
    (hn : n.addr ix < 0x500000000 ∨ 0x500000180 ≤ n.addr ix) : (d.raise id arg unit).rget n ix = d.rget n ix :=
  d.raiseSev_rget id _ _ unit hid n ix hn

theorem Dev.fget_raise (d : Dev) (id arg unit : Nat) (g : Fld) (ix : List Nat) (hid : id < 1536)
    (hn : g.reg.addr ix < 0x500000000 ∨ 0x500000180 ≤ g.reg.addr ix) : (d.raise id arg unit).fget g ix = d.fget g ix := by
  simp only [Dev.fget, d.rget_raise id arg unit _ _ hid hn]

/-- Event id has happened since its status bit was last cleared (R389). -/
def Dev.evSeen (d : Dev) (id : Nat) : Bool := (d.fget F.EVT_STATUS.STATUS [id / 32]).testBit (id % 32)

theorem Dev.evSeen_setStatus (d : Dev) (id j : Nat) (_hid : id < 1536) :
    (d.fset F.EVT_STATUS.STATUS [id / 32] (d.fget F.EVT_STATUS.STATUS [id / 32] ||| 2 ^ (id % 32))).evSeen j = (j == id || d.evSeen j) := by
  unfold Dev.evSeen
  by_cases hg : id / 32 = j / 32
  · rw [← hg, Dev.fget_fset_same _ _ _ _ (by decide) (by decide), Nat.testBit_mod_two_pow, Nat.testBit_or, Nat.testBit_two_pow]
    have hj : j % 32 < 32 := Nat.mod_lt _ (by decide)
    have e : decide (id % 32 = j % 32) = (j == id) := by
      by_cases h : j = id
      · subst h; simp
      · have : id % 32 ≠ j % 32 := by omega
        simp [h, this]
    simp only [e, hj, decide_true, Bool.true_and, Bool.or_comm]
  · rw [Dev.fget_fset_ne]
    · have : j ≠ id := fun h => hg (by rw [h])
      simp [this]
    · show RegName.addr .EVT_STATUS [id / 32] ≠ RegName.addr .EVT_STATUS [j / 32]
      rw [evtStatus_addr, evtStatus_addr]; omega

theorem Dev.evSeen_setHigh (d : Dev) (g v j : Nat) : (d.fset F.EVT_STATUS.HIGH [g] v).evSeen j = d.evSeen j := by
  unfold Dev.evSeen
  by_cases hg : g = j / 32
  · subst hg
    rw [Dev.fget_fset_disj d F.EVT_STATUS.HIGH [j / 32] v F.EVT_STATUS.STATUS (by decide) (by decide) rfl (by decide)]
  · rw [Dev.fget_fset_ne]
    show RegName.addr .EVT_STATUS [g] ≠ RegName.addr .EVT_STATUS [j / 32]
    rw [evtStatus_addr, evtStatus_addr]; omega

theorem Dev.raiseOne_seen (d : Dev) (id sev arg unit : Nat) (hid : id < 1536) (j : Nat) :
    (d.raiseOne id sev arg unit).evSeen j = (j == id || d.evSeen j) := by
  have hs : (d.raiseOne id sev arg unit).evSeen j = (d.raiseMark id sev).evSeen j := by
    unfold Dev.evSeen; rw [Dev.fget_congr (d.raiseOne_regs id sev arg unit)]
  rw [hs]
  unfold Dev.raiseMark
  extract_lets e
  split
  · exact (Dev.evSeen_setHigh _ _ _ _).trans (Dev.evSeen_setStatus d id j hid)
  · exact Dev.evSeen_setStatus d id j hid

/-- Status bits only grow. -/
def SeenGrows (d e : Dev) : Prop := ∀ j, d.evSeen j = true → e.evSeen j = true

theorem Dev.raiseSev_grows (d : Dev) (id sev arg unit : Nat) (hid : id < 1536) :
    (d.raiseSev id sev arg unit).evSeen id = true ∧ SeenGrows d (d.raiseSev id sev arg unit) := by
  have h1 : ∀ (d : Dev) id sev arg unit, id < 1536 → SeenGrows d (d.raiseOne id sev arg unit) := by
    intro d id sev arg unit hid j hj
    rw [Dev.raiseOne_seen _ _ _ _ _ hid, hj, Bool.or_true]
  have h2 : (d.raiseOne id sev arg unit).evSeen id = true := by rw [Dev.raiseOne_seen _ _ _ _ _ hid]; simp
  unfold Dev.raiseSev
  dsimp only
  split
  · exact ⟨h2, h1 _ _ _ _ _ hid⟩
  · have h3 := foldl_keeps SeenGrows (fun _ _ h => h) (fun _ _ _ h k j hj => k j (h j hj))
      (fun (d : Dev) i => d.raiseOne Ev.CSQ_EVQ_LOST 1 i unitDev) (fun d i => h1 d _ _ _ _ (by decide)) (d.fullQueues id) (d.raiseOne id sev arg unit)
    exact ⟨h3 _ h2, fun j hj => h3 j (h1 _ _ _ _ _ hid j hj)⟩

/-- An event that is raised has its status bit set, and no other status bit is cleared (R389). -/
theorem Dev.evSeen_raise (d : Dev) (id arg unit : Nat) (hid : id < 1536) : (d.raise id arg unit).evSeen id = true :=
  (d.raiseSev_grows id _ _ unit hid).1
theorem Dev.evSeen_raise_mono (d : Dev) (id arg unit j : Nat) (hid : id < 1536) (h : d.evSeen j = true) : (d.raise id arg unit).evSeen j = true :=
  (d.raiseSev_grows id _ _ unit hid).2 j h

end Sys2Proof.Machine
end

