-- ==== Sys2Proof/Laws/Does.lean ====
section
/-! SUPPORT. How a statement "command i does P" is reached: from the runner of its meaning and the change it makes; and what a restriction of
register changes follows from. -/

namespace Sys2Proof.Safety

open Sys2Proof.Machine

variable {i : Instr} {s : State} {f : Dev → Dev} {e : Dev} {P : Dev → Prop}

theorem Does.of_run (h : exec i s = s.run f) (hf : f s.dev = e) (h1 : e.fuses = s.dev.fuses) (h2 : e.tmem = s.dev.tmem) (hp : P e) :
    Does i s P := by
  refine ⟨e, ?_, hp⟩
  rw [h, State.run, hf, ← h1, ← h2]

theorem Does.of_runTables (h : exec i s = s.runTables f) (hf : f s.dev = e) (h1 : e.fuses = s.dev.fuses) (hp : P e) : Does i s P := by
  refine ⟨e, ?_, hp⟩
  rw [h, State.runTables, hf, ← h1]

theorem Does.of_runFuses (h : exec i s = s.runFuses f) (hf : f s.dev = e) (h2 : e.tmem = s.dev.tmem) (hp : P e) : Does i s P := by
  refine ⟨e, ?_, hp⟩
  rw [h, State.runFuses, hf, ← h2]

theorem OnlyRegs.refl (l : List (RegName × List Nat)) (d : Dev) : OnlyRegs l d d := fun _ _ _ => rfl

theorem OnlyRegs.trans {l : List (RegName × List Nat)} {a b c : Dev} (h : OnlyRegs l a b) (k : OnlyRegs l b c) : OnlyRegs l a c :=
  fun n ix hn => (k n ix hn).trans (h n ix hn)

theorem OnlyRegs.of_regs {l : List (RegName × List Nat)} {a b : Dev} (h : b.regs = a.regs) : OnlyRegs l a b :=
  fun n ix _ => Dev.rget_congr h n ix

theorem OnlyRegs.fset {l : List (RegName × List Nat)} {a b : Dev} (h : OnlyRegs l a b) (g : Fld) (ix : List Nat) (v : Nat)
    (hm : (g.reg, ix) ∈ l) : OnlyRegs l a (b.fset g ix v) :=
  h.trans fun _ _ hn => Dev.rget_fset_ne _ _ _ _ _ _ (hn _ hm)

theorem OnlyRegs.rset {l : List (RegName × List Nat)} {a b : Dev} (h : OnlyRegs l a b) (r : RegName) (ix : List Nat) (v : Word)
    (hm : (r, ix) ∈ l) : OnlyRegs l a (b.rset r ix v) :=
  h.trans fun _ _ hn => Dev.rget_rset_ne _ _ _ _ _ _ (hn _ hm)

theorem OnlyRegsAndEvents.of_only {l : List (RegName × List Nat)} {a b : Dev} (h : OnlyRegs l a b) : OnlyRegsAndEvents l a b :=
  fun n ix hn _ => h n ix hn

theorem OnlyRegsAndEvents.trans {l : List (RegName × List Nat)} {a b c : Dev} (h : OnlyRegsAndEvents l a b) (k : OnlyRegsAndEvents l b c) :
    OnlyRegsAndEvents l a c := fun n ix hn he => (k n ix hn he).trans (h n ix hn he)

theorem OnlyRegsAndEvents.fset {l : List (RegName × List Nat)} {a b : Dev} (h : OnlyRegsAndEvents l a b) (g : Fld) (ix : List Nat) (v : Nat)
    (hm : (g.reg, ix) ∈ l) : OnlyRegsAndEvents l a (b.fset g ix v) :=
  h.trans fun _ _ hn _ => Dev.rget_fset_ne _ _ _ _ _ _ (hn _ hm)

theorem OnlyRegsAndEvents.raise {l : List (RegName × List Nat)} {a b : Dev} (h : OnlyRegsAndEvents l a b) (id arg unit : Nat) (hid : id < 1536) :
    OnlyRegsAndEvents l a (b.raise id arg unit) :=
  h.trans fun n jx _ he => Dev.rget_raise b id arg unit n jx hid he

theorem OnlyRegsAndEvents.raiseSev {l : List (RegName × List Nat)} {a b : Dev} (h : OnlyRegsAndEvents l a b) (id sev arg unit : Nat)
    (hid : id < 1536) : OnlyRegsAndEvents l a (b.raiseSev id sev arg unit) :=
  h.trans fun n jx _ he => Dev.raiseSev_rget b id sev arg unit hid n jx he

/-- An event that is raised has happened; nothing a raise does takes back that another has. -/
theorem happened_raise (d : Dev) (id arg unit : Nat) (hid : id < 1536) : Happened (d.raise id arg unit) id := Dev.evSeen_raise d id arg unit hid
theorem Happened.raise {d : Dev} {j : Nat} (h : Happened d j) (id arg unit : Nat) (hid : id < 1536) : Happened (d.raise id arg unit) j :=
  Dev.evSeen_raise_mono d id arg unit j hid h

theorem Happened.congr {d e : Dev} {j : Nat} (h : Happened d j) (hr : e.regs = d.regs) : Happened e j := by
  unfold Happened at *
  rw [Dev.fget_congr hr]; exact h

theorem Happened.fset {d : Dev} {j : Nat} (h : Happened d j) (g : Fld) (ix : List Nat) (v : Nat)
    (hn : g.reg.addr ix ≠ RegName.addr .EVT_STATUS [j / 32]) : Happened (d.fset g ix v) j := by
  unfold Happened at *
  rw [Dev.fget_fset_ne _ _ _ _ _ _ hn]; exact h

/-- A fold over a list leaves what each of its steps leaves. -/
theorem foldl_fixed {β σ : Type} (f : σ → β → σ) (s : σ) (l : List β) (h : ∀ b ∈ l, f s b = s) : l.foldl f s = s := by
  induction l with
  | nil => rfl
  | cons b l ih => rw [List.foldl_cons, h b (List.mem_cons_self ..)]; exact ih fun c hc => h c (List.mem_cons_of_mem _ hc)

/-- Where no port's MACsec has stopped in between, settling moves no session. -/
theorem settlePorts_same (d e : Dev) (h : ∀ k < 2, e.ctl.stopped.contains k = true → d.ctl.stopped.contains k = true) :
    Dev.settlePorts d e = e := by
  unfold Dev.settlePorts
  apply foldl_fixed
  intro k hk
  have hk := List.mem_range.1 hk
  cases he : e.ctl.stopped.contains k
  · simp
  · rw [h k hk he]; simp

end Sys2Proof.Safety
end

