-- ==== Sys2Proof/WellFormed.lean ====
section
/-! DEFINITION. Which commands are well formed: every operand names something that exists and fits its field. The meanings are total all the
same: a command whose operand names nothing leaves the device as it is. -/

namespace Sys2Proof

/-- The fields of a received TVX frame fit their places (R56, R59). -/
def TvxRx.wf (f : TvxRx) : Bool :=
  decide (f.port < 2) && decide (f.src < 2 ^ 48) && decide (f.dst < 2 ^ 48) && decide (f.sec < 3) && decide (f.an < 4) && decide (f.pn < 2 ^ 32) &&
    decide (f.ver < 16) && decide (f.typ < 16) && decide (f.code < 256) && decide (f.sid < 256) && decide (f.seq < 2 ^ 32) &&
    decide (f.ack < 2 ^ 32) && decide (f.len < 2 ^ 16) && decide (f.win < 2 ^ 16) && decide (f.tag < 2 ^ 64)

/-- The fields of a received domain message fit their places (R354). -/
def DomRx.wf (m : DomRx) : Bool :=
  decide (m.port < 1024) && decide (m.ver < 16) && decide (m.typ < 16) && decide (m.hops < 16) && decide (m.domain < 2 ^ 16) &&
    decide (m.origin < 2 ^ 64) && decide (m.term < 2 ^ 16) && decide (m.seq < 2 ^ 32) && decide (m.len < 2 ^ 16)

/-- A command is well formed. -/
def Instr.wf (i : Instr) : Bool :=
  match i with
  | .registerWrite sq c addr _ => decide (sq < 2) && decide (c < 8) && decide (addr < 1099511627776)
  | .bFieldTakesEffect addr => decide (addr < 1099511627776)
  | .qviolClear => true
  | .powerUp _ role => decide (role < 4)
  | .poresetN _ _ role => decide (role < 4)
  | .resetN _ _ role _ => decide (role < 4)
  | .softwareRestart sq c role => decide (sq < 2) && decide (c < 8) && decide (role < 4)
  | .supplyLoss _ r => decide (r < 9)
  | .readTimNowSec sq c rd => decide (sq < 2) && decide (c < 8) && decide (rd < 32)
  | .readCycNowNum sq c rd => decide (sq < 2) && decide (c < 8) && decide (rd < 32)
  | .servoDisable => true
  | .sourceQualifies _ _ => true
  | .waitToRestoreExpiry _ => true
  | .sourceLost _ _ => true
  | .ppsInEdge _ => true
  | .dpllLock _ _ => true
  | .dpllOffsetLoss _ => true
  | .holdoverHistoryValid _ => true
  | .timAdjGo mode off => decide (mode < 2) && decide (off < 281474976710656)
  | .slewEnd _ => true
  | .ptpMessageRx _ p q _ _ => decide (p < 1024) && decide (q < 20)
  | .ptpMessageTx _ p q _ => decide (p < 1024) && decide (q < 20)
  | .calibrationStep _ sl _ => decide (sl < 32)
  | .ppsOutPulse _ => true
  | .cycleRun => true
  | .cycleStop => true
  | .cycleBoundary _ => true
  | .realign => true
  | .cycleInEdge _ => true
  | .cycleInMiss _ => true
  | .flywheelBoundary _ => true
  | .phaseEntryFire _ => true
  | .phaseTableCommit => true
  | .phaseTableCheckDone _ => true
  | .phaseTableEntryWrite n _ => decide (n < 4097)
  | .cpLinkUp _ k _ => decide (k < 2)
  | .cpLinkLoss _ k => decide (k < 2)
  | .cpModeAlternate _ k => decide (k < 2)
  | .cpConfigWrite sq c k _ => decide (sq < 2) && decide (c < 8) && decide (k < 2)
  | .cpFrameDiscard k _ _ => decide (k < 2)
  | .tvxMalformed _ f => f.wf
  | .discoverSolicit _ f => f.wf
  | .discoverOpen _ f => f.wf
  | .discoverClose _ f => f.wf
  | .heartbeatRx _ f => f.wf
  | .advertiseTimer _ => true
  | .ackHeartbeat _ n => decide (n < 9)
  | .tvxRetransmit _ n => decide (n < 9)
  | .sessionHeartbeatMiss _ n => decide (n < 8)
  | .sessionCloseWrite n => decide (n < 8)
  | .heartbeatSend _ n => decide (n < 10)
  | .eventRecordSend _ n => decide (n < 8)
  | .bulkFrameSend _ n => decide (n < 8)
  | .exportBufferRoom _ sq c => decide (sq < 2) && decide (c < 8)
  | .sakInstall _ => true
  | .sakClear _ => true
  | .loadRun _ f => f.wf
  | .run _ f => f.wf
  | .abort _ f => f.wf
  | .abortAtSafePoint _ sq c => decide (sq < 2) && decide (c < 8)
  | .nop _ sq c e => decide (sq < 2) && decide (c < 8) && decide (e < 4)
  | .halt _ sq c e => decide (sq < 2) && decide (c < 8) && decide (e < 4)
  | .ld _ sq c e => decide (sq < 2) && decide (c < 8) && decide (e < 4)
  | .st _ sq c e => decide (sq < 2) && decide (c < 8) && decide (e < 4)
  | .stf _ sq c e => decide (sq < 2) && decide (c < 8) && decide (e < 4)
  | .alu _ sq c e => decide (sq < 2) && decide (c < 8) && decide (e < 4)
  | .movi _ sq c e => decide (sq < 2) && decide (c < 8) && decide (e < 4)
  | .movhi _ sq c e => decide (sq < 2) && decide (c < 8) && decide (e < 4)
  | .cmp _ sq c e => decide (sq < 2) && decide (c < 8) && decide (e < 4)
  | .bfx _ sq c e => decide (sq < 2) && decide (c < 8) && decide (e < 4)
  | .bfi _ sq c e => decide (sq < 2) && decide (c < 8) && decide (e < 4)
  | .br _ sq c e => decide (sq < 2) && decide (c < 8) && decide (e < 4)
  | .call _ sq c e => decide (sq < 2) && decide (c < 8) && decide (e < 4)
  | .ret _ sq c e => decide (sq < 2) && decide (c < 8) && decide (e < 4)
  | .jr _ sq c e => decide (sq < 2) && decide (c < 8) && decide (e < 4)
  | .seth _ sq c e => decide (sq < 2) && decide (c < 8) && decide (e < 4)
  | .evsel _ sq c e => decide (sq < 2) && decide (c < 8) && decide (e < 4)
  | .tbl _ sq c e => decide (sq < 2) && decide (c < 8) && decide (e < 4)
  | .cread _ sq c e => decide (sq < 2) && decide (c < 8) && decide (e < 4)
  | .wait _ sq c e => decide (sq < 2) && decide (c < 8) && decide (e < 4)
  | .waitComplete _ sq c => decide (sq < 2) && decide (c < 8)
  | .armAt _ sq c e => decide (sq < 2) && decide (c < 8) && decide (e < 4)
  | .hint _ sq c e => decide (sq < 2) && decide (c < 8) && decide (e < 4)
  | .emit _ sq c e => decide (sq < 2) && decide (c < 8) && decide (e < 4)
  | .xport _ sq c e => decide (sq < 2) && decide (c < 8) && decide (e < 4)
  | .poll _ sq c e => decide (sq < 2) && decide (c < 8) && decide (e < 4)
  | .safeptFault _ sq c => decide (sq < 2) && decide (c < 8)
  | .atDispatch _ => true
  | .sequencerFault _ sq => decide (sq < 2)
  | .watchdogExpiry _ sq => decide (sq < 2)
  | .takeoverComplete _ => true
  | .resyncComplete _ => true
  | .xoCheckPass _ => true
  | .xoCheckAlert _ => true
  | .imageChunk _ f => f.wf
  | .imageCancel _ f => f.wf
  | .imageChunkTimeout _ => true
  | .imageVerifyDone _ _ => true
  | .imageLoadDone _ _ _ => true
  | .bundleChunk _ f => f.wf
  | .bundleVerifyDone _ => true
  | .patchSectionApply _ => true
  | .patchTimeout _ => true
  | .fuseRevoke _ => true
  | .fuseAdvance _ => true
  | .fuseDeadbolt _ => true
  | .fuseCommandDone _ => true
  | .storeReadback _ => true
  | .frameReceive _ p _ _ => decide (p < 1024)
  | .frameTailArrive _ p _ _ => decide (p < 1024)
  | .frameBind _ => true
  | .ext _ _ => true
  | .extf _ _ => true
  | .adv _ _ => true
  | .sel _ _ => true
  | .chkLength _ _ => true
  | .chkCsum _ _ => true
  | .chkOption _ _ => true
  | .scan _ _ => true
  | .parseWaitBytes _ _ => true
  | .parseWaitScan _ _ => true
  | .parseSet _ _ => true
  | .parseHash _ _ => true
  | .endParse _ _ => true
  | .parseBudgetExceeded _ => true
  | .scanComplete _ => true
  | .hvRelease _ => true
  | .patternWrite sl i => decide (sl < 32) && decide (i < 4096)
  | .patternRead sl i => decide (sl < 32) && decide (i < 4096)
  | .patternInvalidate sl i => decide (sl < 32) && decide (i < 4096)
  | .matchStage _ _ _ _ => true
  | .sashSwapTrigger sl scope g => decide (sl < 32) && decide (scope < 2) && decide (g < 64)
  | .sashSwapTakesEffect sl => decide (sl < 32)
  | .sashSettleEnd sl => decide (sl < 32)
  | .tblInsert sl tab sash idx => decide (sl < 32) && decide (tab < 64) && decide (sash < 2) && decide (idx < 1048576)
  | .tblDelete sl tab sash idx => decide (sl < 32) && decide (tab < 64) && decide (sash < 2) && decide (idx < 1048576)
  | .tblUpdate sl tab sash idx => decide (sl < 32) && decide (tab < 64) && decide (sash < 2) && decide (idx < 1048576)
  | .tblLookup sl tab sash idx => decide (sl < 32) && decide (tab < 64) && decide (sash < 2) && decide (idx < 1048576)
  | .tblRead sl tab sash idx _ => decide (sl < 32) && decide (tab < 64) && decide (sash < 2) && decide (idx < 1048576)
  | .tblWrite sl tab sash idx => decide (sl < 32) && decide (tab < 64) && decide (sash < 2) && decide (idx < 1048576)
  | .tblAge sl tab sash idx => decide (sl < 32) && decide (tab < 64) && decide (sash < 2) && decide (idx < 1048576)
  | .tblWdata sl tab sash idx => decide (sl < 32) && decide (tab < 64) && decide (sash < 2) && decide (idx < 1048576)
  | .tblRdata sl tab sash idx _ => decide (sl < 32) && decide (tab < 64) && decide (sash < 2) && decide (idx < 1048576)
  | .learnApply sl => decide (sl < 32)
  | .learnRingMessage sl => decide (sl < 32)
  | .ageingPassStart _ sl a => decide (sl < 32) && decide (a < 4)
  | .ageingStep sl a => decide (sl < 32) && decide (a < 4)
  | .mcgWrite g _ => decide (g < 65536)
  | .mcgRead g => decide (g < 65536)
  | .badlogClear sl => decide (sl < 32)
  | .admission _ => true
  | .cellCharge _ => true
  | .crossbarMatch => true
  | .enqueue _ => true
  | .cellReturn _ _ => true
  | .pfcRepeat _ p g => decide (p < 1024) && decide (g < 8)
  | .pfcFrameRx _ p _ _ => decide (p < 1024)
  | .pfcTimerExpire _ p pri => decide (p < 1024) && decide (pri < 8)
  | .pauseFrameRx _ p => decide (p < 1024)
  | .queueAgeVisit _ p q => decide (p < 1024) && decide (q < 20)
  | .bufferAuditCheck _ => true
  | .auditWalkStart => true
  | .auditWalkDone _ => true
  | .bufHoldRelease p => decide (p < 1025)
  | .schedulerSelect p => decide (p < 1024)
  | .frameTxStart _ p => decide (p < 1024)
  | .frameTxEnd _ p _ _ => decide (p < 1024)
  | .spillFrame _ _ => true
  | .spillWriteDone _ _ _ => true
  | .returnFrame p q => decide (p < 1024) && decide (q < 20)
  | .returnReadDone _ _ _ _ _ => true
  | .refresh k _ => decide (k < 4)
  | .spillTrainStep _ k c _ _ => decide (k < 4) && decide (c < 32)
  | .srEnter _ k => decide (k < 4)
  | .srEntryDone _ k => decide (k < 4)
  | .srExitRequest _ k _ => decide (k < 4)
  | .srExitDone _ k => decide (k < 4)
  | .srLatClear k => decide (k < 4)
  | .spillAuditCheck _ k => decide (k < 4)
  | .spillWalkStart k => decide (k < 4)
  | .spillWalkDone _ k => decide (k < 4)
  | .pageReturn _ => true
  | .pageCacheRefill k => decide (k < 4)
  | .splQEnable p q => decide (p < 1024) && decide (q < 20)
  | .pseudoChannelRetire k c => decide (k < 4) && decide (c < 32)
  | .pcReadTimeout _ k c => decide (k < 4) && decide (c < 32)
  | .retirementDone _ k _ => decide (k < 4)
  | .shaperEligible _ sl m k => decide (sl < 32) && decide (m < 32) && decide (k < 33)
  | .coarseSlotBegin _ sl => decide (sl < 32)
  | .meterReset sl i => decide (sl < 32) && decide (i < 65536)
  | .pepRingEnable r => decide (r < 256)
  | .pepRingDisable r => decide (r < 256)
  | .peepholeRecordWrite sl => decide (sl < 32)
  | .shutterMaskChange _ p => decide (p < 1024)
  | .shutterCommit sl m => decide (sl < 32) && decide (m < 32)
  | .shutterCheckDone _ sl m => decide (sl < 32) && decide (m < 32)
  | .shutterEntryWrite sl m n _ => decide (sl < 32) && decide (m < 32) && decide (n < 257)
  | .preemptionVerify _ p _ => decide (p < 1024)
  | .portEnable p _ => decide (p < 1024)
  | .portDisable p => decide (p < 1024)
  | .anComplete _ p _ _ _ _ => decide (p < 1024)
  | .anRestart _ p => decide (p < 1024)
  | .trainComplete _ p _ _ _ => decide (p < 1024)
  | .trainTimeout _ p _ => decide (p < 1024)
  | .retrainDelay _ p => decide (p < 1024)
  | .asymMeasured _ p _ _ => decide (p < 1024)
  | .alignComplete _ p _ _ _ => decide (p < 1024)
  | .alignTimeout _ p => decide (p < 1024)
  | .linkLoss _ p _ => decide (p < 1024)
  | .portRetrain p => decide (p < 1024)
  | .loopSet p v => decide (p < 1024) && decide (v < 4)
  | .loopClear p => decide (p < 1024)
  | .dormantSet p => decide (p < 1024)
  | .dormantExit p => decide (p < 1024)
  | .adaptFreeze _ p => decide (p < 1024)
  | .adaptSnapshot _ n => decide (n < 1056)
  | .marginMeasure _ n m => decide (n < 1056) && decide (m < 256)
  | .symbolTrigger _ n _ _ => decide (n < 1056)
  | .txQuietEnter _ p => decide (p < 1024)
  | .txQuietExit _ p => decide (p < 1024)
  | .quietWakeBeforeOpening _ p => decide (p < 1024)
  | .lpiRefresh _ p => decide (p < 1024)
  | .rxQuietEnter _ p => decide (p < 1024)
  | .rxQuietExit _ p => decide (p < 1024)
  | .laneGroupPowerOnDone _ g => decide (g < 66)
  | .laneFault _ n k => decide (n < 1056) && decide (k < 5)
  | .laneFaultClear _ n k => decide (n < 1056) && decide (k < 5)
  | .laneSpareGo sl _ => decide (sl < 32)
  | .spareTrainDone _ sl _ => decide (sl < 32)
  | .spareSwitch _ sl => decide (sl < 32)
  | .injectorEnable p => decide (p < 1024)
  | .injectorDisable p => decide (p < 1024)
  | .injectDrop p => decide (p < 1024)
  | .injectCorrupt p => decide (p < 1024)
  | .injectReorder _ p => decide (p < 1024)
  | .reorderTimeout _ p => decide (p < 1024)
  | .injectDelay _ p => decide (p < 1024)
  | .delayRelease _ p => decide (p < 1024)
  | .injectSymbol p => decide (p < 1024)
  | .xoLost _ => true
  | .xoRestored _ => true
  | .refLost _ k => decide (k < 2)
  | .refGood _ k => decide (k < 2)
  | .pllRelock _ _ => true
  | .muxSwitch _ _ _ => true
  | .muxForcedSwitch _ _ _ => true
  | .dvfsStepStart _ => true
  | .cpllRampDone _ => true
  | .settlingReport _ => true
  | .settleTimeout _ => true
  | .freqMeasureStart => true
  | .freqMeasureDone _ _ => true
  | .freqMeasureTimeout _ _ => true
  | .activeRequest _ _ => true
  | .standbyRequest _ => true
  | .restRequest _ => true
  | .activeDrainEnd _ => true
  | .restEntryComplete _ => true
  | .warmupDone _ _ => true
  | .warmupTimeout _ _ => true
  | .jhiComparator _ _ => true
  | .jloComparator _ _ => true
  | .vuvComparator _ _ => true
  | .vuvRecover _ _ => true
  | .cpedEnergy _ => true
  | .timeAlarm _ => true
  | .vddCorePresent _ => true
  | .pmbusRound _ _ _ _ _ => true
  | .capLoopIteration _ _ _ _ _ _ _ _ _ => true
  | .hintStart _ => true
  | .hintEnd _ => true
  | .sensorRead _ _ _ => true
  | .throttleStep _ => true
  | .ageReplan _ _ => true
  | .ageGo _ _ => true
  | .fabEnable _ => true
  | .helloSend _ => true
  | .helloRx _ m => m.wf
  | .memberTimeout _ _ => true
  | .numberRelease _ _ => true
  | .rosterSend _ => true
  | .rosterRx _ m => m.wf
  | .cycleMsgRx _ m => m.wf
  | .epochIssue _ _ => true
  | .epochRx _ m => m.wf
  | .paceRx _ m => m.wf
  | .shedRx _ m => m.wf
  | .managerSilent _ => true
  | .takeoverRx _ m => m.wf
  | .originForget _ _ => true
  | .fabReclaim _ => true
  | .fabRejoin _ => true
  | .stackControlSend _ => true
  | .stackControlRx _ p _ _ _ => decide (p < 1024)
  | .stackMemberTimeout _ _ => true
  | .digestScan _ sl => decide (sl < 32)
  | .digestFlush sl => decide (sl < 32)
  | .digestDisable sl j => decide (sl < 32) && decide (j < 4)
  | .counterSelectionPoll _ sl => decide (sl < 32)
  | .eventStatusClear g _ => decide (g < 48)
  | .eventMaskWrite g _ => decide (g < 48)
  | .sliceRepairGo sl => decide (sl < 32)
  | .sliceDrainDone _ => true
  | .sliceRebuildDone _ _ _ _ _ => true
  | .sliceReturnDone _ => true
  | .sequencerRepairGo sq => decide (sq < 2)
  | .sequencerRepairAuto _ sq => decide (sq < 2)
  | .sequencerRepairDone _ sq _ => decide (sq < 2)
  | .laneRestoreGo sl => decide (sl < 32)
  | .laneRetestDone _ sl _ => decide (sl < 32)
  | .flowletFlush sl => decide (sl < 32)
  | .supplyRemoval _ r => decide (r < 9)
  | .testAccessInstruction k => decide (k < 5)
  | .rowOpenTimeExpiry k _ => decide (k < 4)
  | .paceInterval _ => true

end Sys2Proof
end

