-- ==== Sys2Proof/Tests/Slice0.lean ====
section
/-! SUPPORT. Tests: what reset leaves, ill-formed commands, worked examples of the spec, and for every statement a concrete state and operands that
meet the hypotheses of each of its clauses. The statements themselves are in Certificates/Slice0/Obligations.lean. -/



namespace Sys2Proof.Tests

set_option maxRecDepth 200000
set_option Elab.async false

open Sys2Proof.Machine Sys2Proof.Safety

/-- A device in state x with every supply and every domain on. -/
def dv (x : DevState) : Dev := { pwr := { dev := x, supplies := Supply.all, on := BitVec.allOnes 127 } }
/-- States in Standby and in Active, built from that device. -/
def sS (f : Dev → Dev) : State := { pending := [], dev := f (dv .standby) }
def sA (f : Dev → Dev) : State := { pending := [], dev := f (dv .active) }
/-- The device that an outcome leaves. -/
def devOf (o : Out) : Option Dev :=
  match o with
  | .next t => some t.dev
  | _ => none

theorem cellsNamed_of {d : Dev} (h : (d.buf.cells.all fun x => decide (x.2.pool < 4) && x.2.pg.all fun g => decide (g < 8192)) = true) :
    CellsNamed d := by
  intro x hx
  have h := List.all_eq_true.mp h x hx
  rw [Bool.and_eq_true] at h
  refine ⟨of_decide_eq_true h.1, fun g hg => ?_⟩
  have h2 := h.2
  rw [hg] at h2
  exact of_decide_eq_true h2

/-! The machine right after reset. -/

theorem test_reset_is_power_up_then_release : State.reset.dev = (({} : Dev).powerUp).poresetN := by decide +kernel

theorem test_reset_memory_is_canonical : Inv State.reset := by unfold Safety.Inv; decide +kernel

/-- The reset command at the front of the queue runs (PORESET_N, R12), and the rest of the queue stays. -/
theorem test_step_takes_the_front :
    (match step { State.reset with pending := [.qviolClear, .cycleRun] } with
      | .next t => decide (t.pending = [.cycleRun])
      | _ => false) = true := by decide +kernel

/-- One command that waits, for the statements about every step: its step answers a next state, and so does a run of one step. -/
def waiting : State := { State.reset with pending := [.qviolClear] }

theorem witness_ExecKeepsTheQueue : ∃ t, exec .qviolClear waiting = .next t := ⟨_, rfl⟩

theorem witness_StepKeepsTableMemoryCanonical : Inv waiting ∧ ∃ t, step waiting = .next t :=
  ⟨test_reset_memory_is_canonical, _, rfl⟩

theorem witness_StepsOnlyBlowFuses : ∃ t, step waiting = .next t := ⟨_, rfl⟩

theorem witness_RunsOnlyBlowFuses : ∃ t, core.run 1 waiting = .next t := ⟨_, rfl⟩

/-! Well-formedness: for each check one command that breaks it alone, refused. -/

def tvxOk : TvxRx := { port := 1, src := 0, dst := 2 ^ 48 - 1, sec := 2, an := 3, pn := 0, ver := 15, typ := 15, code := 255, sid := 255, seq := 0, ack := 0, len := 65535, win := 0, tag := 0, sci := 0, ackv := false, more := true, payload := [] }
def domOk : DomRx := { port := 1023, ver := 15, typ := 15, hops := 15, tomgr := true, domain := 65535, origin := 0, term := 65535, seq := 0, len := 65535, payload := [] }
def tvxBad : TvxRx := { tvxOk with sec := 3 }
def domBad : DomRx := { domOk with hops := 16 }

theorem test_wf_refuses_1 : ([
    .registerWrite 2 0 0 0, .registerWrite 0 8 0 0, .registerWrite 0 0 1099511627776 0, .bFieldTakesEffect 1099511627776, .powerUp 0 4,
    .poresetN 0 0 4, .resetN 0 0 4 false, .softwareRestart 2 0 0, .softwareRestart 0 8 0, .softwareRestart 0 0 4, .supplyLoss 0 9,
    .readTimNowSec 2 0 0, .readTimNowSec 0 8 0, .readTimNowSec 0 0 32, .readCycNowNum 2 0 0, .readCycNowNum 0 8 0, .readCycNowNum 0 0 32,
    .timAdjGo 2 0, .timAdjGo 0 281474976710656, .ptpMessageRx 0 1024 0 0 [], .ptpMessageRx 0 0 20 0 [], .ptpMessageTx 0 1024 0 0,
    .ptpMessageTx 0 0 20 0, .calibrationStep 0 32 0, .phaseTableEntryWrite 4097 0, .cpLinkUp 0 2 false, .cpLinkLoss 0 2, .cpModeAlternate 0 2,
    .cpConfigWrite 2 0 0 0, .cpConfigWrite 0 8 0 0, .cpConfigWrite 0 0 2 0, .cpFrameDiscard 2 false 0, .tvxMalformed 0 tvxBad,
    .discoverSolicit 0 tvxBad, .discoverOpen 0 tvxBad, .discoverClose 0 tvxBad, .heartbeatRx 0 tvxBad, .ackHeartbeat 0 9, .tvxRetransmit 0 9,
    .sessionHeartbeatMiss 0 8] : List Instr).all (fun i => ! i.wf) = true := by decide +kernel

theorem test_wf_refuses_2 : ([
    .sessionCloseWrite 8, .heartbeatSend 0 10, .eventRecordSend 0 8, .bulkFrameSend 0 8, .exportBufferRoom 0 2 0, .exportBufferRoom 0 0 8,
    .loadRun 0 tvxBad, .run 0 tvxBad, .abort 0 tvxBad, .abortAtSafePoint 0 2 0, .abortAtSafePoint 0 0 8, .nop 0 2 0 0, .nop 0 0 8 0, .nop 0 0 0 4,
    .halt 0 2 0 0, .halt 0 0 8 0, .halt 0 0 0 4, .ld 0 2 0 0, .ld 0 0 8 0, .ld 0 0 0 4, .st 0 2 0 0, .st 0 0 8 0, .st 0 0 0 4, .stf 0 2 0 0,
    .stf 0 0 8 0, .stf 0 0 0 4, .alu 0 2 0 0, .alu 0 0 8 0, .alu 0 0 0 4, .movi 0 2 0 0, .movi 0 0 8 0, .movi 0 0 0 4, .movhi 0 2 0 0,
    .movhi 0 0 8 0, .movhi 0 0 0 4, .cmp 0 2 0 0, .cmp 0 0 8 0, .cmp 0 0 0 4, .bfx 0 2 0 0, .bfx 0 0 8 0] : List Instr).all (fun i => ! i.wf) = true := by decide +kernel

theorem test_wf_refuses_3 : ([
    .bfx 0 0 0 4, .bfi 0 2 0 0, .bfi 0 0 8 0, .bfi 0 0 0 4, .br 0 2 0 0, .br 0 0 8 0, .br 0 0 0 4, .call 0 2 0 0, .call 0 0 8 0, .call 0 0 0 4,
    .ret 0 2 0 0, .ret 0 0 8 0, .ret 0 0 0 4, .jr 0 2 0 0, .jr 0 0 8 0, .jr 0 0 0 4, .seth 0 2 0 0, .seth 0 0 8 0, .seth 0 0 0 4, .evsel 0 2 0 0,
    .evsel 0 0 8 0, .evsel 0 0 0 4, .tbl 0 2 0 0, .tbl 0 0 8 0, .tbl 0 0 0 4, .cread 0 2 0 0, .cread 0 0 8 0, .cread 0 0 0 4, .wait 0 2 0 0,
    .wait 0 0 8 0, .wait 0 0 0 4, .waitComplete 0 2 0, .waitComplete 0 0 8, .armAt 0 2 0 0, .armAt 0 0 8 0, .armAt 0 0 0 4, .hint 0 2 0 0,
    .hint 0 0 8 0, .hint 0 0 0 4, .emit 0 2 0 0] : List Instr).all (fun i => ! i.wf) = true := by decide +kernel

theorem test_wf_refuses_4 : ([
    .emit 0 0 8 0, .emit 0 0 0 4, .xport 0 2 0 0, .xport 0 0 8 0, .xport 0 0 0 4, .poll 0 2 0 0, .poll 0 0 8 0, .poll 0 0 0 4, .safeptFault 0 2 0,
    .safeptFault 0 0 8, .sequencerFault 0 2, .watchdogExpiry 0 2, .imageChunk 0 tvxBad, .imageCancel 0 tvxBad, .bundleChunk 0 tvxBad,
    .frameReceive 0 1024 false [], .frameTailArrive 0 1024 0 [], .patternWrite 32 0, .patternWrite 0 4096, .patternRead 32 0, .patternRead 0 4096,
    .patternInvalidate 32 0, .patternInvalidate 0 4096, .sashSwapTrigger 32 0 0, .sashSwapTrigger 0 2 0, .sashSwapTrigger 0 0 64,
    .sashSwapTakesEffect 32, .sashSettleEnd 32, .tblInsert 32 0 0 0, .tblInsert 0 64 0 0, .tblInsert 0 0 2 0, .tblInsert 0 0 0 1048576,
    .tblDelete 32 0 0 0, .tblDelete 0 64 0 0, .tblDelete 0 0 2 0, .tblDelete 0 0 0 1048576, .tblUpdate 32 0 0 0, .tblUpdate 0 64 0 0,
    .tblUpdate 0 0 2 0, .tblUpdate 0 0 0 1048576] : List Instr).all (fun i => ! i.wf) = true := by decide +kernel

theorem test_wf_refuses_5 : ([
    .tblLookup 32 0 0 0, .tblLookup 0 64 0 0, .tblLookup 0 0 2 0, .tblLookup 0 0 0 1048576, .tblRead 32 0 0 0 [], .tblRead 0 64 0 0 [],
    .tblRead 0 0 2 0 [], .tblRead 0 0 0 1048576 [], .tblWrite 32 0 0 0, .tblWrite 0 64 0 0, .tblWrite 0 0 2 0, .tblWrite 0 0 0 1048576,
    .tblAge 32 0 0 0, .tblAge 0 64 0 0, .tblAge 0 0 2 0, .tblAge 0 0 0 1048576, .tblWdata 32 0 0 0, .tblWdata 0 64 0 0, .tblWdata 0 0 2 0,
    .tblWdata 0 0 0 1048576, .tblRdata 32 0 0 0 [], .tblRdata 0 64 0 0 [], .tblRdata 0 0 2 0 [], .tblRdata 0 0 0 1048576 [], .learnApply 32,
    .learnRingMessage 32, .ageingPassStart 0 32 0, .ageingPassStart 0 0 4, .ageingStep 32 0, .ageingStep 0 4, .mcgWrite 65536 false,
    .mcgRead 65536, .badlogClear 32, .pfcRepeat 0 1024 0, .pfcRepeat 0 0 8, .pfcFrameRx 0 1024 0 [], .pfcTimerExpire 0 1024 0,
    .pfcTimerExpire 0 0 8, .pauseFrameRx 0 1024, .queueAgeVisit 0 1024 0] : List Instr).all (fun i => ! i.wf) = true := by decide +kernel

theorem test_wf_refuses_6 : ([
    .queueAgeVisit 0 0 20, .bufHoldRelease 1025, .schedulerSelect 1024, .frameTxStart 0 1024, .frameTxEnd 0 1024 [] [], .returnFrame 1024 0,
    .returnFrame 0 20, .refresh 4 0, .spillTrainStep 0 4 0 0 false, .spillTrainStep 0 0 32 0 false, .srEnter 0 4, .srEntryDone 0 4,
    .srExitRequest 0 4 false, .srExitDone 0 4, .srLatClear 4, .spillAuditCheck 0 4, .spillWalkStart 4, .spillWalkDone 0 4, .pageCacheRefill 4,
    .splQEnable 1024 0, .splQEnable 0 20, .pseudoChannelRetire 4 0, .pseudoChannelRetire 0 32, .pcReadTimeout 0 4 0, .pcReadTimeout 0 0 32,
    .retirementDone 0 4 false, .shaperEligible 0 32 0 0, .shaperEligible 0 0 32 0, .shaperEligible 0 0 0 33, .coarseSlotBegin 0 32,
    .meterReset 32 0, .meterReset 0 65536, .pepRingEnable 256, .pepRingDisable 256, .peepholeRecordWrite 32, .shutterMaskChange 0 1024,
    .shutterCommit 32 0, .shutterCommit 0 32, .shutterCheckDone 0 32 0, .shutterCheckDone 0 0 32] : List Instr).all (fun i => ! i.wf) = true := by decide +kernel

theorem test_wf_refuses_7 : ([
    .shutterEntryWrite 32 0 0 0, .shutterEntryWrite 0 32 0 0, .shutterEntryWrite 0 0 257 0, .preemptionVerify 0 1024 false, .portEnable 1024 [],
    .portDisable 1024, .anComplete 0 1024 [] 0 false [], .anRestart 0 1024, .trainComplete 0 1024 [] [] 0, .trainTimeout 0 1024 [],
    .retrainDelay 0 1024, .asymMeasured 0 1024 0 0, .alignComplete 0 1024 false false [], .alignTimeout 0 1024, .linkLoss 0 1024 [],
    .portRetrain 1024, .loopSet 1024 0, .loopSet 0 4, .loopClear 1024, .dormantSet 1024, .dormantExit 1024, .adaptFreeze 0 1024,
    .adaptSnapshot 0 1056, .marginMeasure 0 1056 0, .marginMeasure 0 0 256, .symbolTrigger 0 1056 0 false, .txQuietEnter 0 1024,
    .txQuietExit 0 1024, .quietWakeBeforeOpening 0 1024, .lpiRefresh 0 1024, .rxQuietEnter 0 1024, .rxQuietExit 0 1024, .laneGroupPowerOnDone 0 66,
    .laneFault 0 1056 0, .laneFault 0 0 5, .laneFaultClear 0 1056 0, .laneFaultClear 0 0 5, .laneSpareGo 32 0, .spareTrainDone 0 32 false,
    .spareSwitch 0 32] : List Instr).all (fun i => ! i.wf) = true := by decide +kernel

theorem test_wf_refuses_8 : ([
    .injectorEnable 1024, .injectorDisable 1024, .injectDrop 1024, .injectCorrupt 1024, .injectReorder 0 1024, .reorderTimeout 0 1024,
    .injectDelay 0 1024, .delayRelease 0 1024, .injectSymbol 1024, .refLost 0 2, .refGood 0 2, .helloRx 0 domBad, .rosterRx 0 domBad,
    .cycleMsgRx 0 domBad, .epochRx 0 domBad, .paceRx 0 domBad, .shedRx 0 domBad, .takeoverRx 0 domBad, .stackControlRx 0 1024 0 0 0,
    .digestScan 0 32, .digestFlush 32, .digestDisable 32 0, .digestDisable 0 4, .counterSelectionPoll 0 32, .eventStatusClear 48 0,
    .eventMaskWrite 48 0, .sliceRepairGo 32, .sequencerRepairGo 2, .sequencerRepairAuto 0 2, .sequencerRepairDone 0 2 0, .laneRestoreGo 32,
    .laneRetestDone 0 32 false, .flowletFlush 32, .supplyRemoval 0 9, .testAccessInstruction 5, .rowOpenTimeExpiry 4 0] : List Instr).all (fun i => ! i.wf) = true := by decide +kernel

theorem test_wf_of_received_messages :
    tvxOk.wf = true ∧ domOk.wf = true ∧
    ([
      { tvxOk with port := 2 }, { tvxOk with src := 2 ^ 48 }, { tvxOk with dst := 2 ^ 48 }, { tvxOk with sec := 3 },
      { tvxOk with an := 4 }, { tvxOk with pn := 2 ^ 32 }, { tvxOk with ver := 16 }, { tvxOk with typ := 16 },
      { tvxOk with code := 256 }, { tvxOk with sid := 256 }, { tvxOk with seq := 2 ^ 32 }, { tvxOk with ack := 2 ^ 32 },
      { tvxOk with len := 65536 }, { tvxOk with win := 65536 }, { tvxOk with tag := 2 ^ 64 }] : List TvxRx).all (fun f => ! f.wf) = true ∧
    ([
      { domOk with port := 1024 }, { domOk with ver := 16 }, { domOk with typ := 16 }, { domOk with hops := 16 },
      { domOk with domain := 65536 }, { domOk with origin := 2 ^ 64 }, { domOk with term := 65536 }, { domOk with seq := 2 ^ 32 },
      { domOk with len := 65536 }] : List DomRx).all (fun m => ! m.wf) = true := by
  decide +kernel

/-! Worked examples of the spec. -/

/-- R2: slice 5 owns data lanes 165 to 196 and spare lane 197; slice 6 begins at lane 198. -/
theorem test_lane_numbers : laneOf 5 0 = 165 ∧ laneOf 5 31 = 196 ∧ laneOf 5 32 = 197 ∧ laneOf 6 0 = 198 := by decide +kernel

/-- The phase table example of chapter 02: phases of a cycle of 10,000 ns that begins at 0, and of the next one, stretched to 11,250 ns. -/
def cycAt (per base num : Nat) : Dev := { dv .active with cyc := { (dv .active).cyc with base := base * 2 ^ 32, num := num, per := per * 2 ^ 32 } }

theorem test_phase_instants :
    (cycAt 10000 0 7).phaseTime 7 0x40000000 = ns 2500 ∧ (cycAt 10000 0 7).phaseTime 7 0xC0000000 = ns 7500 ∧
      2 * (cycAt 11250 10000 8).phaseTime 8 0x40000000 = ns 25625 ∧ (cycAt 11250 10000 8).phaseTime 9 0 = ns 21250 := by decide +kernel

theorem test_stretch_of_one_eighth : perOf (10000 * 65536) 8192 = 11250 * 2 ^ 32 ∧ effStretch (10000 * 65536) 8192 = 8192 := by decide +kernel

/-- The routine of chapter 04: words 0, 1, 5 and 16 by their printed values. -/
def seqS (w : Word) (f : Ctx → Ctx) : State :=
  sS fun d =>
    ((Dev.fset { d with img := { d.img with boot := .standby },
                        csq := { d.csq with store := [(65536 + 20, w)], ctxs := lmod d.csq.ctxs 15 fun x => f { x with st := .ready, pc := 20 } } }
      F.CSQ_REGION.BASE [1, 7] 0).fset F.CSQ_REGION.LEN [1, 7] 60000)

theorem test_word_movi : (devOf (execMovi 0 1 7 0 (seqS 0x2414000010000028 id))).map (fun d => (d.ctx 1 7).g.getD 10 0) = some 0x10000028 := by
  decide +kernel

theorem test_word_movhi :
    (devOf (execMovhi 0 1 7 0 (seqS 0x2814000000000002 fun x => { x with g := List.replicate 32 0x10000028 }))).map (fun d => (d.ctx 1 7).g.getD 10 0) =
      some 0x0210000028 := by decide +kernel

theorem test_word_br_forward : (devOf (execBr 0 1 7 0 (seqS 0x424000000000000D id))).map (fun d => (d.ctx 1 7).pc) = some 33 := by decide +kernel

theorem test_word_br_backward_not_taken : (devOf (execBr 0 1 7 0 (seqS 0x41000000FFFFFFF6 id))).map (fun d => (d.ctx 1 7).pc) = some 21 := by decide +kernel

/-- Chapter 08: a READ of table 12, sash B, way 1, bucket 0x155, entry 2 is the command value 0x5324_0556. -/
theorem test_table_command_word :
    let d := (dv .active).rset .TBL_CMD [0] 0x53240556
    d.fget F.TBL_CMD.OP [0] = 5 ∧ d.fget F.TBL_CMD.TABLE [0] = 12 ∧ d.fget F.TBL_CMD.SASH [0] = 1 ∧
      d.fget F.TBL_CMD.INDEX [0] = 1 * 2 ^ 18 + 0x155 * 4 + 2 := by decide +kernel

/-- Chapter 11: at RATE 10,000 and BURST 16 a credit of 1,208 B charged 1,520 B at 121.6 ns becomes eligible in the fine slot at 372 ns. -/
def shapedAt : Dev :=
  let d : Dev := { dv .active with fab := 7969178, que := { (dv .active).que with shapers := [(shpKey 2 0 5, { credit := 1208 * 524288000, time := 7969178 })] } }
  ((d.fset F.SHP_CFG.EN [2, 0, 5] 1).fset F.SHP_CFG.RATE [2, 0, 5] 10000).fset F.SHP_CFG.BURST [2, 0, 5] 16

theorem test_shaper_enters_its_slot :
    ((shapedAt.shpCharge 2 0 5 1520).shaper 2 0 5).entry = some (ns 372) ∧ (shapedAt.shpCharge 2 0 5 1520).fget F.SHP_STAT.ELIG [2, 0, 5] = 0 := by
  decide +kernel

/-- Chapter 15: with CAP = 960 the loop takes OP3 and THROTTLE = 2, LIMIT shows spill, and event 321 is raised. -/
def capS : State := sA fun d => (d.fset F.CLK_DVFS.CUR [] 1).fset F.CLK_DVFS.TARGET [] 1 |>.fset F.PWR_CAP.CAP [] 960 |>.fset F.PWR_CTL.LOOP_EN [] 1

theorem test_cap_cut :
    ((devOf (execCapLoopIteration (us 10) 11240 5940 500 13000 200000000 [6000, 4300, 3340, 2600, 2000, 1500] (List.replicate 8 300000)
        (List.replicate 8 600000) capS)).map fun d =>
      (d.fget F.CLK_DVFS.TARGET [], d.fget F.SPL_CTL.THROTTLE [0], d.fget F.PWR_STATUS.LIMIT [], d.fget F.PWR_CAP.EFF [])) = some (3, 2, 2, 960) := by
  decide +kernel

/-- Chapter 17: the transit fill. The trace header lies at byte 60; the write lands at byte 84. -/
def ioamFrame : List Byte := List.replicate 60 0 ++ [0x00, 0x01, 0x20, 0x08, 0xB8, 0, 0, 0] ++ List.replicate 52 0
def ioamOut : List Byte :=
  match ioamRun ((0 : Hv).put (384 + 39) (384 + 30) 60) [] ioamFrame ioamFrame { profile := 0, mark := 3, off := 0 }
      { en := true, nsany := false, ns := 1, nodeId := 0xA11, nsData := 0, hopLim := 63, inPort := 0, ePort := 0,
        dqTime := sec 1750000123 + ns 500000250, residence := 1460, qdepth := 0, poolUse := 0 } with
  | .fill out => out
  | .skip => []

theorem test_ioam_fill :
    slice ioamOut 62 2 = [0x20, 0x04] ∧
      slice ioamOut 84 16 = [0x3F, 0x00, 0x0A, 0x11, 0x68, 0x4E, 0xE1, 0xFB, 0x1D, 0xCD, 0x65, 0xFA, 0, 0, 0x05, 0xB4] := by decide +kernel

/-- FIPS 180-4: the digest of "abc". -/
theorem test_sha384 :
    sha384 [0x61, 0x62, 0x63] =
      0xcb00753f45a35e8bb5a03d699ac65007272c32ab0eded1631a8b605a43ff5bed8086072ba1e7cc2358baeca134c825a7#384 := by decide +kernel

/-! For each statement a state and operands for each of its clauses, which meet all the hypotheses of the clause together. -/

namespace W1

def in4 : State := sA fun d => { d with fuses := { d.fuses with deadbolt := true } }
def in5 : State := sA id
def in6 : State := sA fun d => d.fset F.CYC_STATUS.STATE [] 2
def in7 : State := sA fun d => { d with inForce := [(RegName.addr .PWR_CTL [], 5)] }
def in8 : State := sA fun d => d.fset F.GLB_QVIOL.VALID [] 1
def in9 : State := sA id
def in10 : State := sA id
def in11 : State := sA id
def in12 : State := sA fun d => { d with csq := { d.csq with ctxs := lmod d.csq.ctxs 15 fun x => { x with st := .ready, priv := 2 } } }
def in13 : State := sA id
def in14 : State := sA id
def in15 : State := { pending := [], dev := { pwr := { dev := .rest, supplies := [.aon] } } }

theorem witness_DeadboltClosesReadback :
    in4.dev.up = true ∧ in4.dev.fuses.deadbolt = true ∧ (9223372036854775808#64).getLsbD 63 = true ∧ 7 < 8 := by
  and_intros <;> decide +kernel

theorem witness_RegisterWriteStores :
    in5.dev.up = true ∧ regDecode (RegName.EVT_MASK.addr [47]) = some (RegName.EVT_MASK, [47]) := by
  and_intros <;> decide +kernel

theorem witness_QuiesceWriteDropped :
    in6.dev.up = true ∧ 1 < 2 ∧ 7 < 8 ∧ regDecode (RegName.CYC_ANCHOR_SEC.addr []) = some (RegName.CYC_ANCHOR_SEC, []) ∧ in6.dev.cycState ≠ 0 ∧ in6.dev.img.boot ≠ BootState.load ∧ in6.dev.role ≠ 1 ∧ in6.dev.fbit F.GLB_QVIOL.VALID [] = false ∧ wbits 281474976710655 47 0 ≠ in6.dev.fget F.CYC_ANCHOR_SEC.SEC [] := by
  and_intros <;> decide +kernel

theorem witness_BoundaryAndViolationClear :
    (in7.dev.up = true ∧ regDecode (RegName.PWR_CTL.addr []) = some (RegName.PWR_CTL, []) ∧ RegName.PWR_CTL.addr [] < 274877906944) ∧
    (in8.dev.up = true) := by
  and_intros <;> decide +kernel

theorem witness_ResetPins :
    (3 < 4 ∧ 1000 ≤ 1000 ∧ in9.dev.pwr.supplies.contains Supply.aon = true) ∧
    (3 < 4 ∧ 1000 ≤ 1000 ∧ in10.dev.up = true ∧ in10.dev.pwr.fresh = false) ∧
    (99 < 100 ∧ in11.dev.pwr.fresh = false) := by
  and_intros <;> decide +kernel

theorem witness_SupplyAndRestartCommands :
    (3 < 4 ∧ in12.dev.up = true ∧ (in12.dev.ctx 1 7).running = true ∧ 2 ≤ (in12.dev.ctx 1 7).priv) ∧
    (in13.dev.pwr.dev ≠ DevState.rest) ∧
    (in14.dev.up = true ∧ in14.dev.pwr.supplies.contains Supply.aon = true) ∧
    (in15.dev.pwr.dev = DevState.rest ∧ in15.dev.pwr.supplies = [Supply.aon]) ∧
    (2 < 3) := by
  and_intros <;> decide +kernel

end W1

namespace W2

def st2 (v : Nat) (d : Dev) : Dev := d.fset F.CYC_STATUS.STATE [] v
def dp (v : Nat) (d : Dev) : Dev := d.fset F.TIM_STATUS.DPLL_STATE [] v
def sel (v : Nat) (d : Dev) : Dev := (d.fset F.TIM_STATUS.FSEL [] v).fset F.TIM_STATUS.PSEL [] v
def in1 : State := sA fun d => { d with fab := 123456789012345678 }
def in2 : State := sA fun d => st2 2 { d with fab := 123456789012345678, cyc := { d.cyc with per := 2 ^ 40 } }
def in3 : State := sA id
def in4 : State := sA (dp 2)
def in5 : State := sA fun d => sel 7 (d.fset F.TIM_CTL.SERVO_EN [] 0)
def in6 : State := sA fun d => Dev.fset { d with tim := { d.tim with wtrF := some 0 } } F.TIM_SRC.REVERT [] 1
def in7 : State := sA fun d => (d.fset F.TIM_STATUS.FSEL [] 0).fset F.TIM_SRC.FPRI [] 0x5555
def in8 : State := sA fun d => (dp 1 (sel 7 d))
def in9 : State := sA fun d => dp 2 { d with tim := { d.tim with offSince := some 0 } }
def in10 : State := sA fun d => dp 2 d
def in11 : State := sA fun d => d.fset F.TIM_CTL.SERVO_EN [] 0
def in12 : State := sA fun d => d.fset F.TIM_CTL.SERVO_EN [] 0
def in13 : State := sA fun d => (dp 2 d).fset F.TIM_CTL.SERVO_EN [] 1
def in14 : State := sA fun d => { d with tim := { d.tim with slew := some 0 } }
def in15 : State := sA fun d => (sel 0 d).fset F.TIM_SRC.PPRI [] 0x4444 |>.fset F.TIM_CTL.SERVO_EN [] 0
def in16 : State := sA fun d => (d.fset F.GLB_PROFILE.PROFILE [] 1).fset F.GLB_PROFILE.LOADED [] 1
def in17 : State := sA fun d => Dev.fset { d with fab := sec 5 } F.TIM_CTL.PPS_OUT_EN [] 1 |>.fset F.TIM_CTL.PPS_COMP [] 0
def ptp (p : Nat) (st : Nat) (d : Dev) : Dev := (d.fset F.TIM_PORT.EN [p] 1).fset F.TIM_PORT.STATE [p] st
def sync : List Byte := [0x00, 0x02] ++ beBytes 2 44 ++ [0, 0] ++ beBytes 2 0x0200 ++ beBytes 8 65536 ++ List.replicate 18 0 ++ beBytes 10 1000000007 ++ []
def in18 : State := sA (ptp 1023 9)
def in19 : State := sA (ptp 1023 6)
def loc (d : Dev) : Dev := d.fset F.CYC_CTL.SRC [] 0
def in20 : State := sA fun d => d.fset F.CYC_CTL.SRC [] 2
def in21 : State := sA fun d => Dev.fset { loc d with fab := 77777777 } F.CYC_ANCHOR_NSF.NS [] 999
def in22 : State := sA fun d => st2 4 d
def in23 : State := sA fun d => st2 2 { d with cyc := { d.cyc with per := 2 ^ 44 } }
def in24 : State := sA fun d => st2 2 { d with cyc := { d.cyc with per := 2 ^ 44, num := 2 ^ 48 - 1 } }
def in25 : State := sA fun d => (st2 2 { d with cyc := { d.cyc with per := 2 ^ 44, num := 2 ^ 48 - 1 } }).fset F.CYC_CTL.SRC [] 2
def in26 : State := sA fun d => (st2 2 { d with cyc := { d.cyc with per := 2 ^ 44, num := 2 ^ 48 - 1, intervals := [2 ^ 28], lastEdge := some 0 } }).fset F.CYC_CTL.SRC [] 2
def in27 : State := sA fun d => (st2 4 { d with cyc := { d.cyc with per := 2 ^ 44, num := 2 ^ 48 - 1, intervals := [2 ^ 28], lastEdge := some 0 } }).fset F.CYC_CTL.SRC [] 2
def in28 : State := sA fun d => d
def in29 : State := sA fun d => st2 2 { d with cyc := { d.cyc with checking := true } }
def badPt (d : Dev) : Dev := ((d.fset F.CYC_PT_CTL.LEN [] 4096).rset .CYC_PT_ENTRY [4095] (BitVec.ofNat 64 (7 * 2 ^ 60 + 2 ^ 31)))
def in30 : State := sA fun d => badPt { d with cyc := { d.cyc with checking := true } }
def in31 : State := sA id
def in32 : State := sA fun d => d.fset F.CYC_PT_CTL.COMMIT [] 1
def in33 : State := sA fun d => st2 2 { d with now := 2 ^ 20, fab := 2 ^ 20, cyc := { d.cyc with per := 2 ^ 40, activeLen := 1, active := [(0, BitVec.ofNat 64 (4 * 2 ^ 60 + 1535 * 2 ^ 32))], base := 2 ^ 36 } }

theorem witness_ClockReadsLatch :
    (in1.dev.up = true) ∧
    (in2.dev.up = true ∧ in2.dev.phaseValid = true) ∧
    (in3.dev.up = true ∧ in3.dev.phaseValid = false) := by
  and_intros <;> decide +kernel

theorem witness_DpllMoves :
    (in4.dev.up = true ∧ in4.dev.fget F.TIM_STATUS.DPLL_STATE [] ≠ 0) ∧
    (in5.dev.up = true ∧ in5.dev.fbit F.TIM_CTL.SERVO_EN [] = false ∧ in5.dev.fget F.TIM_STATUS.FSEL [] = 7 ∧ in5.dev.fget F.TIM_STATUS.PSEL [] = 7) ∧
    (in6.dev.up = true ∧ in6.dev.fbit F.TIM_SRC.REVERT [] = true ∧ in6.dev.tim.wtrF = some 0 ∧ in6.dev.tim.wtrP = none ∧ 0 + sec (60 * in6.dev.fget F.TIM_SRC.WTR []) ≤ max in6.dev.now (sec 900)) ∧
    (in7.dev.up = true ∧ 3 ≤ 5 ∧ in7.dev.fget F.TIM_STATUS.FSEL [] < 4 ∧ in7.dev.freqEntry (in7.dev.fget F.TIM_STATUS.FSEL []) = 5) ∧
    (in8.dev.up = true ∧ in8.dev.fget F.TIM_STATUS.DPLL_STATE [] = 1 ∧ in8.dev.fget F.TIM_STATUS.PSEL [] = 7 ∧ in8.dev.tim.dpllSince + sec 10 ≤ max in8.dev.now (sec 10)) ∧
    (in9.dev.up = true ∧ in9.dev.fget F.TIM_STATUS.DPLL_STATE [] = 2 ∧ in9.dev.tim.offSince = some 0 ∧ 0 + sec 1 ≤ max in9.dev.now (sec 1)) ∧
    (in10.dev.up = true ∧ in10.dev.fget F.TIM_STATUS.DPLL_STATE [] = 2 ∧ in10.dev.tim.dpllSince + sec 60 ≤ max in10.dev.now (sec 60)) := by
  and_intros <;> decide +kernel

theorem witness_TimeAdjustments :
    (in11.dev.up = true ∧ in11.dev.fbit F.TIM_CTL.SERVO_EN [] = false ∧ in11.dev.cycState ≠ 2) ∧
    (in12.dev.up = true ∧ in12.dev.fbit F.TIM_CTL.SERVO_EN [] = false) ∧
    (in13.dev.up = true ∧ in13.dev.fbit F.TIM_CTL.SERVO_EN [] = true ∧ (in13.dev.fget F.TIM_STATUS.DPLL_STATE [] = 1 ∨ in13.dev.fget F.TIM_STATUS.DPLL_STATE [] = 2)) ∧
    (in14.dev.up = true ∧ 0 ≤ in14.dev.now ∧ in14.dev.tim.slew = some 0) ∧
    (in15.dev.up = true ∧ in15.dev.fget F.TIM_STATUS.PSEL [] < 4 ∧ in15.dev.phaseEntry (in15.dev.fget F.TIM_STATUS.PSEL []) = 4 ∧ in15.dev.fbit F.TIM_CTL.SERVO_EN [] = false) ∧
    (in16.dev.up = true ∧ in16.dev.precision = true ∧ mget? in16.dev.tim.calAt 31 = none ∧ 100 < (-101).natAbs) ∧
    (in17.dev.up = true ∧ 0 ≤ in17.dev.now ∧ in17.dev.fbit F.TIM_CTL.PPS_OUT_EN [] = true ∧ in17.dev.fget F.TIM_CTL.PPS_COMP [] = 0 ∧ in17.dev.tim.ppsSec < in17.dev.fab / sec 1) := by
  and_intros <;> decide +kernel

theorem witness_PtpMessages :
    (in18.dev.up = true ∧ in18.dev.fbit F.TIM_PORT.EN [1023] = true ∧ 44 ≤ sync.length ∧ beNat (slice sync 4 1) = in18.dev.fget F.TIM_PTP_CLOCK.DOMAIN [] ∧ beNat (slice sync 0 1) % 16 = 0 ∧ in18.dev.ptpState 1023 = 9 ∧ bitN (beNat (slice sync 6 2)) 9 = true) ∧
    (in19.dev.up = true ∧ in19.dev.fbit F.TIM_PORT.EN [1023] = true ∧ in19.dev.ptpState 1023 = 6 ∧ mget? in19.dev.tim.ptpSent (16 * 1023) = none) := by
  and_intros <;> decide +kernel

theorem witness_CycleStartsAndStops :
    (in20.dev.up = true ∧ in20.dev.role ≠ 3 ∧ in20.dev.cycState = 0 ∧ in20.dev.cycSrc ≠ 0) ∧
    (in21.dev.up = true ∧ in21.dev.role ≠ 3 ∧ in21.dev.cycState = 0 ∧ in21.dev.cycSrc = 0) ∧
    (in22.dev.up = true ∧ 2 ≤ in22.dev.cycState) ∧
    (in23.dev.up = true ∧ in23.dev.cycState = 2 ∧ in23.dev.cyc.per ≠ 0) := by
  and_intros <;> decide +kernel

theorem witness_CycleBoundaries :
    (in24.dev.up = true ∧ in24.dev.cycState = 2 ∧ in24.dev.cycSrc ≠ 2 ∧ in24.dev.cyc.per ≠ 0 ∧ in24.dev.cyc.stopReq = false ∧ in24.dev.cyc.base + in24.dev.cyc.per ≤ (in24.dev.advanceTo (2 ^ 28)).fab * 65536) ∧
    (in25.dev.up = true ∧ in25.dev.cycSrc = 2 ∧ in25.dev.cycState = 2 ∧ in25.dev.cyc.lastEdge = none ∧ in25.dev.cyc.intervals = [] ∧ in25.dev.cyc.stopReq = false) ∧
    (in26.dev.up = true ∧ in26.dev.cycSrc = 2 ∧ in26.dev.cycState = 2 ∧ in26.dev.pEst ≠ 0 ∧ in26.dev.cyc.stopReq = false ∧ in26.dev.cyc.base / 65536 + in26.dev.pEst + in26.dev.cycTol * in26.dev.pEst / 256 ≤ (in26.dev.advanceTo (2 ^ 29)).fab) ∧
    (in27.dev.up = true ∧ in27.dev.cycState = 4 ∧ in27.dev.cyc.per ≠ 0 ∧ in27.dev.cyc.stopReq = false ∧ in27.dev.cyc.base + in27.dev.cyc.per ≤ (in27.dev.advanceTo (2 ^ 29)).fab * 65536) := by
  and_intros <;> decide +kernel

theorem witness_PhaseTable :
    (in28.dev.up = true ∧ in28.dev.fbit F.CYC_PT_CTL.COMMIT [] = false) ∧
    (in29.dev.up = true ∧ in29.dev.cyc.checking = true ∧ in29.dev.ptFault = none ∧ in29.dev.cycState ≠ 0) ∧
    (in30.dev.up = true ∧ in30.dev.cyc.checking = true ∧ in30.dev.ptFault = some (4095, 2)) ∧
    (in31.dev.up = true ∧ 4095 < 4096 ∧ in31.dev.fbit F.CYC_PT_CTL.COMMIT [] = false) ∧
    (in32.dev.up = true ∧ 4095 < 4096 ∧ in32.dev.fbit F.CYC_PT_CTL.COMMIT [] = true) ∧
    (in33.dev.up = true ∧ 0 ≤ in33.dev.now ∧ in33.dev.phaseValid = true ∧ in33.dev.cyc.tick ≠ in33.dev.now / 131072 ∧ in33.dev.cyc.carry = [] ∧ in33.dev.cyc.epochs = [] ∧ in33.dev.cyc.fired + 1 = in33.dev.cyc.activeLen ∧ wbits (in33.dev.ptActive in33.dev.cyc.fired) 62 60 = 4 ∧ wbits (in33.dev.ptActive in33.dev.cyc.fired) 42 32 < 1536 ∧ wbits (in33.dev.ptActive in33.dev.cyc.fired) 31 0 ≤ in33.dev.phase ∧ in33.dev.cycElapsed < 131072 * 65536) := by
  and_intros <;> decide +kernel

end W2

namespace W3

def en (k : Nat) (d : Dev) : Dev := d.fset F.CTL_CP.EN [k] 1
def lk (k : Nat) (d : Dev) : Dev := (en k d).fset F.CTL_CP.LINK [k] 1
def ses (n : Nat) (f : Session → Session) (d : Dev) : Dev :=
  Dev.fset { lk 0 d with ctl := { d.ctl with sessions := lmod d.ctl.sessions n f } } F.TVX_SESSION.OPEN [n] 1
def rx (typ code sid : Nat) (p : List Byte) : TvxRx :=
  { port := 0, src := 0x0A0000000001, dst := discoveryMac, sec := 0, sci := 0, an := 0, pn := 0, ver := 1, typ := typ, code := code, sid := sid, seq := 0,
    ackv := false, ack := 0, more := false, len := p.length, win := 8, tag := 77, payload := p }
def in1 : State := sS (en 1)
def in2 : State := sS (lk 1)
def in3 : State := sS (en 1)
def in4 : State := sS fun d => (d.fset F.CTL_CP.EN [0] 0).fset F.CTL_CP.EN [1] 0
def in5 : State := sS (lk 1)
def in6 : State := sS (lk 0)
def in6x0 : TvxRx := { rx 1 0 0 [] with ver := 2 }
def in7 : State := sS (lk 0)
def in8 : State := sS fun d => Dev.fset { lk 0 d with img := { d.img with boot := .standby } } F.TVX_CTL.ANON_PRIV [] 1
def in9 : State := sS (ses 7 id)
def in10 : State := sS fun d => { lk 0 (lk 1 d) with img := { d.img with boot := .advertising } }
def in11 : State := sS (ses 7 id)
def in12 : State := sS (ses 7 fun x => { x with ackDue := some 5 })
def in13 : State := sS (ses 7 fun x => { x with rto := us 6400, unacked := [{ port := 0, typ := 4, code := 0, sid := 7, dst := 0, payload := [] }] })
def in14 : State := sS (ses 7 id)
def in15 : State := sS (ses 7 id)
def in16 : State := sS (ses 7 id)
def er (i : Nat) : EvRec := { id := i, sev := 1, arg := 3, time := 5, raised := 0 }
def in17 : State := sS (ses 7 fun x => { x with evq := (List.range 33).map er, hostWin := 1 })
def in18 : State := sS (ses 7 fun x => { x with bulkq := [{ port := 0, typ := 6, code := 0, sid := 7, dst := 0, payload := [1, 2] }], hostWin := 1 })
def in19 : State := sS id
def in20 : State := sS id
def cmd (op entry load cnt : Nat) (ws : List Nat) : List Byte := [BitVec.ofNat 8 op, 0, 0, 0] ++ beBytes 4 entry ++ beBytes 4 load ++ beBytes 4 cnt ++ beBytes 8 11 ++ beBytes 8 12 ++ ws.flatMap (beBytes 8)
def reg (d : Dev) : Dev := ((d.fset F.CSQ_REGION.BASE [0, 7] 0x100).fset F.CSQ_REGION.LEN [0, 7] 16)
def in21 : State := sS fun d => reg (ses 7 id d)
def in22 : State := sS fun d => reg (ses 7 id d)
def in23 : State := sS fun d => { reg (ses 7 id d) with csq := { d.csq with ctxs := lmod d.csq.ctxs 7 fun x => { x with st := .ready } } }

theorem witness_ControlPorts :
    (in1.dev.up = true ∧ 1 < 2 ∧ in1.dev.fbit F.CTL_CP.EN [1] = true ∧ in1.dev.cpLink 1 = false ∧ in1.dev.ctl.stopped = [] ∧ in1.dev.fbit F.CTL_MSEC.TXEN [1] = false ∧ NothingWaits in1.dev) ∧
    (in2.dev.up = true ∧ 1 < 2 ∧ in2.dev.cpLink 1 = true ∧ in2.dev.cpLink (1 - 1) = false) ∧
    (in3.dev.up = true ∧ 1 < 2 ∧ in3.dev.fbit F.CTL_CP.EN [1] = true ∧ in3.dev.cpLink 1 = false ∧ in3.dev.fget F.CTL_CP.MODE [1] = 0 ∧ in3.dev.ctl.modeSince.getD 1 0 + ms 500 ≤ max in3.dev.now (ms 500)) ∧
    (in4.dev.up = true ∧ 1 < 2 ∧ in4.dev.fbit F.CTL_CP.EN [1] = false ∧ in4.dev.cpLink 1 = false ∧ (17293822569102704640#64).getLsbD 63 = true) ∧
    (in5.dev.up = true ∧ 1 < 2 ∧ in5.dev.cpLink 1 = true ∧ (false = true ∨ 9000 < 9001)) := by
  and_intros <;> first | decide +kernel | (unfold NothingWaits; decide +kernel)

theorem witness_Discovery :
    (in6.dev.up = true ∧ in6x0.port < 2 ∧ in6.dev.cpLink in6x0.port = true ∧ in6x0.dst = discoveryMac ∧ in6x0.sec = 0 ∧ in6.dev.fbit F.CTL_MSEC.REQUIRE [in6x0.port] = false ∧ in6x0.ver ≠ 1) ∧
    (PlainFrame in7.dev (rx 1 0 0 []) ∧ (rx 1 0 0 []).typ = 1 ∧ (rx 1 0 0 []).code = 0 ∧ SendsPlainly in7.dev (rx 1 0 0 []).port) ∧
    (PlainFrame in8.dev (rx 1 2 0 (List.replicate 16 0)) ∧ (rx 1 2 0 (List.replicate 16 0)).typ = 1 ∧ (rx 1 2 0 (List.replicate 16 0)).code = 2 ∧ 16 ≤ (rx 1 2 0 (List.replicate 16 0)).len ∧ SendsPlainly in8.dev (rx 1 2 0 (List.replicate 16 0)).port ∧ in8.dev.ctl.opens = [] ∧ in8.dev.openRefusal (rx 1 2 0 (List.replicate 16 0)) = 0) ∧
    (PlainFrame in9.dev (rx 1 4 7 []) ∧ (rx 1 4 7 []).typ = 1 ∧ (rx 1 4 7 []).code = 4 ∧ in9.dev.sessionOpen (rx 1 4 7 []).sid = true) ∧
    (in10.dev.up = true ∧ in10.dev.img.boot = BootState.advertising ∧ in10.dev.img.advAt = none ∧ 1 < 2 ∧ SendsPlainly in10.dev 0 ∧ SendsPlainly in10.dev 1) := by
  and_intros <;> decide +kernel

theorem witness_SessionUpkeep :
    (PlainFrame in11.dev (rx 7 0 7 []) ∧ (rx 7 0 7 []).typ = 7 ∧ (rx 7 0 7 []).sid < 8 ∧ in11.dev.sessionOpen (rx 7 0 7 []).sid = true ∧ (rx 7 0 7 []).ackv = false ∧ NothingWaits in11.dev) ∧
    (in12.dev.up = true ∧ 7 < 8 ∧ (in12.dev.session 7).ackDue = some 5 ∧ 5 ≤ max in12.dev.now 5 ∧ SendsPlainly in12.dev (in12.dev.sessPort 7)) ∧
    (in13.dev.up = true ∧ 7 < 8 ∧ (in13.dev.session 7).rto ≠ 0 ∧ (in13.dev.session 7).rtoStart + (in13.dev.session 7).rto ≤ max in13.dev.now (us 6400) ∧ (in13.dev.session 7).again ≠ [] ∧ (in13.dev.session 7).retries + 1 < in13.dev.fget F.TVX_CTL.RETRIES [] ∧ in13.dev.fbit F.CTL_MSEC.TXEN [0] = false ∧ in13.dev.fbit F.CTL_MSEC.TXEN [1] = false) ∧
    (in14.dev.up = true ∧ in14.dev.sessionOpen 7 = true ∧ (in14.dev.session 7).lastRx + in14.dev.hbInt * atLeast1 (in14.dev.fget F.TVX_CTL.HB_MISS []) ≤ max in14.dev.now (sec 100)) ∧
    (in15.dev.up = true ∧ in15.dev.sessionOpen 7 = true ∧ in15.dev.fbit F.CTL_MSEC.TXEN [in15.dev.sessPort 7] = false) ∧
    (in16.dev.up = true ∧ in16.dev.sessionOpen 7 = true ∧ (in16.dev.session 7).lastTx + in16.dev.hbInt ≤ max in16.dev.now (sec 100) ∧ SendsPlainly in16.dev (in16.dev.sessPort 7)) := by
  and_intros <;> first | decide +kernel | (unfold NothingWaits; decide +kernel)

theorem witness_SessionTraffic :
    (in17.dev.up = true ∧ 7 < 8 ∧ in17.dev.sessionOpen 7 = true ∧ (in17.dev.session 7).evq ≠ [] ∧ (in17.dev.session 7).unacked.length < (in17.dev.session 7).hostWin ∧ SendsPlainly in17.dev (in17.dev.sessPort 7) ∧ (∀ r ∈ List.take 32 (in17.dev.session 7).evq, max in17.dev.now (us 2) ≤ r.raised + us 2)) ∧
    (in18.dev.up = true ∧ 7 < 8 ∧ in18.dev.sessionOpen 7 = true ∧ (in18.dev.session 7).bulkq = [{ port := 0, typ := 6, code := 0, sid := 7, payload := [1, 2] : CpFrame }] ∧ (in18.dev.session 7).history = false ∧ (in18.dev.session 7).unacked.length < (in18.dev.session 7).hostWin ∧ SendsPlainly in18.dev (in18.dev.sessPort 7) ∧ in18.dev.ctl.bulkNext.getD (in18.dev.sessPort 7) 0 ≤ max in18.dev.now (us 2)) := by
  and_intros <;> decide +kernel

theorem witness_MacsecKeys :
    (in19.dev.up = true ∧ NothingWaits in19.dev ∧ (18014398509481983999#64).getLsbD 63 = true ∧ (18014398509481983999#64).getLsbD 57 = false) ∧
    (in20.dev.up = true ∧ NothingWaits in20.dev ∧ (18446744073709551615#64).getLsbD 63 = true ∧ (18446744073709551615#64).getLsbD 57 = true) := by
  and_intros <;> first | decide +kernel | (unfold NothingWaits; decide +kernel)

theorem witness_Commands :
    (PlainFrame in21.dev (rx 3 0 7 (cmd 1 15 16 0 [])) ∧ (rx 3 0 7 (cmd 1 15 16 0 [])).typ = 3 ∧ in21.dev.sessionOpen (rx 3 0 7 (cmd 1 15 16 0 [])).sid = true ∧ NothingWaits in21.dev ∧ (rx 3 0 7 (cmd 1 15 16 0 [])).seq = (in21.dev.session (rx 3 0 7 (cmd 1 15 16 0 [])).sid).rxNext ∧ (rx 3 0 7 (cmd 1 15 16 0 [])).ackv = false ∧ (rx 3 0 7 (cmd 1 15 16 0 [])).more = false ∧ (in21.dev.session (rx 3 0 7 (cmd 1 15 16 0 [])).sid).cmdBytes = [] ∧ cmd 1 15 16 0 [] = List.take (rx 3 0 7 (cmd 1 15 16 0 [])).len (rx 3 0 7 (cmd 1 15 16 0 [])).payload ∧ (cmd 1 15 16 0 []).length = 32 ∧ BitVec.toNat ((cmd 1 15 16 0 []).getD 0 0) = 1 ∧ beNat (slice (cmd 1 15 16 0 []) 12 4) = 0 ∧ (in21.dev.precision = true → in21.dev.seqInService (in21.dev.sessSeq (rx 3 0 7 (cmd 1 15 16 0 [])).sid) = true) ∧ (in21.dev.ctx (in21.dev.sessSeq (rx 3 0 7 (cmd 1 15 16 0 [])).sid) (rx 3 0 7 (cmd 1 15 16 0 [])).sid).running = false ∧ beNat (slice (cmd 1 15 16 0 []) 4 4) < in21.dev.regionLen (in21.dev.sessSeq (rx 3 0 7 (cmd 1 15 16 0 [])).sid) (rx 3 0 7 (cmd 1 15 16 0 [])).sid ∧ beNat (slice (cmd 1 15 16 0 []) 8 4) ≤ in21.dev.regionLen (in21.dev.sessSeq (rx 3 0 7 (cmd 1 15 16 0 [])).sid) (rx 3 0 7 (cmd 1 15 16 0 [])).sid) ∧
    (PlainFrame in22.dev (rx 3 0 7 (cmd 0 15 15 1 [99])) ∧ (rx 3 0 7 (cmd 0 15 15 1 [99])).typ = 3 ∧ in22.dev.sessionOpen (rx 3 0 7 (cmd 0 15 15 1 [99])).sid = true ∧ NothingWaits in22.dev ∧ (rx 3 0 7 (cmd 0 15 15 1 [99])).seq = (in22.dev.session (rx 3 0 7 (cmd 0 15 15 1 [99])).sid).rxNext ∧ (rx 3 0 7 (cmd 0 15 15 1 [99])).ackv = false ∧ (rx 3 0 7 (cmd 0 15 15 1 [99])).more = false ∧ (in22.dev.session (rx 3 0 7 (cmd 0 15 15 1 [99])).sid).cmdBytes = [] ∧ cmd 0 15 15 1 [99] = List.take (rx 3 0 7 (cmd 0 15 15 1 [99])).len (rx 3 0 7 (cmd 0 15 15 1 [99])).payload ∧ (cmd 0 15 15 1 [99]).length = 40 ∧ BitVec.toNat ((cmd 0 15 15 1 [99]).getD 0 0) = 0 ∧ beNat (slice (cmd 0 15 15 1 [99]) 12 4) = 1 ∧ (in22.dev.precision = true → in22.dev.seqInService (in22.dev.sessSeq (rx 3 0 7 (cmd 0 15 15 1 [99])).sid) = true) ∧ (in22.dev.ctx (in22.dev.sessSeq (rx 3 0 7 (cmd 0 15 15 1 [99])).sid) (rx 3 0 7 (cmd 0 15 15 1 [99])).sid).running = false ∧ beNat (slice (cmd 0 15 15 1 [99]) 4 4) < in22.dev.regionLen (in22.dev.sessSeq (rx 3 0 7 (cmd 0 15 15 1 [99])).sid) (rx 3 0 7 (cmd 0 15 15 1 [99])).sid ∧ beNat (slice (cmd 0 15 15 1 [99]) 8 4) < in22.dev.regionLen (in22.dev.sessSeq (rx 3 0 7 (cmd 0 15 15 1 [99])).sid) (rx 3 0 7 (cmd 0 15 15 1 [99])).sid) ∧
    (PlainFrame in23.dev (rx 3 0 7 (cmd 2 0 0 0 [])) ∧ (rx 3 0 7 (cmd 2 0 0 0 [])).typ = 3 ∧ in23.dev.sessionOpen (rx 3 0 7 (cmd 2 0 0 0 [])).sid = true ∧ NothingWaits in23.dev ∧ (rx 3 0 7 (cmd 2 0 0 0 [])).seq = (in23.dev.session (rx 3 0 7 (cmd 2 0 0 0 [])).sid).rxNext ∧ (rx 3 0 7 (cmd 2 0 0 0 [])).ackv = false ∧ (rx 3 0 7 (cmd 2 0 0 0 [])).more = false ∧ (in23.dev.session (rx 3 0 7 (cmd 2 0 0 0 [])).sid).cmdBytes = [] ∧ (in23.dev.session (rx 3 0 7 (cmd 2 0 0 0 [])).sid).cmdFrames = 0 ∧ cmd 2 0 0 0 [] = List.take (rx 3 0 7 (cmd 2 0 0 0 [])).len (rx 3 0 7 (cmd 2 0 0 0 [])).payload ∧ (cmd 2 0 0 0 []).length = 32 ∧ BitVec.toNat ((cmd 2 0 0 0 []).getD 0 0) = 2 ∧ beNat (slice (cmd 2 0 0 0 []) 12 4) = 0 ∧ (in23.dev.precision = true → in23.dev.seqInService (in23.dev.sessSeq (rx 3 0 7 (cmd 2 0 0 0 [])).sid) = true) ∧ (in23.dev.ctx (in23.dev.sessSeq (rx 3 0 7 (cmd 2 0 0 0 [])).sid) (rx 3 0 7 (cmd 2 0 0 0 [])).sid).st = CtxState.ready) := by
  and_intros <;> first | decide +kernel | (unfold NothingWaits; decide +kernel)

end W3

namespace W4

def iw (op p rd ra rb fn imm : Nat) : Word := BitVec.ofNat 64 (op * 2 ^ 58 + p * 2 ^ 54 + rd * 2 ^ 49 + ra * 2 ^ 44 + rb * 2 ^ 39 + fn * 2 ^ 32 + imm)
def sq4 (ws : List Word) (g : List Word) (f : Ctx → Ctx) (h : Dev → Dev) : State :=
  sS fun d => h ((Dev.fset { d with now := 5, img := { d.img with boot := .standby }, csq := { d.csq with store := (List.range ws.length).map (fun i => (65536 + 65535 - ws.length + 1 + i, ws.getD i 0)), ctxs := lmod d.csq.ctxs 15 fun x => f { x with st := .ready, pc := BitVec.ofNat 16 (65536 - ws.length), g := g ++ List.replicate (32 - g.length) 0 } } } F.CSQ_REGION.BASE [1, 7] 60000).fset F.CSQ_REGION.LEN [1, 7] 5536)
def s1 (w : Word) (g : List Word) : State := sq4 [w] g id id
def in1 : State := s1 (iw 8 0 31 1 2 0 0) [0, 5, 0xFFFFFFFFFFFFFFFF]
def in2 : State := s1 (iw 9 0 31 0 0 0 0x80000000) []
def in3 : State := s1 (iw 10 0 31 0 0 0 0x80000000) []
def in4 : State := s1 (iw 12 0 31 1 0 0 (63 * 64)) [0, 9]
def in5 : State := s1 (iw 13 0 31 1 0 0 (63 * 64 + 63)) [0, 9]
def in6 : State := s1 (iw 11 0 0 1 2 (7 * 8 + 7) 0) [0, 5, 0xFFFFFFFFFFFFFFFF]
def in7 : State := s1 (iw 9 0 31 0 0 64 0) []
def in8 : State := s1 (iw 1 0 0 0 0 0 0) []
def in9 : State := s1 (iw 16 0 0 0 0 0 0) []
def in10 : State := sq4 [iw 17 0 0 0 0 1 7] [] (fun x => { x with rstack := List.replicate 7 3 }) id
def in11 : State := sq4 [iw 18 0 0 0 0 0 0] [] (fun x => { x with rstack := [3], inh := some 0 }) id
def in12 : State := s1 (iw 19 0 0 1 0 0 0) [0, 0xFFFFFFFF]
def in13 : State := s1 (iw 20 0 0 0 0 1 9) []
def in14 : State := s1 (iw 21 0 0 1 0 0 0) [0, 0xFFFFFFFFFFFFFFFF]
def in15 : State := s1 (iw 31 0 1 0 0 0x70 0) []
def er (i : Nat) : EvRec := { id := i, sev := 3, arg := 0xFFFFFFFF, time := 5, raised := 0 }
def in16 : State := sq4 [iw 31 0 1 0 0 0x70 0] [] (fun x => { x with evq := [er 1535, er 2] }) id
def ses (n : Nat) (f : Session → Session) (d : Dev) : Dev :=
  Dev.fset { ((d.fset F.CTL_CP.EN [0] 1).fset F.CTL_CP.LINK [0] 1) with ctl := { d.ctl with sessions := lmod d.ctl.sessions n f } } F.TVX_SESSION.OPEN [n] 1
def in17 : State := sq4 [iw 2 0 0 0 0 0 0] [] (fun x => { x with sid := 7 }) (ses 7 fun x => { x with hostWin := 8 })
def evm : Word := BitVec.ofNat 64 (RegName.addr .EVT_MASK [47])
def s2 (w : Word) (g : List Word) (p : Nat) (h : Dev → Dev) : State := sq4 [w] g (fun x => { x with priv := p }) h
def in18 : State := s1 (iw 4 0 31 1 0 0 0) [0, evm]
def in19 : State := s1 (iw 4 0 31 1 0 0 0) [0, evm]
def in20 : State := s1 (iw 4 0 31 1 0 0 0) [0, 0xFFFFFFFFF8]
def in21 : State := s2 (iw 5 0 0 1 2 (8+16) 0) [0, evm, 0xFFFFFFFFFFFFFFFF] 1 id
def in22 : State := s2 (iw 6 0 0 1 2 (8+16) (31*64+31)) [0, evm, 0xFFFFFFFFFFFFFFFF] 1 id
def in23 : State := s2 (iw 5 0 0 1 2 (8+16) 0) [0, BitVec.ofNat 64 (RegName.addr .CYC_ANCHOR_SEC []), 0xFFFFFFFFFFFFFFFF] 1 (fun d => d.fset F.CYC_STATUS.STATE [] 2)
def in24 : State := s2 (iw 5 0 0 1 2 (8+16) 0) [0, evm, 0xFFFFFFFFFFFFFFFF] 0 id
def in25 : State := s2 (iw 0x19 0 29 1 0 0x70 0) [0, 0xFFFFFFFF] 1 id
def in26 : State := s2 (iw 0x1D 0 0 1 0 0 0) [0, 1535] 1 id
def in27 : State := s2 (iw 0x18 0 0 1 0 0 (4*2^28)) [0, 31] 1 fun d => d.fset F.TBL_CMD.BUSY [31] 1
def in28 : State := s2 (iw 0x18 0 0 1 0 0 (4*2^28)) [0, 31] 1 fun d => { d with pwr := { d.pwr with on := 0 } }
def cyc (d : Dev) : Dev := Dev.fset { d with cyc := { d.cyc with per := 2 ^ 40 } } F.CYC_STATUS.STATE [] 2
def in29 : State := s2 (iw 0x1B 0 0 1 2 0x4C 0xFFFFFFFF) [0, evm, 7] 2 cyc
def at1 (j : Nat) : AtSlot := { seq := 1, slot := j, ctx := 7, sid := 7, priv := 2, cyc := 0, phase := 0, addr := RegName.addr .EVT_MASK [47], val := 0x1FFFFFFFF, due := true }
def in30 : State := s2 (iw 0x1B 0 0 1 2 0x40 0) [0, evm, 7] 2 fun d => { d with csq := { d.csq with ats := (List.range 16).map at1 } }
def in31 : State := sS fun d => { d with csq := { d.csq with ats := [at1 15] } }
def in32 : State := s2 (iw 0x1C 0 0 1 2 0x40 0) [0, evm, 0x1000000] 2 cyc
def in33 : State := s2 (iw 0x1C 0 0 1 2 0x4F 0) [0, evm, 0xFFFFFF] 2 cyc
def xs (x : Ctx) : Ctx := { x with priv := 1, sid := 7 }
def in34 : State := sq4 [iw 0x1E 0 31 1 2 0x38 0] [0, 0, 1] xs fun d => { ses 7 id d with ctl := { (ses 7 id d).ctl with exportUsed := 262112 } }
def in35 : State := sq4 [iw 0x1E 0 31 1 2 0x39 0] [0, 256, 1] xs (ses 7 id)
def in36 : State := sq4 [iw 0x1E 0 31 1 2 0x38 0] [0, 0, 1] (fun x => { xs x with st := .inAccess, xport := some (0, 1, 3) }) (ses 7 id)
def in37 : State := s2 (iw 0x1A 0 31 1 2 0x72 0xFFFFFFFF) [0, 0, 1] 1 id
def in38 : State := sq4 [iw 0x1A 0 31 1 2 0x78 0] [0, 0, 1] (fun x => { x with evq := [er 3] }) id
def in39 : State := sq4 [iw 0x1A 0 31 1 2 0x76 0] [0, 0, 1] (fun x => { x with evq := [er 3], hen := true, handler := 77 }) id
def wt (a : Word) (dl : Option Nat) : WaitSt := { cond := 3, neg := false, a := a, b := 0, d := 0, pred := 7, deadline := dl }
def in40 : State := sq4 [iw 0x1A 0 31 1 2 0x76 0] [0, 0, 1] (fun x => { x with st := .waiting, wait := some (wt 1 (some 9)) }) id
def in41 : State := sq4 [iw 0x1A 0 31 1 2 0x76 0] [0, 0, 1] (fun x => { x with st := .waiting, ending := true, wait := some (wt 0 none) }) id
def in42 : State := s1 (iw 9 8 31 0 0 0 1) []
def in43 : State := sq4 [] [] (fun x => { x with pc := 59999 }) id
def in44 : State := sq4 [1] [] (fun x => { x with since := 256 }) id
def in45 : State := s1 0 []
def in46 : State := s1 (iw 6 0 0 1 2 (8+16) (31*64+31)) [0, 0x10000000000, 0xFFFFFFFFFFFFFFFF]
def in47 : State := sq4 [iw 17 0 0 0 0 1 7] [] (fun x => { x with rstack := List.replicate 8 3 }) id
def in48 : State := s1 (iw 18 0 0 0 0 0 0) []
def im (d : Dev) : Dev := { d with img := { d.img with boot := .standby } }
def in49 : State := sS fun d => im ((d.fset F.GLB_PROFILE.LOADED [] 1).fset F.GLB_PROFILE.PROFILE [] 1)
def in50 : State := sS im
def in51 : State := sS fun d => (im d).fset F.CSQ_STATUS.STATE [] 2
def in52 : State := sS fun d => { im d with now := sec 1, csq := { d.csq with ctxs := lmod d.csq.ctxs 7 fun x => { x with st := .ready } } }
def in53 : State := sS fun d => (im d).fset F.CSQ_STATUS.STATE [] 1
def in54 : State := sS fun d => (im d).fset F.CSQ_STATUS.STATE [] 3

theorem witness_SequencerArithmetic :
    (Issues in1.dev 1 7 8 (iw 8 0 31 1 2 0 0)) ∧
    (Issues in2.dev 1 7 9 (iw 9 0 31 0 0 0 2147483648)) ∧
    (Issues in3.dev 1 7 10 (iw 10 0 31 0 0 0 2147483648)) ∧
    (Issues in4.dev 1 7 12 (iw 12 0 31 1 0 0 (63 * 64))) ∧
    (Issues in5.dev 1 7 13 (iw 13 0 31 1 0 0 (63 * 64 + 63))) := by
  and_intros <;> decide +kernel

theorem witness_CompareAndFieldForms :
    (Issues in6.dev 1 7 11 (iw 11 0 0 1 2 (7 * 8 + 7) 0)) ∧
    (Fetches in7.dev 1 7 (iw 9 0 31 0 0 64 0) ∧ (iOp (iw 9 0 31 0 0 64 0), Instr.movi) ∈ [(9, Instr.movi), (10, Instr.movhi), (12, Instr.bfx), (13, Instr.bfi)] ∧ ((iw 9 0 31 0 0 64 0 >>> 32).toNat % 128 ≠ 0 ∨ (iOp (iw 9 0 31 0 0 64 0) = 12 ∨ iOp (iw 9 0 31 0 0 64 0) = 13) ∧ (iw 9 0 31 0 0 64 0 >>> 6).toNat % 64 < BitVec.toNat (iw 9 0 31 0 0 64 0) % 64)) := by
  and_intros <;> first | decide +kernel | exact List.Mem.head _

theorem witness_SequencerFlow :
    (Issues in8.dev 1 7 1 (iw 1 0 0 0 0 0 0)) ∧
    (IssuesOp in9.dev 1 7 16 (iw 16 0 0 0 0 0 0)) ∧
    (Issues in10.dev 1 7 17 (iw 17 0 0 0 0 1 7) ∧ (in10.dev.ctx 1 7).rstack.length < 8) ∧
    (Issues in11.dev 1 7 18 (iw 18 0 0 0 0 0 0) ∧ (in11.dev.ctx 1 7).rstack = [3]) ∧
    (Issues in12.dev 1 7 19 (iw 19 0 0 1 0 0 0)) ∧
    (Issues in13.dev 1 7 20 (iw 20 0 0 0 0 1 9)) ∧
    (Issues in14.dev 1 7 21 (iw 21 0 0 1 0 0 0)) ∧
    (Issues in15.dev 1 7 31 (iw 31 0 1 0 0 112 0) ∧ (in15.dev.ctx 1 7).evq = []) ∧
    (Issues in16.dev 1 7 31 (iw 31 0 1 0 0 112 0) ∧ (in16.dev.ctx 1 7).evq = [er 1535, er 2]) ∧
    (Issues in17.dev 1 7 2 (iw 2 0 0 0 0 0 0) ∧ (in17.dev.ctx 1 7).aborts = [] ∧ (in17.dev.ctx 1 7).ending = false ∧ (in17.dev.ctx 1 7).sid < 8 ∧ (in17.dev.session (in17.dev.ctx 1 7).sid).outq = [] ∧ (in17.dev.session (in17.dev.ctx 1 7).sid).unacked.length < (in17.dev.session (in17.dev.ctx 1 7).sid).hostWin ∧ SendsPlainly in17.dev (in17.dev.sessPort (in17.dev.ctx 1 7).sid)) := by
  and_intros <;> decide +kernel

theorem witness_SequencerAccesses :
    (Issues in18.dev 1 7 4 (iw 4 0 31 1 0 0 0) ∧ BitVec.toNat ((in18.dev.ctx 1 7).g.getD (iRa (iw 4 0 31 1 0 0 0)) 0 + BitVec.signExtend 64 (BitVec.setWidth 32 (iw 4 0 31 1 0 0 0))) < 2 ^ 40 ∧ regDecode (BitVec.toNat ((in18.dev.ctx 1 7).g.getD (iRa (iw 4 0 31 1 0 0 0)) 0 + BitVec.signExtend 64 (BitVec.setWidth 32 (iw 4 0 31 1 0 0 0)))) = some (RegName.EVT_MASK, [47])) ∧
    (Issues in19.dev 1 7 4 (iw 4 0 31 1 0 0 0) ∧ BitVec.toNat ((in19.dev.ctx 1 7).g.getD (iRa (iw 4 0 31 1 0 0 0)) 0 + BitVec.signExtend 64 (BitVec.setWidth 32 (iw 4 0 31 1 0 0 0))) < 2 ^ 40 ∧ regDecode (BitVec.toNat ((in19.dev.ctx 1 7).g.getD (iRa (iw 4 0 31 1 0 0 0)) 0 + BitVec.signExtend 64 (BitVec.setWidth 32 (iw 4 0 31 1 0 0 0)))) = some (RegName.EVT_MASK, [47]) ∧ RegName.EVT_MASK ≠ RegName.TIM_NOW_SEC ∧ RegName.EVT_MASK ≠ RegName.CYC_NOW_NUM ∧ in19.dev.blockOff (BitVec.toNat ((in19.dev.ctx 1 7).g.getD (iRa (iw 4 0 31 1 0 0 0)) 0 + BitVec.signExtend 64 (BitVec.setWidth 32 (iw 4 0 31 1 0 0 0))) / 8 * 8) = false ∧ in19.dev.fabHidden RegName.EVT_MASK = false) ∧
    (Issues in20.dev 1 7 4 (iw 4 0 31 1 0 0 0) ∧ BitVec.toNat ((in20.dev.ctx 1 7).g.getD (iRa (iw 4 0 31 1 0 0 0)) 0 + BitVec.signExtend 64 (BitVec.setWidth 32 (iw 4 0 31 1 0 0 0))) < 2 ^ 40 ∧ regDecode (BitVec.toNat ((in20.dev.ctx 1 7).g.getD (iRa (iw 4 0 31 1 0 0 0)) 0 + BitVec.signExtend 64 (BitVec.setWidth 32 (iw 4 0 31 1 0 0 0)))) = none) ∧
    (Issues in21.dev 1 7 5 (iw 5 0 0 1 2 (8 + 16) 0) ∧ BitVec.toNat ((in21.dev.ctx 1 7).g.getD (iRa (iw 5 0 0 1 2 (8 + 16) 0)) 0 + BitVec.signExtend 64 (BitVec.setWidth 32 (iw 5 0 0 1 2 (8 + 16) 0))) < 2 ^ 40 ∧ 1 ≤ (in21.dev.ctx 1 7).priv ∧ regDecode (BitVec.toNat ((in21.dev.ctx 1 7).g.getD (iRa (iw 5 0 0 1 2 (8 + 16) 0)) 0 + BitVec.signExtend 64 (BitVec.setWidth 32 (iw 5 0 0 1 2 (8 + 16) 0)))) = some (RegName.EVT_MASK, [47])) ∧
    (Issues in22.dev 1 7 6 (iw 6 0 0 1 2 (8 + 16) (31 * 64 + 31)) ∧ BitVec.toNat ((in22.dev.ctx 1 7).g.getD (iRa (iw 6 0 0 1 2 (8 + 16) (31 * 64 + 31))) 0) < 2 ^ 40 ∧ 1 ≤ (in22.dev.ctx 1 7).priv ∧ regDecode (BitVec.toNat ((in22.dev.ctx 1 7).g.getD (iRa (iw 6 0 0 1 2 (8 + 16) (31 * 64 + 31))) 0)) = some (RegName.EVT_MASK, [47])) ∧
    (Issues in23.dev 1 7 5 (iw 5 0 0 1 2 (8 + 16) 0) ∧ BitVec.toNat ((in23.dev.ctx 1 7).g.getD (iRa (iw 5 0 0 1 2 (8 + 16) 0)) 0 + BitVec.signExtend 64 (BitVec.setWidth 32 (iw 5 0 0 1 2 (8 + 16) 0))) < 2 ^ 40 ∧ 1 ≤ (in23.dev.ctx 1 7).priv ∧ regDecode (BitVec.toNat ((in23.dev.ctx 1 7).g.getD (iRa (iw 5 0 0 1 2 (8 + 16) 0)) 0 + BitVec.signExtend 64 (BitVec.setWidth 32 (iw 5 0 0 1 2 (8 + 16) 0)))) = some (RegName.CYC_ANCHOR_SEC, []) ∧ in23.dev.cycState ≠ 0 ∧ in23.dev.img.boot ≠ BootState.load ∧ in23.dev.role ≠ 1 ∧ wbits ((in23.dev.ctx 1 7).g.getD (iRb (iw 5 0 0 1 2 (8 + 16) 0)) 0) 47 0 ≠ in23.dev.fget F.CYC_ANCHOR_SEC.SEC [] ∧ BitVec.getLsbD (iw 5 0 0 1 2 (8 + 16) 0) 35 = true) ∧
    (Issues in24.dev 1 7 5 (iw 5 0 0 1 2 (8 + 16) 0) ∧ (in24.dev.ctx 1 7).priv = 0 ∧ BitVec.toNat ((in24.dev.ctx 1 7).g.getD (iRa (iw 5 0 0 1 2 (8 + 16) 0)) 0 + BitVec.signExtend 64 (BitVec.setWidth 32 (iw 5 0 0 1 2 (8 + 16) 0))) < 2 ^ 40 ∧ regDecode (BitVec.toNat ((in24.dev.ctx 1 7).g.getD (iRa (iw 5 0 0 1 2 (8 + 16) 0)) 0 + BitVec.signExtend 64 (BitVec.setWidth 32 (iw 5 0 0 1 2 (8 + 16) 0)))) ≠ some (RegName.TVX_EVT_SUB, [(in24.dev.ctx 1 7).sid])) ∧
    (Issues in25.dev 1 7 25 (iw 25 0 29 1 0 112 0) ∧ 1 ≤ (in25.dev.ctx 1 7).priv) ∧
    (Issues in26.dev 1 7 29 (iw 29 0 0 1 0 0 0) ∧ ((if BitVec.getLsbD (iw 29 0 0 1 0 0 0) 32 = true then BitVec.toNat (iw 29 0 0 1 0 0 0) % 2 ^ 11 else BitVec.toNat ((in26.dev.ctx 1 7).g.getD (iRa (iw 29 0 0 1 0 0 0)) 0) % 2 ^ 11) < 1536) ∧ 1 ≤ (in26.dev.ctx 1 7).priv) ∧
    (Issues in27.dev 1 7 24 (iw 24 0 0 1 0 0 (4 * 2 ^ 28)) ∧ BitVec.toNat ((in27.dev.ctx 1 7).g.getD (iRa (iw 24 0 0 1 0 0 (4 * 2 ^ 28))) 0) < 32 ∧ 1 ≤ (in27.dev.ctx 1 7).priv ∧ in27.dev.tblTaken (BitVec.toNat ((in27.dev.ctx 1 7).g.getD (iRa (iw 24 0 0 1 0 0 (4 * 2 ^ 28))) 0)) = true) ∧
    (Issues in28.dev 1 7 24 (iw 24 0 0 1 0 0 (4 * 2 ^ 28)) ∧ BitVec.toNat ((in28.dev.ctx 1 7).g.getD (iRa (iw 24 0 0 1 0 0 (4 * 2 ^ 28))) 0) < 32 ∧ 1 ≤ (in28.dev.ctx 1 7).priv ∧ in28.dev.tblTaken (BitVec.toNat ((in28.dev.ctx 1 7).g.getD (iRa (iw 24 0 0 1 0 0 (4 * 2 ^ 28))) 0)) = false ∧ in28.dev.sliceOn (BitVec.toNat ((in28.dev.ctx 1 7).g.getD (iRa (iw 24 0 0 1 0 0 (4 * 2 ^ 28))) 0)) = false ∧ BitVec.toNat (iw 24 0 0 1 0 0 (4 * 2 ^ 28)) / 2 ^ 28 % 16 = 4) := by
  and_intros <;> decide +kernel

theorem witness_SequencerArmsHintsExports :
    (Issues in29.dev 1 7 27 (iw 27 0 0 1 2 76 4294967295) ∧ in29.dev.freeAt 1 = some 0 ∧ in29.dev.phaseValid = true ∧ BitVec.toNat ((in29.dev.ctx 1 7).g.getD (iRa (iw 27 0 0 1 2 76 4294967295)) 0) < 2 ^ 40 ∧ 2 ≤ (in29.dev.ctx 1 7).priv) ∧
    (Issues in30.dev 1 7 27 (iw 27 0 0 1 2 64 0) ∧ in30.dev.freeAt 1 = none ∧ 2 ≤ (in30.dev.ctx 1 7).priv ∧ BitVec.toNat ((in30.dev.ctx 1 7).g.getD (iRa (iw 27 0 0 1 2 64 0)) 0) < 2 ^ 40) ∧
    (in31.dev.up = true ∧ in31.dev.phaseValid = false ∧ in31.dev.csq.ats = [at1 15] ∧ (at1 15).due = true ∧ (at1 15).seq < 2 ∧ (at1 15).slot < 16 ∧ regDecode (at1 15).addr = some (RegName.EVT_MASK, [47])) ∧
    (Issues in32.dev 1 7 28 (iw 28 0 0 1 2 64 0) ∧ BitVec.toNat ((in32.dev.ctx 1 7).g.getD (iRb (iw 28 0 0 1 2 64 0)) 0) % 2 ^ 24 = 0) ∧
    (Issues in33.dev 1 7 28 (iw 28 0 0 1 2 79 0) ∧ BitVec.getLsbD (iw 28 0 0 1 2 79 0) 38 = true ∧ in33.dev.pwr.hints.length < 16 ∧ BitVec.toNat ((in33.dev.ctx 1 7).g.getD (iRb (iw 28 0 0 1 2 79 0)) 0) % 2 ^ 24 ≠ 0) ∧
    (Issues in34.dev 1 7 30 (iw 30 0 31 1 2 56 0) ∧ (iw 30 0 31 1 2 56 0 >>> 32).toNat % 2 = 0 ∧ (iw 30 0 31 1 2 56 0 >>> 34).toNat % 16 ≠ 15 ∧ (in34.dev.ctx 1 7).g.getD (iRb (iw 30 0 31 1 2 56 0)) 0 = 1 ∧ ctExists (BitVec.toNat ((in34.dev.ctx 1 7).g.getD (iRa (iw 30 0 31 1 2 56 0)) 0) % 2 ^ 32) = true ∧ 1 ≤ (in34.dev.ctx 1 7).priv ∧ (in34.dev.ctx 1 7).ending = false ∧ in34.dev.sessionOpen (in34.dev.ctx 1 7).sid = true ∧ (in34.dev.ctx 1 7).sid < in34.dev.ctl.sessions.length ∧ in34.dev.ctl.exportUsed + 32 ≤ 262144) ∧
    (Issues in35.dev 1 7 30 (iw 30 0 31 1 2 57 0) ∧ (iw 30 0 31 1 2 57 0 >>> 32).toNat % 2 = 1 ∧ 256 ≤ BitVec.toNat ((in35.dev.ctx 1 7).g.getD (iRa (iw 30 0 31 1 2 57 0)) 0) ∧ (in35.dev.ctx 1 7).xport = none ∧ in35.dev.que.draining = []) ∧
    (in36.dev.up = true ∧ in36.dev.imageLoaded = true ∧ 1 < 2 ∧ 7 < 8 ∧ in36.dev.seqInService 1 = true ∧ (in36.dev.ctx 1 7).st = CtxState.inAccess ∧ (in36.dev.ctx 1 7).xport = some (0, 1, 3) ∧ (in36.dev.seqWord 1 7 >>> 32).toNat % 2 = 0 ∧ (in36.dev.seqWord 1 7 >>> 34).toNat % 16 ≠ 15 ∧ ctExists 0 = true ∧ 1 ≤ (in36.dev.ctx 1 7).priv ∧ (in36.dev.ctx 1 7).ending = false ∧ in36.dev.sessionOpen (in36.dev.ctx 1 7).sid = true ∧ in36.dev.ctl.exportUsed + 32 ≤ 262144) := by
  and_intros <;> decide +kernel

theorem witness_SequencerWaits :
    (Issues in37.dev 1 7 26 (iw 26 0 31 1 2 114 4294967295) ∧ (iw 26 0 31 1 2 114 4294967295 >>> 33).toNat % 8 = 1 ∧ (in37.dev.ctx 1 7).callsHandler = false ∧ (in37.dev.ctx 1 7).inh = none ∧ (in37.dev.ctx 1 7).resumeDeadline = none) ∧
    (Issues in38.dev 1 7 26 (iw 26 0 31 1 2 120 0) ∧ (iw 26 0 31 1 2 120 0 >>> 33).toNat % 8 = 4 ∧ (in38.dev.ctx 1 7).evq ≠ []) ∧
    (Issues in39.dev 1 7 26 (iw 26 0 31 1 2 118 0) ∧ (iw 26 0 31 1 2 118 0 >>> 33).toNat % 8 ∈ [1, 2, 3] ∧ (in39.dev.ctx 1 7).callsHandler = true) ∧
    (in40.dev.up = true ∧ in40.dev.imageLoaded = true ∧ 1 < 2 ∧ 7 < 8 ∧ in40.dev.seqInService 1 = true ∧ (in40.dev.ctx 1 7).st = CtxState.waiting ∧ (in40.dev.ctx 1 7).wait = some (wt 1 (some 9)) ∧ (wt 1 (some 9)).cond = 3 ∧ (65536 * 10 ^ 9 * (BitVec.toNat (wt 1 (some 9)).a % 2 ^ 48) + BitVec.toNat (wt 1 (some 9)).b ≤ (in40.dev.advanceTo 9).fab ∨ ∃ dl, (wt 1 (some 9)).deadline = some dl ∧ dl ≤ (in40.dev.advanceTo 9).now) ∧ wbits (wt 1 (some 9)).b 63 48 = 0) ∧
    (in41.dev.up = true ∧ in41.dev.imageLoaded = true ∧ 1 < 2 ∧ 7 < 8 ∧ in41.dev.seqInService 1 = true ∧ (in41.dev.ctx 1 7).running = true ∧ (in41.dev.ctx 1 7).ending = true ∧ (in41.dev.ctx 1 7).atSafe = true) := by
  and_intros <;> decide +kernel

theorem witness_SequencerFaults :
    ((iOp (iw 9 8 31 0 0 0 1), Instr.movi) ∈ seqOps ∧ IssuesOp in42.dev 1 7 (iOp (iw 9 8 31 0 0 0 1)) (iw 9 8 31 0 0 0 1) ∧ (in42.dev.ctx 1 7).goes (iw 9 8 31 0 0 0 1) = false) ∧
    (in43.dev.canIssue 1 7 = true ∧ in43.dev.mayFetch 1 7 = false) ∧
    (in44.dev.canIssue 1 7 = true ∧ in44.dev.mayFetch 1 7 = true ∧ (in44.dev.ctx 1 7).since = 256) ∧
    (Fetches in45.dev 1 7 0 ∧ 0 = 0) ∧
    (Issues in46.dev 1 7 6 (iw 6 0 0 1 2 (8 + 16) (31 * 64 + 31)) ∧ 2 ^ 40 ≤ BitVec.toNat ((in46.dev.ctx 1 7).g.getD (iRa (iw 6 0 0 1 2 (8 + 16) (31 * 64 + 31))) 0)) ∧
    (Issues in47.dev 1 7 17 (iw 17 0 0 0 0 1 7) ∧ 8 ≤ (in47.dev.ctx 1 7).rstack.length) ∧
    (Issues in48.dev 1 7 18 (iw 18 0 0 0 0 0 0) ∧ (in48.dev.ctx 1 7).rstack = []) ∧
    (1 < 2 ∧ in49.dev.up = true ∧ in49.dev.imageLoaded = true ∧ in49.dev.precision = true ∧ in49.dev.csq.faulted = [] ∧ in49.dev.csq.repairing = []) ∧
    (1 < 2 ∧ in50.dev.up = true ∧ in50.dev.imageLoaded = true ∧ in50.dev.precision = false ∧ in50.dev.csq.faulted = [] ∧ in50.dev.fget F.CSQ_STATUS.STATE [] = 0) ∧
    (0 < 2 ∧ in51.dev.up = true ∧ in51.dev.imageLoaded = true ∧ in51.dev.precision = false ∧ 0 = in51.dev.primary ∧ in51.dev.fget F.CSQ_STATUS.STATE [] = 2) ∧
    (in52.dev.up = true ∧ in52.dev.precision = false ∧ in52.dev.csq.faulted = [] ∧ in52.dev.csq.repairing = [] ∧ 7 < 8 ∧ in52.dev.fget F.CSQ_STATUS.STATE [] = 0 ∧ (in52.dev.ctx in52.dev.primary 7).st = CtxState.ready ∧ 9 ≤ in52.dev.now ∧ in52.dev.csq.lastRetire.getD in52.dev.primary 0 + in52.dev.coreTime (2 ^ max 16 (in52.dev.fget F.CSQ_CTL.WDOG [in52.dev.primary])) ≤ in52.dev.now) ∧
    (in53.dev.up = true ∧ in53.dev.precision = false ∧ in53.dev.fget F.CSQ_STATUS.STATE [] = 1) ∧
    (in54.dev.up = true ∧ in54.dev.precision = false ∧ in54.dev.fget F.CSQ_STATUS.STATE [] = 3 ∧ in54.dev.seqAtSafe in54.dev.primary = true) := by
  and_intros <;> first | decide +kernel | (show (9, Instr.movi) ∈ seqOps; simp [seqOps])

end W4

namespace W5

def imB : List Byte := beBytes 480 0x46524c4e00010100000001e00000000100000001000000000000000000000000044d2f4c4f72e685a9ec6f9ffb8f7c9946a8f5a36c08fc64216a3998dcd76415e3143d1462e53009c3b1e70c8a03bc0529c39e3b4a03cb2a71255ba6e02dd64629626717026d8df0e29d86cc57741c5158aa60a253314374029c2919ec1bf37f25000000000000000000000000000000000000000000000000000000000000000000000000000000000000000000000000000000000000000000000000000000000000000000000000000000000000000000000000000000000000000000000000000000000000000000000000000000000000000000000000000000000000000100ffff000000000000014000000040000000010000000000000000000000000000000000000000000000000000000000000000000000000000000000000000241400001000002800000000000000000000000000000000000000000000000000000000000000000000000000000000000000000000000000000000000000008d3dbc20fed6a3bdebc8ea7bda2d87cfbb7a8d5e3e9ae1288fe042292c86ec015360320a13f8d493cbb32199d7c3417194925522885c2747dbf50de36e2e944b60474c96324406981759a3ffe7d96193915a9aa819271cec8c500ac0d1d52e29
def buB : List Byte := beBytes 480 0x46524c4e00010200000001e00000000100000001000000000000000000000000044d2f4c4f72e685a9ec6f9ffb8f7c9946a8f5a36c08fc64216a3998dcd76415e3143d1462e53009c3b1e70c8a03bc0529c39e3b4a03cb2a71255ba6e02dd64629626717026d8df0e29d86cc57741c5158aa60a253314374029c2919ec1bf37f25000000000000000000000000000000000000000000000000000000000000000000000000000000000000000000000000000000000000000000000000000000000000000000000000000000000000000000000000000000000000000000000000000000000000000000000000000000000000000000000000000000000000000500ffff0000ffff0000014000000008000000090000000800000000000000000000000000000000000000000000000000000000000000000000000000000000000000000000000700000000000000000000000000000000000000000000000000000000000000000000000000000000000000000000000000000000000000002d40ae1608be873d39c30ab3a559d87239ada89d5226bcd02a8c187949d62c31597b7756911cde879ab9e58f7c9080ca97044c28e5b203df663b4eac50296acc4c598cc9d70c00f826022875f74ada6bf20d55a58f3d9e51bbd29d6aae4a290c
def bt (b : BootState) (h : Dev → Dev) : State := sS fun d => h { d with img := { d.img with boot := b } }
def st (b : BootState) (im : List Byte) (h : Dev → Dev) : State := sS fun d => h { d with img := { d.img with boot := b, staged := im } }
def lk (k : Nat) (d : Dev) : Dev := (d.fset F.CTL_CP.EN [k] 1).fset F.CTL_CP.LINK [k] 1
def ses (n : Nat) (f : Session → Session) (d : Dev) : Dev :=
  Dev.fset { lk 0 d with ctl := { d.ctl with sessions := lmod d.ctl.sessions n f } } F.TVX_SESSION.OPEN [n] 1
def rx (typ code sid : Nat) (p : List Byte) : TvxRx :=
  { port := 0, src := 0x0A0000000001, dst := discoveryMac, sec := 0, sci := 0, an := 0, pn := 0, ver := 1, typ := typ, code := code, sid := sid, seq := 0,
    ackv := false, ack := 0, more := false, len := p.length, win := 8, tag := 0, payload := p }
def in1 : State := bt .xoCheck id
def in2 : State := bt .xoCheck id
def in3 : State := bt .advertising (lk 0)
def in4 : State := bt .receiving fun d => { lk 0 d with img := { d.img with bound := some 0x0A0000000001, staged := imB } }
def in5 : State := bt .receiving id
def keyed (d : Dev) : Dev := { d with fuses := { d.fuses with keyHash := [sha384 (slice imB 32 97), 0, 0, 0] } }
def in6 : State := st .verify (imB.set 0 0) id
def in7 : State := st .load imB id
def in8 : State := st .load imB id
def in9 : State := sS fun d => (ses 7 id d).fset F.TVX_SESSION.PRIV [7] 2
def in10 : State := sS fun d => (ses 7 id d).fset F.TVX_SESSION.PRIV [7] 1
def sg (b : List Byte) : Staging := { sid := 7, bytes := b, whole := true }
def sgd (x : Staging) (d : Dev) : Dev := { keyed d with img := { d.img with boot := .standby, staging := some x } }
def in11 : State := sS (sgd (sg imB))
def in12 : State := sS fun d => ((sgd (sg buB) d).fset F.GLB_VERSION.IMAGE_VER [] 1).fset F.GLB_STORE_VER.VERSION [66] 8
def sga : Staging := { sg buB with applying := true, parts := [(0, 5, 0)] }
def in13 : State := sS fun d => ((sgd sga d).fset F.GLB_VERSION.IMAGE_VER [] 1).fset F.GLB_STORE_VER.VERSION [66] 8
def in14 : State := sS fun d => ((sgd sga d).fset F.IMG_CTL.PATCH_TMO [] 7)
def fw (op slot tgt : Nat) : Word := BitVec.ofNat 64 (2 ^ 63 + op * 2 ^ 60 + slot * 2 ^ 58 + tgt * 2 ^ 48 + 0x4C58 * 2 ^ 32)
def in15 : State := sS fun d => d.fset F.GLB_PROFILE.LOADED [] 1
def in16 : State := sS fun d => d.fset F.GLB_PROFILE.LOADED [] 1
def fc (op t : Nat) : FuseCmd := { op := op, slot := 3, target := t, start := 0, base := 0 }
def fz (x : FuseCmd) : State := sS fun d => { d with img := { d.img with fuseBusy := some x } }
def in17 : State := fz (fc 1 0)
def in18 : State := sS fun d => { d with csq := { d.csq with store := [(131071, 77)] } }

theorem witness_BootAndImages :
    (in1.dev.up = true ∧ in1.dev.img.boot = BootState.xoCheck ∧ in1.dev.img.retained = false ∧ in1.dev.img.since + us 41900 ≤ max in1.dev.now (us 41900)) ∧
    (in2.dev.up = true ∧ in2.dev.img.boot = BootState.xoCheck ∧ in2.dev.img.since + sec 1 ≤ max in2.dev.now (sec 1)) ∧
    (PlainFrame in3.dev (rx 2 0 255 (List.take 11 imB)) ∧ (rx 2 0 255 (List.take 11 imB)).typ = 2 ∧ (rx 2 0 255 (List.take 11 imB)).code = 0 ∧ (rx 2 0 255 (List.take 11 imB)).sid = 255 ∧ (rx 2 0 255 (List.take 11 imB)).seq = 0 ∧ (rx 2 0 255 (List.take 11 imB)).tag = 0 ∧ (rx 2 0 255 (List.take 11 imB)).ackv = false ∧ 0 < (rx 2 0 255 (List.take 11 imB)).len ∧ (rx 2 0 255 (List.take 11 imB)).len < 12 ∧ in3.dev.img.boot = BootState.advertising) ∧
    (PlainFrame in4.dev (rx 2 2 255 []) ∧ (rx 2 2 255 []).typ = 2 ∧ (rx 2 2 255 []).code = 2 ∧ (rx 2 2 255 []).sid = 255 ∧ (rx 2 2 255 []).ackv = false ∧ (rx 2 2 255 []).seq = in4.dev.ctl.boot.rxNext ∧ in4.dev.img.boot = BootState.receiving ∧ in4.dev.img.bound = some (rx 2 2 255 []).src ∧ in4.dev.img.retained = false ∧ in4.dev.ctl.boot.outq = [] ∧ SendsPlainly in4.dev (rx 2 2 255 []).port) ∧
    (in5.dev.up = true ∧ in5.dev.img.boot = BootState.receiving ∧ in5.dev.img.staging = none ∧ in5.dev.img.retained = false ∧ in5.dev.img.lastChunk + sec 1 ≤ max in5.dev.now (sec 1)) ∧
    (in6.dev.up = true ∧ in6.dev.img.boot = BootState.verify ∧ in6.dev.img.retained = false) ∧
    (in7.dev.up = true ∧ in7.dev.img.boot = BootState.load ∧ in7.dev.img.retained = false ∧ in7.dev.pwr.reqHeld = false ∧ (∀ k < hdrSects in7.dev.img.staged, (sectAt in7.dev.img.staged k).store ≠ 7)) ∧
    (in8.dev.up = true ∧ in8.dev.img.boot = BootState.load ∧ in8.dev.img.retained = false) := by
  and_intros <;> decide +kernel

theorem witness_BundlesAndPatches :
    (PlainFrame in9.dev (rx 2 1 7 (List.take 11 buB)) ∧ (rx 2 1 7 (List.take 11 buB)).typ = 2 ∧ (rx 2 1 7 (List.take 11 buB)).code = 1 ∧ in9.dev.sessionOpen (rx 2 1 7 (List.take 11 buB)).sid = true ∧ in9.dev.fget F.TVX_SESSION.PRIV [(rx 2 1 7 (List.take 11 buB)).sid] = 2 ∧ NothingWaits in9.dev ∧ (rx 2 1 7 (List.take 11 buB)).ackv = false ∧ (rx 2 1 7 (List.take 11 buB)).seq = (in9.dev.session (rx 2 1 7 (List.take 11 buB)).sid).rxNext ∧ (rx 2 1 7 (List.take 11 buB)).tag = 0 ∧ 0 < (rx 2 1 7 (List.take 11 buB)).len ∧ (rx 2 1 7 (List.take 11 buB)).len < 12 ∧ in9.dev.img.staging = none) ∧
    (PlainFrame in10.dev (rx 2 1 7 (List.take 11 buB)) ∧ (rx 2 1 7 (List.take 11 buB)).typ = 2 ∧ (rx 2 1 7 (List.take 11 buB)).code = 1 ∧ in10.dev.sessionOpen (rx 2 1 7 (List.take 11 buB)).sid = true ∧ in10.dev.fget F.TVX_SESSION.PRIV [(rx 2 1 7 (List.take 11 buB)).sid] ≠ 2) ∧
    (in11.dev.up = true ∧ in11.dev.img.staging = some (sg imB) ∧ (sg imB).whole = true ∧ (sg imB).applying = false ∧ headerOk 1 (sg imB).bytes = false) ∧
    (in12.dev.up = true ∧ in12.dev.img.staging = some (sg buB) ∧ (sg buB).whole = true ∧ (sg buB).applying = false ∧ in12.dev.imageChecks 1 (sg buB).bytes = none ∧ hdrFlags (sg buB).bytes % 2 = in12.dev.fget F.GLB_PROFILE.PROFILE [] ∧ hdrFlags (sg buB).bytes / 4 % 2 = in12.dev.fget F.GLB_PROFILE.CLKMODE [] ∧ hdrVer (sg buB).bytes = in12.dev.fget F.GLB_VERSION.IMAGE_VER [] ∧ hdrSects (sg buB).bytes = 1 ∧ (sectAt (sg buB).bytes 0).store = 5 ∧ (sectAt (sg buB).bytes 0).inst = 65535 ∧ (sectAt (sg buB).bytes 0).base = in12.dev.fget F.GLB_STORE_VER.VERSION [66] ∧ (sectAt (sg buB).bytes 0).ver ≠ (sectAt (sg buB).bytes 0).base ∧ in12.dev.img.bundles = []) ∧
    (in13.dev.up = true ∧ in13.dev.img.staging = some sga ∧ sga.applying = true ∧ sga.parts = [(0, 5, 0)] ∧ (sectAt sga.bytes 0).store = 5) ∧
    (in14.dev.up = true ∧ in14.dev.img.staging = some sga ∧ sga.applying = true ∧ sga.since + ms (max 1 (in14.dev.fget F.IMG_CTL.PATCH_TMO [])) ≤ max in14.dev.now (ms 7)) := by
  and_intros <;> first | decide +kernel | (unfold NothingWaits; decide +kernel)

theorem witness_FusesAndReadback :
    (in15.dev.up = true ∧ in15.dev.img.fuseBusy = none ∧ BitVec.getLsbD (fw 1 3 0) 63 = true ∧ wbits (fw 1 3 0) 47 32 = 19544) ∧
    (in16.dev.up = true ∧ in16.dev.img.fuseBusy = none ∧ (12682136550675316736 : BitVec 64).getLsbD 63 = true ∧ wbits 12682136550675316736 62 60 = 3 ∧ wbits 12682136550675316736 47 32 ≠ 19544) ∧
    (in17.dev.up = true ∧ in17.dev.img.fuseBusy = some (fc 1 0) ∧ (fc 1 0).start + ms 1 ≤ max in17.dev.now (ms 1)) ∧
    (in18.dev.up = true ∧ in18.dev.fuses.deadbolt = false ∧ (9295430730404397055#64).getLsbD 63 = true ∧ wbits (9295430730404397055#64) 62 56 = 1 ∧ wbits (9295430730404397055#64) 55 40 < 2 ∧ wbits (9295430730404397055#64) 31 0 < 65536) := by
  and_intros <;> decide +kernel

end W5

namespace W6

def upP (p : Nat) (d : Dev) : Dev := (d.fset F.LN_PSTAT.STATE [p] 5).fset F.LN_PORT.SLICE [p] 31 |>.fset F.PRS_CTL.HOLD [31] 0 |>.fset F.MAI_CTL.HOLD [31] 0
def by' (n : Nat) : List Byte := (List.range n).map fun i => BitVec.ofNat 8 (i + 1)
def good (n : Nat) : List Byte := by' n ++ fcsOf (by' n)
def in3 : State := sA (upP 1023)
def fr (f : Frame → Frame) : Frame := f { id := 3, port := 1023, bytes := by' 60 }
def fs (x : Frame) (h : Dev → Dev) : State := sA fun d => h { upP 1023 d with prs := { d.prs with frames := [{ id := 9, port := 5 }, x], nextId := 10 } }
def in4 : State := fs (fr id) id
def in5 : State := fs (fr id) id
def in6 : State := fs (fr fun x => { x with bytes := good 60, ended := true }) id
def in6x0 : Frame := fr fun x => { x with bytes := good 60, ended := true }
def many (n : Nat) : List Frame := (List.range n).map fun i => { id := 20 + i, port := 1023, loc := .bound }
def in7 : State := fs (fr fun x => { x with bytes := good 60, ended := true }) fun d => { d with prs := { d.prs with frames := d.prs.frames ++ many 96 } }
def in7x0 : Frame := fr fun x => { x with bytes := good 60, ended := true }
def pw (l : List (Nat × Nat)) : PWord := l.foldl (fun w x => w ||| BitVec.ofNat 128 (x.2 * 2 ^ x.1)) 0
def bd (f : Frame → Frame) : Frame := fr fun x => f { x with bytes := by' 200, loc := .bound, parse := { x.parse with pc := 4095, cur := 14 } }
def ps (x : Frame) (w : PWord) : State := fs x fun d => { d with prs := { d.prs with store := [(131071, w)] } }
def ext : PWord := pw [(122, 1), (110, 4095), (107, 1), (98, 5), (93, 3), (83, 700), (82, 1), (73, 111), (68, 1), (58, 0), (109, 1), (108, 1)]
def in8 : State := ps (bd id) ext
def extf : PWord := pw [(122, 2), (110, 5), (107, 1), (95, 911), (90, 0), (77, 512), (76, 1), (64, 15), (59, 9), (46, 6134)]
def in9 : State := ps (bd id) extf
def adv0 : PWord := pw [(122, 3), (110, 5), (107, 1), (104, 5), (102, 0), (93, 511)]
def in10 : State := ps (bd id) adv0
def bsc : Frame := bd fun x => { x with parse := { x.parse with scratch := [1, 2, 3, 4] } }
def sel (m : Nat) : PWord := pw [(122, 4), (110, 5), (102, 12), (100, m), (96, 4), (92, 12), (89, 5), (68, 0x1B1), (56, 77), (40, 0x1B1), (28, 78), (12, 0x1B1), (0, 79)]
def in11 : State := ps (bd id) (sel 0)
def pset (op : Nat) : PWord := pw [(122, 8), (110, 5), (76, 0x80000001), (44, 0xFFFFFFFF), (42, op), (40, 3), (28, 4), (24, 15)]
def in12 : State := ps bsc (pset 0)
def in13 : State := ps bsc (pw [(122, 9), (107, 1), (103, 15)])
def chkL : PWord := pw [(122, 5), (110, 5), (106, 0), (94, 0), (89, 7), (87, 0), (78, 167), (69, 1), (68, 0)]
def endd (x : Frame) : Frame := { x with ended := true }
def in14 : State := ps (endd bsc) chkL
def in15 : State := ps bsc chkL
def chkC : PWord := pw [(122, 5), (110, 5), (106, 1), (94, 0), (89, 0), (87, 0), (78, 20), (69, 0)]
def in16 : State := ps (endd bsc) chkC
def chkO : PWord := pw [(122, 5), (110, 5), (106, 2), (94, 2), (89, 5), (65, 7)]
def bop : Frame := bd fun x => { x with parse := { x.parse with snap := [(RegName.addr .PRS_OPTSET [31, 7], 0xFFFFFFFFFFFFFFFF)] } }
def in17 : State := ps bop chkO
def scn : PWord := pw [(122, 6), (110, 5), (107, 1), (98, 0), (88, 114)]
def in18 : State := ps bsc scn
def wb (n : Nat) : PWord := pw [(122, 7), (110, 5), (96, n), (84, 9)]
def in19 : State := ps bsc (wb 186)
def wsc : PWord := pw [(122, 7), (110, 5), (106, 1), (84, 9), (20, 2 ^ 63)]
def scd (v : Nat) : Frame := bd fun x => { x with parse := { x.parse with scan := some (0, 8), scanDone := true }, vec := { x.vec with scanV := v } }
def in20 : State := ps (scd 0) wsc
def in21 : State := ps bsc (pw [(122, 10), (108, 1)])
def spent : Frame := endd (bd fun x => { x with parse := { x.parse with slots := 48 } })
def in22 : State := ps spent 0
def pat : Pattern := { valid := true, len := 2, cls := 63, data := [0x0304000000000000, 0, 0, 0, 0xFFFF000000000000, 0, 0, 0] }
def scanning : Frame := bd fun x => { x with parse := { x.parse with scan := some (0, 8) } }
def in23 : State := fs scanning fun d => { d with prs := { d.prs with pats := [(31 * 4096 + 4095, pat)] } }
def ende : Frame := endd (bd fun x => { x with parse := { x.parse with ended := true } })
def in24 : State := fs ende id
def pcmd (d : Dev) : Dev := ((d.fset F.PRS_PAT_ATTR.VALID [31] 1).rset .PRS_PAT_DATA [31, 7] 99).fset F.PRS_PAT_ATTR.LEN [31] 31
def in25 : State := sA pcmd
def in26 : State := sA fun d => (d.fset F.PRS_SCAN_CTL.SPLIT [31] 1).fset F.PRS_SCAN_CTL.ACTIVE [31] 1
def in27 : State := sA fun d => { d with prs := { d.prs with pats := [(31 * 4096 + 4095, pat)] } }
def in28 : State := sA fun d => { d with prs := { d.prs with pats := [(31 * 4096 + 4095, pat)] } }

theorem witness_HeaderVectorWrites :
    (703 + [7].length ≤ 704 ∧ 703 < 768) ∧
    (6143 ≤ 6143 ∧ 6143 < 6144) := by
  and_intros <;> decide +kernel

theorem witness_FrameArrival :
    (in3.dev.active = true ∧ 1023 < 1024 ∧ in3.dev.portUp 1023 = true ∧ in3.dev.arriving 1023 = none ∧ in3.dev.fifoBytes 1023 + (by' 60).length ≤ in3.dev.fifoSize 1023 ∧ in3.dev.fbit F.FAB_STK.EN [] = false ∧ in3.dev.fget F.TIM_TSCORR.ING [1023] = 0 ∧ in3.dev.phaseValid = false) ∧
    (in4.dev.active = true ∧ in4.dev.arriving 1023 = some (fr id) ∧ in4.dev.frame? (fr id).id = some (fr id) ∧ (fr id).bytes.length + (by' 3).length < 64 ∧ (fr id).caps = [] ∧ in4.dev.buf.copies = []) ∧
    (in5.dev.active = true ∧ in5.dev.arriving 1023 = some (fr id) ∧ in5.dev.frame? (fr id).id = some (fr id) ∧ (fr id).loc = FrameLoc.fifo ∧ (fr id).bad = none ∧ (fr id).caps = [] ∧ (fr id).metered = [] ∧ (fr id).digested = [] ∧ (fr id).parse.deferred = [] ∧ (fr id).stk = [] ∧ in5.dev.buf.copies = [] ∧ 64 ≤ ((fr id).bytes ++ fcsOf (by' 60)).length ∧ ((fr id).bytes ++ fcsOf (by' 60)).length ≤ in5.dev.maxFrame 1023 ∧ List.drop (((fr id).bytes ++ fcsOf (by' 60)).length - 4) ((fr id).bytes ++ fcsOf (by' 60)) = fcsOf (List.take (((fr id).bytes ++ fcsOf (by' 60)).length - 4) ((fr id).bytes ++ fcsOf (by' 60)))) ∧
    (in6.dev.active = true ∧ in6.dev.frame? 3 = some in6x0 ∧ in6.dev.canBind in6x0 = true ∧ in6.dev.boundCount (in6.dev.portSlice in6x0.port) < 96) ∧
    (in7.dev.active = true ∧ in7.dev.frame? 3 = some in7x0 ∧ in7.dev.canBind in7x0 = true ∧ 96 ≤ in7.dev.boundCount (in7.dev.portSlice in7x0.port)) := by
  and_intros <;> decide +kernel

theorem witness_ParseWordsMove :
    (Parses in8.dev 3 1 (bd id) ext ∧ ext.get 57 0 = 0 ∧ (ext.get 107 107 = 1 → ext.get 92 83 + ext.get 97 93 + 1 ≤ 704 ∧ Present (bd id) ((bd id).parse.cur + ext.get 106 98 + ext.get 97 93 + 1)) ∧ (ext.get 82 82 = 1 → ext.get 67 58 + ext.get 72 68 + 1 ≤ 704 ∧ Present (bd id) ((bd id).parse.cur + ext.get 81 73 + ext.get 72 68 + 1))) ∧
    (Parses in9.dev 3 2 (bd id) extf ∧ extf.get 45 0 = 0 ∧ (extf.get 107 107 = 1 → 512 ≤ extf.get 89 77 ∧ extf.get 89 77 + extf.get 94 90 + 1 ≤ 6144 ∧ Present (bd id) ((bd id).parse.cur + (extf.get 106 95 + extf.get 94 90) / 8 + 1)) ∧ (extf.get 76 76 = 1 → 512 ≤ extf.get 58 46 ∧ extf.get 58 46 + extf.get 63 59 + 1 ≤ 6144 ∧ Present (bd id) ((bd id).parse.cur + (extf.get 75 64 + extf.get 63 59) / 8 + 1))) ∧
    (Parses in10.dev 3 3 (bd id) adv0 ∧ adv0.get 55 0 = 0 ∧ adv0.get 106 104 ≤ 5 ∧ adv0.get 80 76 ≤ 15 ∧ (adv0.get 103 102 = 0 ∧ 511 = adv0.get 101 93 ∨ adv0.get 103 102 = 1 ∧ Present (bd id) ((bd id).parse.cur + (adv0.get 92 81 + adv0.get 80 76) / 8 + 1) ∧ adv0.get 64 56 ≤ 511 ∧ 511 = (bd id).field (adv0.get 92 81) (adv0.get 80 76 + 1) * 2 ^ adv0.get 75 74 + adv0.get 73 65 ∨ adv0.get 103 102 = 2 ∧ adv0.get 92 81 ≤ 3 ∧ adv0.get 64 56 ≤ 511 ∧ 511 = (bd id).parse.scratch.getD (adv0.get 92 81) 0 * 2 ^ adv0.get 75 74 + adv0.get 73 65) ∧ (bd id).parse.cur + 511 ≤ 65535) ∧
    (Parses in11.dev 3 4 (bd id) (sel 0) ∧ (sel 0).get 88 84 = 0 ∧ ((sel 0).get 101 100 = 0 ∧ Present (bd id) ((bd id).parse.cur + (sel 0).get 107 102 + 2) ∧ 6940 = beNat (slice (bd id).bytes ((bd id).parse.cur + (sel 0).get 107 102) 2) ∨ (sel 0).get 101 100 = 1 ∧ Present (bd id) ((bd id).parse.cur + (sel 0).get 107 102 + 1) ∧ 6940 = beNat (slice (bd id).bytes ((bd id).parse.cur + (sel 0).get 107 102) 1) ∨ (sel 0).get 101 100 = 2 ∧ (sel 0).get 107 102 ≤ 3 ∧ 6940 = (bd id).parse.scratch.getD ((sel 0).get 107 102) 0)) ∧
    (Parses in12.dev 3 8 bsc (pset 0) ∧ (pset 0).get 23 0 = 0 ∧ ((pset 0).get 43 42 = 0 ∧ 4 = bsc.parse.scratch.getD ((pset 0).get 41 40) 0 ∨ (pset 0).get 43 42 = 1 ∧ 4 = (pset 0).get 39 28 ∨ (pset 0).get 43 42 = 2 ∧ Present bsc (bsc.parse.cur + ((pset 0).get 39 28 + (pset 0).get 27 24) / 8 + 1) ∧ 4 = bsc.field ((pset 0).get 39 28) ((pset 0).get 27 24 + 1) ∨ (pset 0).get 43 42 = 3 ∧ 4 = bsc.parse.scratch.getD ((pset 0).get 41 40) 0 - 1)) ∧
    (Parses in13.dev 3 9 bsc (pw [(122, 9), (107, 1), (103, 15)]) ∧ (pw [(122, 9), (107, 1), (103, 15)]).get 102 0 = 0) := by
  and_intros <;> first | decide +kernel | (unfold Present; decide +kernel)

theorem witness_ParseWordsCheck :
    (Parses in14.dev 3 5 (endd bsc) chkL ∧ chkL.get 107 106 = 0 ∧ chkL.get 64 0 = 0 ∧ chkL.get 93 89 ≤ 15 ∧ (endd bsc).ended = true ∧ Present (endd bsc) ((endd bsc).parse.cur + (chkL.get 105 94 + chkL.get 93 89) / 8 + 1) ∧ chkL.get 77 69 ≤ (endd bsc).field (chkL.get 105 94) (chkL.get 93 89 + 1) ∧ (if chkL.get 68 68 = 1 then (endd bsc).field (chkL.get 105 94) (chkL.get 93 89 + 1) * 2 ^ chkL.get 88 87 + chkL.get 86 78 = (endd bsc).bytes.length - 4 - (endd bsc).parse.cur else (endd bsc).field (chkL.get 105 94) (chkL.get 93 89 + 1) * 2 ^ chkL.get 88 87 + chkL.get 86 78 ≤ (endd bsc).bytes.length - 4 - (endd bsc).parse.cur)) ∧
    (Parses in15.dev 3 5 bsc chkL ∧ chkL.get 107 106 = 0 ∧ chkL.get 64 0 = 0 ∧ chkL.get 93 89 ≤ 15 ∧ bsc.ended = false ∧ Present bsc (bsc.parse.cur + (chkL.get 105 94 + chkL.get 93 89) / 8 + 1) ∧ chkL.get 77 69 ≤ bsc.field (chkL.get 105 94) (chkL.get 93 89 + 1)) ∧
    (Parses in16.dev 3 5 (endd bsc) chkC ∧ chkC.get 107 106 = 1 ∧ chkC.get 64 0 = 0 ∧ chkC.get 93 89 ≤ 15 ∧ Present (endd bsc) ((endd bsc).parse.cur + (chkC.get 105 94 + chkC.get 93 89) / 8 + 1) ∧ Present (endd bsc) ((endd bsc).parse.cur + ((endd bsc).field (chkC.get 105 94) (chkC.get 93 89 + 1) * 2 ^ chkC.get 88 87 + chkC.get 86 78))) ∧
    (Parses in17.dev 3 5 bop chkO ∧ chkO.get 107 106 = 2 ∧ chkO.get 64 0 = 0 ∧ chkO.get 93 89 ≤ 5 ∧ Present bop (bop.parse.cur + (chkO.get 105 94 + chkO.get 93 89) / 8 + 1) ∧ bitN (bop.parse.get F.PRS_OPTSET.ALLOW [in17.dev.portSlice bop.port, chkO.get 67 65]) (bop.field (chkO.get 105 94) (chkO.get 93 89 + 1)) = true) ∧
    (Parses in18.dev 3 6 bsc scn ∧ scn.get 87 0 = 0 ∧ 0 < scn.get 97 88 ∧ scn.get 97 88 ≤ 512 ∧ bsc.parse.scan = none ∧ ((if scn.get 107 107 = 1 then bsc.parse.cur else 0) + scn.get 106 98 < if bsc.ended = true then bsc.bytes.length - 4 else bsc.bytes.length) ∧ ((if scn.get 107 107 = 1 then bsc.parse.cur else 0) + scn.get 106 98 + scn.get 97 88 ≤ bsc.parse.window)) ∧
    (Parses in19.dev 3 7 bsc (wb 186) ∧ (wb 186).get 107 106 = 0 ∧ (wb 186).get 19 0 = 0 ∧ 0 < (wb 186).get 105 96 ∧ (wb 186).get 105 96 ≤ 512) ∧
    (Parses in20.dev 3 7 (scd 0) wsc ∧ wsc.get 107 106 = 1 ∧ wsc.get 19 0 = 0 ∧ (scd 0).parse.scan ≠ none ∧ (scd 0).parse.scanDone = true) ∧
    (Parses in21.dev 3 10 bsc (pw [(122, 10), (108, 1)]) ∧ (pw [(122, 10), (108, 1)]).get 103 0 = 0 ∧ (pw [(122, 10), (108, 1)]).get 107 107 = 0) ∧
    (in22.dev.active = true ∧ in22.dev.frame? 3 = some spent ∧ spent.loc = FrameLoc.bound ∧ spent.parse.ended = false ∧ spent.parse.budget ≤ spent.parse.slots ∧ spent.port < 1024 ∧ spent.ended = true ∧ spent.parse.get F.PRS_MALF.ACTION [in22.dev.portSlice spent.port, 4] = 0) := by
  and_intros <;> first | decide +kernel

theorem witness_ScannerAndRelease :
    (in23.dev.active = true ∧ in23.dev.frame? 3 = some scanning ∧ scanning.parse.scan = some (0, 8) ∧ scanning.parse.scanDone = false ∧ scanning.ended = false ∧ 0 + 8 ≤ scanning.bytes.length ∧ in23.dev.patterns (in23.dev.portSlice scanning.port) scanning.parse.scanHalf = [(4095, pat)] ∧ pat.hit (slice scanning.bytes 0 8) 0 = some 2 ∧ 4095 < 4096 ∧ pat.cls < 64 ∧ 2 < 1024) ∧
    (in24.dev.active = true ∧ in24.dev.frame? 3 = some ende ∧ ende.loc = FrameLoc.bound ∧ ende.parse.ended = true ∧ ende.scanReady = true ∧ in24.dev.fbit F.MAI_CTL.HOLD [in24.dev.portSlice ende.port] = false ∧ in24.dev.img.staging = none ∧ (∀ y ∈ in24.dev.prs.frames, y.port = ende.port → y.loc = FrameLoc.bound → ende.boundSeq ≤ y.boundSeq)) ∧
    (in25.dev.up = true ∧ 31 < 32 ∧ 4095 < 4096 ∧ in25.dev.fbit F.PRS_SCAN_CTL.SPLIT [31] = false) ∧
    (in26.dev.up = true ∧ 31 < 32 ∧ 4095 < 4096 ∧ in26.dev.fbit F.PRS_SCAN_CTL.SPLIT [31] = true ∧ 2048 ≤ 4095 ↔ in26.dev.fbitB F.PRS_SCAN_CTL.ACTIVE [31] = true) ∧
    (in27.dev.up = true ∧ 31 < 32 ∧ 4095 < 4096) ∧
    (in28.dev.up = true ∧ 31 < 32 ∧ 4095 < 4096 ∧ in28.dev.fbit F.PRS_SCAN_CTL.SPLIT [31] = false) := by
  and_intros <;> decide +kernel

end W6

namespace W7

def fr (f : Frame → Frame) : Frame := f { id := 3, port := 1023, loc := .stage 14, ended := true }
def fs (x : Frame) (h : Dev → Dev) : State := sA fun d => h (Dev.fset { d with prs := { d.prs with frames := [{ id := 9, port := 5 }, x], nextId := 10 } } F.LN_PORT.SLICE [1023] 31)
def wd (k : Nat) (v : Nat) (d : Dev) : Dev := { d with mat := { d.mat with store := [(31 * 16384 + k, BitVec.ofNat 512 v)] } }
def in1 : State := fs (fr id) (wd 0 (2 ^ 508))
def in2 : State := fs (fr id) (wd 0 (2 ^ 508 + (2 * 2 ^ 55 + 6128 * 2 ^ 35 + 15 * 2 ^ 31 + 65535 * 2 ^ 15)))
def in3 : State := fs (fr id) id
def cp (f : Copy → Copy) : Copy := f { id := 4, inPort := 2, port := 1023, queue := 19, staged := true, estage := 10 }
def cs (x : Copy) (h : Dev → Dev) : State := sA fun d => h (Dev.fset { d with buf := { d.buf with copies := [x] } } F.LN_PORT.SLICE [1023] 31)
def in4 : State := cs (cp id) (wd 0 (2 ^ 508))
def in5 : State := sA id
def in6 : State := sA fun d => { d with mat := { d.mat with swaps := [(31 * 64 + 63, 1)] } }
def in7 : State := sA id
def in8 : State := sA fun d => { d with mat := { d.mat with flowlets := [(31 * 16384, 5), (0, 5)] } }
def in9 : State := sA id
def in10 : State := sA fun d => d.rset .XFS_MCG_DATA [0] 7
def in11 : State := sA fun d => d.rset .XFS_MCG_DATA [0] 7
def tb (ty sz dl : Nat) (d : Dev) : Dev := (((d.fset F.TBL_DESC_A.TYPE [31, 63] ty).fset F.TBL_DESC_A.SIZELOG [31, 63] sz).fset F.TBL_DESC_A.DLEN [31, 63] dl).fset F.MAI_CTL.HOLD [31] 0
def img (l : List (Nat × Nat)) (d : Dev) : Dev := l.foldl (fun d x => d.rset .TBL_DATA [31, x.1] (BitVec.ofNat 64 x.2)) d
def tS (ty : Nat) (h : Dev → Dev) : State := sA fun d => h (tb ty 4 2 d)
def dsc (s : State) : TDesc := s.dev.tdesc 31 63
def in12 : State := tS 3 (img [(0, 2 ^ 64 - 1)])
def in13 : State := tS 3 fun d => { d with tmem := [(31 * 4194304 + 16 * 262142, 5)] }
def in14 : State := tS 3 (img [(0, 2 ^ 64 - 1)])
def direct (v : Nat) (d : Dev) : Dev := { d with tmem := (beBytes 8 v).zipIdx.filterMap fun x => if x.1 = 0 then none else some (31 * 4194304 + 15 * 8 + x.2, x.1) }
def in15 : State := tS 3 (img [(0, 2 ^ 64 - 1)])
def in16 : State := tS 3 (img [(0, 2 ^ 64 - 1)])
def in17 : State := tS 3 (img [(0, 2 ^ 64 - 1)])
def ex (ws : List (Nat × Nat)) : State := tS 1 (img ws)
def in18 : State := ex [(0, 2 ^ 64 - 1), (1, 77)]
def exv : State := ex [(0, 2 ^ 64 - 1), (1, 77)]
def dual (h : Dev → Dev) : State := tS 1 fun d => h ((d.fset F.TBL_DESC_A.DUAL [31, 63] 1).fset F.TBL_DESC_A.GROUP [31, 63] 63)
def in21 : State := dual id
def in22 : State := sA fun d => d.fset F.TBL_CMD.BUSY [31] 1
def lrn : Learn := { slice := 31, table := 63, key := List.replicate 11 7, act := 0x3FFF, data := 0x3FFFF, port := 1023 }
def ls : State := tS 1 fun d => { d with mat := { d.mat with learns := [lrn, lrn] } }
def rs : State := match exec (.learnApply 31) ls with | .next s => { s with dev := { s.dev with mat := { s.dev.mat with ring := [{ slice := 31, table := 63, op := .delete lrn.key }] } } } | _ => sA id
def fnd : Nat × Img := ((rs.dev.exFind (dsc rs) 0 lrn.key).1).getD (0, 0)
def ag (d : Dev) : Dev := (d.fset F.TBL_AGE.EN [31, 3] 1).fset F.TBL_AGE.TABLE [31, 3] 63
def in25 : State := tS 1 ag
def ap (n : Nat) : AgePass := { slice := 31, unit := 3, table := 63, next := n }
def in26 : State := tS 1 fun d => ag { d with mat := { d.mat with ages := [ap 0] } }

theorem witness_MatchStages :
    (in1.dev.active = true ∧ in1.dev.frame? 3 = some (fr id) ∧ (fr id).loc = FrameLoc.stage 14 ∧ 14 < 15 ∧ 14 ≠ 4 ∧ (fr id).metered = [] ∧ (fr id).digested = [] ∧ in1.dev.fget F.MAI_STAGE.LUEN [in1.dev.portSlice (fr id).port, 14] = 0 ∧ (∀ j < 4, in1.dev.fbit F.MAI_LU.REN [in1.dev.portSlice (fr id).port, 14, j] = false ∧ in1.dev.fbit F.MAI_LU.DEN [in1.dev.portSlice (fr id).port, 14, j] = false) ∧ (fr id).vec.get F.MAI_STAGE.DEFAULT [in1.dev.portSlice (fr id).port, 14] = 0 ∧ mget 0 in1.dev.mat.store (in1.dev.portSlice (fr id).port * 16384 + 0) = BitVec.ofNat 512 (2 ^ 508)) ∧
    (in2.dev.active = true ∧ in2.dev.frame? 3 = some (fr id) ∧ (fr id).loc = FrameLoc.stage 14 ∧ 14 < 15 ∧ 14 ≠ 4 ∧ (fr id).metered = [] ∧ (fr id).digested = [] ∧ in2.dev.fget F.MAI_STAGE.LUEN [in2.dev.portSlice (fr id).port, 14] = 0 ∧ (∀ j < 4, in2.dev.fbit F.MAI_LU.REN [in2.dev.portSlice (fr id).port, 14, j] = false ∧ in2.dev.fbit F.MAI_LU.DEN [in2.dev.portSlice (fr id).port, 14, j] = false) ∧ (fr id).vec.get F.MAI_STAGE.DEFAULT [in2.dev.portSlice (fr id).port, 14] = 0 ∧ 15 < 16 ∧ 65535 < 65536 ∧ 512 ≤ 6128 ∧ 6128 + 15 + 1 ≤ 6144 ∧ mget 0 in2.dev.mat.store (in2.dev.portSlice (fr id).port * 16384 + 0) = BitVec.ofNat 512 (2 ^ 508 + (2 * 2 ^ 55 + 6128 * 2 ^ 35 + 15 * 2 ^ 31 + 65535 * 2 ^ 15))) ∧
    (in3.dev.active = true ∧ in3.dev.frame? 3 = some (fr id) ∧ (fr id).loc = FrameLoc.stage 14 ∧ 14 < 15 ∧ 14 ≠ 4 ∧ (fr id).metered = [] ∧ (fr id).digested = [] ∧ in3.dev.fget F.MAI_STAGE.LUEN [in3.dev.portSlice (fr id).port, 14] = 0 ∧ (∀ j < 4, in3.dev.fbit F.MAI_LU.REN [in3.dev.portSlice (fr id).port, 14, j] = false ∧ in3.dev.fbit F.MAI_LU.DEN [in3.dev.portSlice (fr id).port, 14, j] = false) ∧ (fr id).vec.get F.MAI_STAGE.DEFAULT [in3.dev.portSlice (fr id).port, 14] = 0 ∧ mget 0 in3.dev.mat.store (in3.dev.portSlice (fr id).port * 16384 + 0) = 0 ∧ (fr id).ended = true) ∧
    (in4.dev.active = true ∧ in4.dev.copy? 4 = some (cp id) ∧ (cp id).staged = true ∧ (cp id).estage < 11 ∧ in4.dev.fget F.MAE_STAGE.LUEN [in4.dev.portSlice (cp id).port, (cp id).estage] = 0 ∧ (∀ j < 4, in4.dev.fbit F.MAE_LU.REN [in4.dev.portSlice (cp id).port, (cp id).estage, j] = false ∧ in4.dev.fbit F.MAE_LU.DEN [in4.dev.portSlice (cp id).port, (cp id).estage, j] = false) ∧ mget 0 in4.dev.mat.store (in4.dev.portSlice (cp id).port * 16384 + (cp id).vec.get F.MAE_STAGE.DEFAULT [in4.dev.portSlice (cp id).port, (cp id).estage]) = BitVec.ofNat 512 (2 ^ 508)) := by
  and_intros <;> decide +kernel

theorem witness_SwapsGroupsAndLogs :
    (in5.dev.up = true ∧ 31 < 32 ∧ in5.dev.sliceOn 31 = true ∧ 63 < 64) ∧
    (in6.dev.active = true ∧ 31 < 32 ∧ in6.dev.sliceOn 31 = true ∧ 63 < 64 ∧ in6.dev.mat.swaps = [(31 * 64 + 63, 1)] ∧ in6.dev.mat.needSash = [] ∧ in6.dev.prs.frames = [] ∧ in6.dev.buf.copies = [] ∧ in6.dev.fbit F.PRS_SCAN_CTL.GROUP_EN [31] = false) ∧
    (in7.dev.active = true ∧ 31 < 32 ∧ in7.dev.prs.frames = [] ∧ in7.dev.buf.copies = [] ∧ mget? in7.dev.mat.waiting 31 = none) ∧
    (in8.dev.up = true ∧ 31 < 32) ∧
    (in9.dev.up = true ∧ 31 < 32) ∧
    (in10.dev.up = true ∧ 65535 < 65536 ∧ in10.dev.rget RegName.XFS_MCG_DATA [0] ≠ 0) ∧
    (in11.dev.up = true ∧ 65535 < 65536) := by
  and_intros <;> decide +kernel

theorem witness_TableCommands :
    (TableFree in12.dev 31 63 8 (dsc (tS 3 (img [(0, 2 ^ 64 - 1)]))) ∧ (dsc (tS 3 (img [(0, 2 ^ 64 - 1)]))).dual = false ∧ (dsc (tS 3 (img [(0, 2 ^ 64 - 1)]))).dlen ≠ 0 ∧ 262142 < 2 ^ 20 ∧ 16 * 262142 + (dsc (tS 3 (img [(0, 2 ^ 64 - 1)]))).dlen ≤ 4194304) ∧
    (TableFree in13.dev 31 63 9 (dsc (tS 3 id)) ∧ (dsc (tS 3 id)).dual = false ∧ (dsc (tS 3 id)).dlen ≠ 0 ∧ 262142 < 2 ^ 20 ∧ 16 * 262142 + (dsc (tS 3 id)).dlen ≤ 4194304 ∧ in13.dev.tbad 31 (16 * 262142) (dsc (tS 3 id)).dlen = false) ∧
    ((1, Instr.tblInsert) ∈ [(1, Instr.tblInsert), (6, Instr.tblWrite)] ∧ TableFree in14.dev 31 63 1 (dsc (tS 3 (img [(0, 2 ^ 64 - 1)]))) ∧ (dsc (tS 3 (img [(0, 2 ^ 64 - 1)]))).kind = TKind.direct ∧ (dsc (tS 3 (img [(0, 2 ^ 64 - 1)]))).dual = false ∧ 15 < 2 ^ (dsc (tS 3 (img [(0, 2 ^ 64 - 1)]))).slog ∧ 15 < 2 ^ 20 ∧ (dsc (tS 3 (img [(0, 2 ^ 64 - 1)]))).daddr 0 15 + 8 ≤ 4194304) ∧
    (TableFree in15.dev 31 63 3 (dsc (tS 3 (img [(0, 2 ^ 64 - 1)]))) ∧ (dsc (tS 3 (img [(0, 2 ^ 64 - 1)]))).kind = TKind.direct ∧ (dsc (tS 3 (img [(0, 2 ^ 64 - 1)]))).dual = false ∧ 15 < 2 ^ (dsc (tS 3 (img [(0, 2 ^ 64 - 1)]))).slog ∧ 15 < 2 ^ 20 ∧ (dsc (tS 3 (img [(0, 2 ^ 64 - 1)]))).daddr 0 15 + 8 ≤ 4194304 ∧ in15.dev.drBad (dsc (tS 3 (img [(0, 2 ^ 64 - 1)]))) 0 15 = false) ∧
    (TableFree in16.dev 31 63 2 (dsc (tS 3 (img [(0, 2 ^ 64 - 1)]))) ∧ (dsc (tS 3 (img [(0, 2 ^ 64 - 1)]))).kind = TKind.direct ∧ (dsc (tS 3 (img [(0, 2 ^ 64 - 1)]))).dual = false ∧ 15 < 2 ^ (dsc (tS 3 (img [(0, 2 ^ 64 - 1)]))).slog ∧ 15 < 2 ^ 20 ∧ (dsc (tS 3 (img [(0, 2 ^ 64 - 1)]))).daddr 0 15 + 8 ≤ 4194304 ∧ in16.dev.drBad (dsc (tS 3 (img [(0, 2 ^ 64 - 1)]))) 0 15 = false) ∧
    (TableFree in17.dev 31 63 5 (dsc (tS 3 (img [(0, 2 ^ 64 - 1)]))) ∧ (dsc (tS 3 (img [(0, 2 ^ 64 - 1)]))).kind = TKind.direct ∧ (dsc (tS 3 (img [(0, 2 ^ 64 - 1)]))).dual = false ∧ 15 < 2 ^ (dsc (tS 3 (img [(0, 2 ^ 64 - 1)]))).slog ∧ 15 < 2 ^ 20 ∧ in17.dev.drBad (dsc (tS 3 (img [(0, 2 ^ 64 - 1)]))) 0 15 = false) ∧
    (TableFree in18.dev 31 63 4 (dsc (ex [(0, 2 ^ 64 - 1), (1, 77)])) ∧ (dsc (ex [(0, 2 ^ 64 - 1), (1, 77)])).kind = TKind.exact ∧ (dsc (ex [(0, 2 ^ 64 - 1), (1, 77)])).dual = false ∧ (in18.dev.exFind (dsc (ex [(0, 2 ^ 64 - 1), (1, 77)])) 0 ((dsc (ex [(0, 2 ^ 64 - 1), (1, 77)])).keyOf ((dsc (ex [(0, 2 ^ 64 - 1), (1, 77)])).normal (in18.dev.tblImg 31) false))).2 = []) ∧
    (TableFree exv.dev 31 63 1 (dsc exv) ∧ (dsc exv).kind = TKind.exact ∧ (dsc exv).dual = false ∧ exv.dev.fbit F.TBL_LEARN.SHARE [31, 63] = false ∧ exv.dev.learns (dsc exv) = false ∧ (exv.dev.tblImg 31).valid = true ∧ exv.dev.exFind (dsc exv) 0 ((dsc exv).keyOf ((dsc exv).normal (exv.dev.tblImg 31) false)) = (none, []) ∧ exv.dev.freeIn (dsc exv) 0 0 ((dsc exv).bucket 0 ((dsc exv).keyOf ((dsc exv).normal (exv.dev.tblImg 31) false))) = some ((exv.dev.freeIn (dsc exv) 0 0 ((dsc exv).bucket 0 ((dsc exv).keyOf ((dsc exv).normal (exv.dev.tblImg 31) false)))).getD 0) ∧ (dsc exv).eaddr 0 ((exv.dev.freeIn (dsc exv) 0 0 ((dsc exv).bucket 0 ((dsc exv).keyOf ((dsc exv).normal (exv.dev.tblImg 31) false)))).getD 0) + (dsc exv).ebytes ≤ 4194304) ∧
    (TableFree exv.dev 31 63 7 (dsc exv) ∧ 1048575 < 2 ^ 20 ∧ (∀ j < exv.dev.ageSteps (dsc exv), ∀ i ∈ (dsc exv).ageStep j, exv.dev.exGet (dsc exv) 0 i = 0)) ∧
    (TableFree in21.dev 31 63 6 (dsc (dual id)) ∧ (dsc (dual id)).dual = true ∧ 0 < 2 ∧ 15 < 2 ^ 20 ∧ in21.dev.badArg (dsc (dual id)) 6 0 15 (in21.dev.tblImg 31) = false ∧ (in21.dev.fget F.MAI_SASH_STATE.ACTIVE [31]).testBit (dsc (dual id)).group = (0 == 1) ∧ in21.dev.storedBad (dsc (dual id)) 6 0 15 = false) ∧
    (in22.dev.up = true ∧ 31 < 32 ∧ in22.dev.tblTaken 31 = true) := by
  and_intros <;> first | decide +kernel | exact List.Mem.head _

theorem witness_LearningAndAgeing :
    (ls.dev.active = true ∧ ls.dev.mat.learns = [lrn, lrn] ∧ lrn.slice = 31 ∧ 31 < 32 ∧ lrn.table < 64 ∧ ls.dev.portSlot lrn.port < 33 ∧ (ls.dev.tdesc 31 lrn.table).kind = TKind.exact ∧ (ls.dev.tdesc 31 lrn.table).dual = false ∧ lrn.key.length = (ls.dev.tdesc 31 lrn.table).klen ∧ ls.dev.exFind (ls.dev.tdesc 31 lrn.table) 0 lrn.key = (none, []) ∧ ls.dev.freeIn (ls.dev.tdesc 31 lrn.table) 0 0 ((ls.dev.tdesc 31 lrn.table).bucket 0 lrn.key) = some ((ls.dev.freeIn (dsc ls) 0 0 ((dsc ls).bucket 0 lrn.key)).getD 0) ∧ (ls.dev.tdesc 31 lrn.table).eaddr 0 ((ls.dev.freeIn (dsc ls) 0 0 ((dsc ls).bucket 0 lrn.key)).getD 0) + (ls.dev.tdesc 31 lrn.table).ebytes ≤ 4194304 ∧ ls.dev.fbit F.TBL_LEARN.SHARE [31, lrn.table] = false) ∧
    (rs.dev.active = true ∧ 31 < 32 ∧ 63 < 64 ∧ rs.dev.mat.ring = [{ slice := 31, table := 63, op := RingOp.delete lrn.key : RingMsg }] ∧ (rs.dev.tdesc 31 63).kind = TKind.exact ∧ (rs.dev.tdesc 31 63).dual = false ∧ rs.dev.exFind (rs.dev.tdesc 31 63) 0 lrn.key = (some (fnd.1, fnd.2), []) ∧ fnd.1 < 2 ^ 19 ∧ (rs.dev.tdesc 31 63).eaddr 0 fnd.1 + (rs.dev.tdesc 31 63).ebytes ≤ 4194304) ∧
    (in25.dev.active = true ∧ 31 < 32 ∧ 3 < 4 ∧ in25.dev.fbit F.TBL_AGE.EN [31, 3] = true ∧ mget? in25.dev.mat.ageStart (31 * 4 + 3) = none ∧ in25.dev.mat.ages = [] ∧ (in25.dev.tdesc 31 (in25.dev.fget F.TBL_AGE.TABLE [31, 3])).kind = TKind.exact ∧ (in25.dev.tdesc 31 (in25.dev.fget F.TBL_AGE.TABLE [31, 3])).dual = false) ∧
    (in26.dev.active = true ∧ in26.dev.mat.ages = [ap 0] ∧ (ap 0).slice = 31 ∧ (ap 0).unit = 3 ∧ 31 < 32 ∧ 3 < 4 ∧ (in26.dev.tdesc 31 (ap 0).table).kind = TKind.exact ∧ (in26.dev.tdesc 31 (ap 0).table).dual = false ∧ in26.dev.fbit F.TBL_AGE.EN [31, 3] = true ∧ (∀ i ∈ (in26.dev.tdesc 31 (ap 0).table).ageStep (ap 0).next, in26.dev.exGet (in26.dev.tdesc 31 (ap 0).table) 0 i = 0)) := by
  and_intros <;> decide +kernel

end W7

namespace W8

def dsp (p q pool : Nat) : Disp := Disp.fset (Disp.fset (Disp.fset (Disp.fset 0 1 1) 2 p) 3 q) 8 pool
def fr (f : Frame → Frame) : Frame := f { id := 3, port := 1023, loc := .exit, ended := true, bytes := List.replicate 256 7, vec := { disp := dsp 1022 15 3 } }
def base (d : Dev) : Dev := ((((d.fset F.LN_PORT.SLICE [1023] 31).fset F.LN_PORT.SLICE [1022] 0).fset F.BUF_CTL.HOLD [] 0).fset F.BUF_PORT.HOLD [1023] 0).fset F.BUF_PORT.HOLD [1022] 0
def fs (x : Frame) (h : Dev → Dev) : State := sA fun d => h (base { d with prs := { d.prs with frames := [{ id := 9, port := 5 }, x], nextId := 10 } })
def full (d : Dev) : Dev := { d with buf := { d.buf with cells := (List.range 327680).map fun i => (i / 10240 % 4 * 16384 + i / 40960 * 65536 + i % 10240, { inflight := true }) } }
def ll (d : Dev) : Dev := (List.range 8).foldl (fun d g => d.fset F.BUF_IPG_A.LOSSLESS [1023, g] 1) d
def pool (d : Dev) : Dev := d.fset F.BUF_SP.SIZE [3] 1000
def in1 : State := fs (fr id) full
def in2 : State := fs (fr id) ll
def in3 : State := fs (fr id) fun d => d.fset F.BUF_SP.SIZE [3] 0
def qmin (v : Nat) (d : Dev) : Dev := d.fset F.BUF_EQ.MIN [1022, 15] v
def pgmin (v : Nat) (d : Dev) : Dev := (List.range 8).foldl (fun d g => d.fset F.BUF_IPG_A.MIN [1023, g] v) d
def in4 : State := fs (fr id) fun d => pgmin 1 d
def in5 : State := fs (fr id) fun d => pgmin 1 (qmin 1 d)
def in6 : State := fs (fr id) fun d => pool (pgmin 1 (qmin 1 d))
def vq : VoqCell := { ingress := 31, egress := 0, copies := [4], last := true }
def in7 : State := sA fun d => { d with buf := { d.buf with voq := [vq] } }
def cp (f : Copy → Copy) : Copy := f { id := 4, inPort := 1023, port := 1022, queue := 19, pg := some 8191, pool := 3, fid := some 5, ended := true }
def cs (x : Copy) (h : Dev → Dev) : State := sA fun d => h (base { d with buf := { d.buf with copies := [x], crossed := [vq, vq] } })
def in8 : State := cs (cp id) id
def in9 : State := cs (cp id) full
def door (f : Copy → Copy) : Copy := f (cp fun x => { x with cells := [3], cellsDone := true, queue := 15, bytes := [0x45, 1] ++ List.replicate 18 0 })
def in10 : State := cs (door id) id
def ecn (d : Dev) : Dev := d.fset F.BUF_EQ.ECNEN [1022, 15] 1 |>.fset F.BUF_EQ.NONECT [1022, 15] 1 |>.fset F.BUF_EQ.EMARK [1022, 15] 5 |>.fset F.BUF_EQ.ECN_MIN [1022, 15] 0 |>.fset F.BUF_EQ.ECN_MAX [1022, 15] 0
def in11 : State := cs (door id) ecn
def in12 : State := cs (door fun x => { x with cells := [], bytes := [0x45, 0] }) ecn
def in12x3 : Copy := door fun x => { x with cells := [], bytes := [0x45, 0] }
def ptrMax : Nat := 31 * 65536 + 3 * 16384 + 10239
def cl (x : CellSt) : State := sA fun d => { d with buf := { d.buf with cells := [(ptrMax, x)] } }
def in13 : State := cl { inflight := true }
def in14 : State := cl { }
def in15 : State := sA id
def up (d : Dev) : Dev := d.fset F.LN_PSTAT.STATE [1023] 5
def in16 : State := sA up
def in17 : State := sA fun d => (up d).fset F.BUF_PORT.PFC_RX [1023] 1
def in18 : State := sA up
def in19 : State := sA fun d => { d with buf := { d.buf with pause := [(8191, 5)] } }
def in20 : State := sA fun d => (up { d with buf := { d.buf with pfcNext := [(8191, 5)] } }).fset F.BUF_IPG_STAT.XOFF [1023, 7] 1 |>.fset F.BUF_PORT.PFC_TX [1023] 1 |>.fset F.BUF_IPG_A.PRIMASK [1023, 7] 0x81
def hd : HeadSt := { copy := 4, age := 65536000, last := 0 }
def in21 : State := sA fun d => Dev.fset { d with buf := { d.buf with heads := [(32 * 1023 + 19, hd)] } } F.BUF_QAGE_CTL.EN [] 0
def in22 : State := sA fun d => Dev.fset { d with buf := { d.buf with heads := [(32 * 1023 + 19, hd)] } } F.BUF_QAGE_CTL.EN [] 1 |>.fset F.BUF_QAGE_CTL.LIMIT [] 1
def in23 : State := sA fun d => d.fset F.BUF_AUD_CTL.EN [] 1
def in24 : State := sA fun d => d.fset F.BUF_AUD_CTL.EN [] 1 |>.fset F.BUF_FREE.FREE [] 0 |>.fset F.BUF_AUD_CTL.PERSIST [] 0
def in25 : State := sA id
def walking (d : Dev) : Dev := { d with buf := { d.buf with walk := some 5, cells := [(7, { since := 5 })] } }
def in26 : State := sA walking
def in27 : State := sA fun d => (walking d).fset F.BUF_AUD_CTL.RECLAIM [] 1
def room (d : Dev) : Dev := d.fset F.BUF_HDRM.SIZE [] (1310720 - 8192 - ((List.range 4).map fun k => d.fget F.BUF_SP.SIZE [k]).sum)
def tight (d : Dev) : Dev := d.fset F.BUF_HDRM.SIZE [] (1310720 - 8191 - ((List.range 4).map fun k => d.fget F.BUF_SP.SIZE [k]).sum)
def in28 : State := sA room
def in29 : State := sS room
def in30 : State := sS tight
def in31 : State := sS tight
def in32 : State := sA tight
def al (v : Nat) (d : Dev) : Dev := (d.fset F.BUF_EQ.ALPHA [1023, 19] v).fset F.BUF_IPG_A.ALPHA [1023, 7] v |>.fset F.BUF_SP.SIZE [3] 1000 |>.fset F.BUF_SP.USE [3] 872
def own (n : Nat) (d : Dev) : Dev := { d with buf := { d.buf with ownPool := [(pgPoolKey 8191 3, n), (qPoolKey (qKey 1023 19) 3, n)] } }
def thA : Dev := al 9 (own 0 (dv .active))

theorem full_cluster (d : Dev) : (full d).clusterFree 0 = 0 := by
  have h : ((full d).buf.cells.filter fun (x : Nat × CellSt) => cellCluster x.1 == 0) = (full d).buf.cells := by
    rw [List.filter_eq_self]
    intro x hx
    simp only [full, List.mem_map] at hx
    obtain ⟨i, hi, rfl⟩ := hx
    rw [List.mem_range] at hi
    have : cellCluster (i / 10240 % 4 * 16384 + i / 40960 * 65536 + i % 10240) = 0 := by
      unfold cellCluster bitsN
      rw [Nat.shiftRight_eq_div_pow]
      have a : i / 40960 ≤ 7 := by omega
      have b : i / 10240 % 4 ≤ 3 := by omega
      generalize i / 40960 = u at *
      generalize i / 10240 % 4 = v at *
      have c : v * 16384 + u * 65536 + i % 10240 < 524288 := by omega
      generalize v * 16384 + u * 65536 + i % 10240 = x at *
      have e : x / 2 ^ 17 < 4 := by omega
      generalize x / 2 ^ 17 = y at *
      omega
    simp only [this, beq_self_eq_true]
  unfold Dev.clusterFree
  rw [h]
  unfold full
  rw [List.length_map, List.length_range]
  decide +kernel
theorem full_none : in1.dev.clusterFree (in1.dev.portCluster 1022) = 0 := by
  rw [show in1.dev.portCluster 1022 = 0 by decide +kernel]
  exact full_cluster _
theorem full_crossed : in9.dev.clusterFree (vq.egress / 8) = 0 := full_cluster _

theorem witness_FrameAdmission :
    (AtAdmission in1.dev 3 (fr id) 1022 15 ∧ in1.dev.clusterFree (in1.dev.portCluster 1022) = 0) ∧
    (AtAdmission in2.dev 3 (fr id) 1022 15 ∧ in2.dev.clusterFree (in2.dev.portCluster 1022) ≠ 0 ∧ in2.dev.pgVerdict (fr id).port (wbits (in2.dev.rget RegName.BUF_PORT [(fr id).port]) (3 * ((fr id).vec.disp.fget 3 % 16) + 2) (3 * ((fr id).vec.disp.fget 3 % 16))) ((fr id).vec.disp.fget 8) (in2.dev.fbit F.BUF_IPG_A.LOSSLESS [(fr id).port, wbits (in2.dev.rget RegName.BUF_PORT [(fr id).port]) (3 * ((fr id).vec.disp.fget 3 % 16) + 2) (3 * ((fr id).vec.disp.fget 3 % 16))]) = Verdict.refused ∧ in2.dev.fbit F.BUF_IPG_A.LOSSLESS [(fr id).port, wbits (in2.dev.rget RegName.BUF_PORT [(fr id).port]) (3 * ((fr id).vec.disp.fget 3 % 16) + 2) (3 * ((fr id).vec.disp.fget 3 % 16))] = true) ∧
    (AtAdmission in3.dev 3 (fr id) 1022 15 ∧ in3.dev.clusterFree (in3.dev.portCluster 1022) ≠ 0 ∧ in3.dev.pgVerdict (fr id).port (wbits (in3.dev.rget RegName.BUF_PORT [(fr id).port]) (3 * ((fr id).vec.disp.fget 3 % 16) + 2) (3 * ((fr id).vec.disp.fget 3 % 16))) ((fr id).vec.disp.fget 8) (in3.dev.fbit F.BUF_IPG_A.LOSSLESS [(fr id).port, wbits (in3.dev.rget RegName.BUF_PORT [(fr id).port]) (3 * ((fr id).vec.disp.fget 3 % 16) + 2) (3 * ((fr id).vec.disp.fget 3 % 16))]) = Verdict.refused ∧ in3.dev.fbit F.BUF_IPG_A.LOSSLESS [(fr id).port, wbits (in3.dev.rget RegName.BUF_PORT [(fr id).port]) (3 * ((fr id).vec.disp.fget 3 % 16) + 2) (3 * ((fr id).vec.disp.fget 3 % 16))] = false) ∧
    (AtAdmission in4.dev 3 (fr id) 1022 15 ∧ in4.dev.clusterFree (in4.dev.portCluster 1022) ≠ 0 ∧ in4.dev.pgVerdict (fr id).port (wbits (in4.dev.rget RegName.BUF_PORT [(fr id).port]) (3 * ((fr id).vec.disp.fget 3 % 16) + 2) (3 * ((fr id).vec.disp.fget 3 % 16))) ((fr id).vec.disp.fget 8) (in4.dev.fbit F.BUF_IPG_A.LOSSLESS [(fr id).port, wbits (in4.dev.rget RegName.BUF_PORT [(fr id).port]) (3 * ((fr id).vec.disp.fget 3 % 16) + 2) (3 * ((fr id).vec.disp.fget 3 % 16))]) ≠ Verdict.refused ∧ in4.dev.fbit F.BUF_IPG_A.LOSSLESS [(fr id).port, wbits (in4.dev.rget RegName.BUF_PORT [(fr id).port]) (3 * ((fr id).vec.disp.fget 3 % 16) + 2) (3 * ((fr id).vec.disp.fget 3 % 16))] = false ∧ in4.dev.queueOk ((fr id).vec.disp.fget 8) (1022, 15) = false) ∧
    (AtAdmission in5.dev 3 (fr id) 1022 15 ∧ in5.dev.clusterFree (in5.dev.portCluster 1022) ≠ 0 ∧ in5.dev.pgVerdict (fr id).port (wbits (in5.dev.rget RegName.BUF_PORT [(fr id).port]) (3 * ((fr id).vec.disp.fget 3 % 16) + 2) (3 * ((fr id).vec.disp.fget 3 % 16))) ((fr id).vec.disp.fget 8) (in5.dev.fbit F.BUF_IPG_A.LOSSLESS [(fr id).port, wbits (in5.dev.rget RegName.BUF_PORT [(fr id).port]) (3 * ((fr id).vec.disp.fget 3 % 16) + 2) (3 * ((fr id).vec.disp.fget 3 % 16))]) ≠ Verdict.refused ∧ in5.dev.fbit F.BUF_IPG_A.LOSSLESS [(fr id).port, wbits (in5.dev.rget RegName.BUF_PORT [(fr id).port]) (3 * ((fr id).vec.disp.fget 3 % 16) + 2) (3 * ((fr id).vec.disp.fget 3 % 16))] = false ∧ in5.dev.queueOk ((fr id).vec.disp.fget 8) (1022, 15) = true ∧ in5.dev.poolFull ((fr id).vec.disp.fget 8) = true) ∧
    (AtAdmission in6.dev 3 (fr id) 1022 15 ∧ in6.dev.clusterFree (in6.dev.portCluster 1022) ≠ 0 ∧ in6.dev.pgVerdict (fr id).port (wbits (in6.dev.rget RegName.BUF_PORT [(fr id).port]) (3 * ((fr id).vec.disp.fget 3 % 16) + 2) (3 * ((fr id).vec.disp.fget 3 % 16))) ((fr id).vec.disp.fget 8) (in6.dev.fbit F.BUF_IPG_A.LOSSLESS [(fr id).port, wbits (in6.dev.rget RegName.BUF_PORT [(fr id).port]) (3 * ((fr id).vec.disp.fget 3 % 16) + 2) (3 * ((fr id).vec.disp.fget 3 % 16))]) ≠ Verdict.refused ∧ (in6.dev.fbit F.BUF_IPG_A.LOSSLESS [(fr id).port, wbits (in6.dev.rget RegName.BUF_PORT [(fr id).port]) (3 * ((fr id).vec.disp.fget 3 % 16) + 2) (3 * ((fr id).vec.disp.fget 3 % 16))] = true ∨ in6.dev.queueOk ((fr id).vec.disp.fget 8) (1022, 15) = true ∧ in6.dev.poolFull ((fr id).vec.disp.fget 8) = false)) ∧
    (in7.dev.active = true ∧ in7.dev.buf.voq = [vq] ∧ vq.ingress < 32 ∧ vq.egress < 32 ∧ in7.dev.prs.frames = []) ∧
    (in8.dev.active = true ∧ in8.dev.buf.crossed = [vq, vq] ∧ vq.copies = [4] ∧ in8.dev.copy? 4 = some (cp id) ∧ (cp id).cellsDone = false ∧ (cp id).pg = some 8191 ∧ 8191 < 8192 ∧ (cp id).port < 1024 ∧ (cp id).queue < 20 ∧ (cp id).pool < 4 ∧ (∀ z ∈ in8.dev.buf.copies, z.bad = none) ∧ in8.dev.fbit F.BUF_IPG_A.LOSSLESS [8191 / 8, 8191 % 8] = false ∧ in8.dev.clusterFree (vq.egress / 8) ≠ 0 ∧ cellPtrOk 10239 = true ∧ cellCluster 10239 = vq.egress / 8 ∧ mget? in8.dev.buf.cells 10239 = none ∧ ((if (decide (in8.dev.pgCells 8191 < in8.dev.fget F.BUF_IPG_A.MIN [8191 / 8, 8191 % 8]) || decide (in8.dev.fget F.BUF_EQ_STAT.ONDIE [(cp id).port, (cp id).queue] < in8.dev.fget F.BUF_EQ.MIN [(cp id).port, (cp id).queue])) = true then CellCat.reserved else if (cp id).toHeadroom = true then CellCat.headroom else CellCat.shared) = CellCat.headroom → in8.dev.fget F.BUF_HDRM.USE [] < in8.dev.fget F.BUF_HDRM.SIZE [])) ∧
    (in9.dev.active = true ∧ in9.dev.buf.crossed = [vq, vq] ∧ vq.copies = [4] ∧ in9.dev.copy? 4 = some (cp id) ∧ (cp id).cellsDone = false ∧ (cp id).pg = some 8191 ∧ 8191 < 8192 ∧ (cp id).port < 1024 ∧ (cp id).queue < 20 ∧ (cp id).pool < 4 ∧ (∀ z ∈ in9.dev.buf.copies, z.bad = none) ∧ in9.dev.fbit F.BUF_IPG_A.LOSSLESS [8191 / 8, 8191 % 8] = false ∧ in9.dev.clusterFree (vq.egress / 8) = 0 ∧ (cp id).cells = [] ∧ (cp id).pages = [] ∧ (cp id).started = false) ∧
    (in10.dev.active = true ∧ in10.dev.copy? 4 = some (door id) ∧ (door id).atDoor = true ∧ in10.dev.behindSibling (door id) = false ∧ in10.dev.inForce = [] ∧ (door id).port < 1024 ∧ (door id).queue < 20 ∧ (in10.dev.fbit F.BUF_EQ.ECNEN [(door id).port, (door id).queue] = false ∨ in10.dev.depth16 (door id).port (door id).queue 4 < in10.dev.fget F.BUF_EQ.ECN_MIN [(door id).port, (door id).queue])) ∧
    (in11.dev.active = true ∧ in11.dev.copy? 4 = some (door id) ∧ (door id).atDoor = true ∧ in11.dev.behindSibling (door id) = false ∧ in11.dev.inForce = [] ∧ (door id).port < 1024 ∧ (door id).queue < 20 ∧ in11.dev.fbit F.BUF_EQ.ECNEN [(door id).port, (door id).queue] = true ∧ in11.dev.fget F.BUF_EQ.ECN_MIN [(door id).port, (door id).queue] ≤ in11.dev.depth16 (door id).port (door id).queue 4 ∧ in11.dev.fget F.BUF_EQ.ECN_MAX [(door id).port, (door id).queue] ≤ in11.dev.depth16 (door id).port (door id).queue 4 ∧ in11.dev.fget F.BUF_EQ.EMARK [(door id).port, (door id).queue] ≤ 5 ∧ (door id).vec.hv.markPos (in11.dev.fget F.BUF_EQ.EMARK [(door id).port, (door id).queue]) 0 = some 0 ∧ 0 < 511 ∧ ecnAt (door id).bytes 0 = some (4, 1) ∧ (1 = 1 ∨ 1 = 2)) ∧
    (in12.dev.active = true ∧ in12.dev.copy? 4 = some in12x3 ∧ in12x3.atDoor = true ∧ in12.dev.behindSibling in12x3 = false ∧ in12.dev.inForce = [] ∧ in12x3.port < 1024 ∧ in12x3.queue < 20 ∧ in12.dev.fbit F.BUF_EQ.ECNEN [in12x3.port, in12x3.queue] = true ∧ in12.dev.fget F.BUF_EQ.ECN_MIN [in12x3.port, in12x3.queue] ≤ in12.dev.depth16 in12x3.port in12x3.queue 4 ∧ in12.dev.fget F.BUF_EQ.ECN_MAX [in12x3.port, in12x3.queue] ≤ in12.dev.depth16 in12x3.port in12x3.queue 4 ∧ in12.dev.fget F.BUF_EQ.EMARK [in12x3.port, in12x3.queue] ≤ 5 ∧ in12x3.vec.hv.markPos (in12.dev.fget F.BUF_EQ.EMARK [in12x3.port, in12x3.queue]) 0 = some 0 ∧ 0 < 511 ∧ ecnAt in12x3.bytes 0 = some (4, 0) ∧ (0 = 0 ∧ in12.dev.fbit F.BUF_EQ.NONECT [in12x3.port, in12x3.queue] = true) ∧ in12x3.cells = [] ∧ in12x3.pages = []) := by
  and_intros <;> first | (guard_target = in1.dev.clusterFree (in1.dev.portCluster 1022) = 0; exact full_none) | (guard_target = in9.dev.clusterFree (vq.egress / 8) = 0; exact full_crossed) | decide +kernel

theorem witness_CellReturns :
    (in13.dev.active = true ∧ cellPtrOk ptrMax = true ∧ 255 < 256 ∧ mget? in13.dev.buf.cells ptrMax = some { inflight := true : CellSt } ∧ { inflight := true : CellSt }.inflight = true) ∧
    (in14.dev.active = true ∧ cellPtrOk ptrMax = true ∧ 255 < 256 ∧ mget? in14.dev.buf.cells ptrMax = some { : CellSt } ∧ { : CellSt }.inflight = false) ∧
    (in15.dev.active = true ∧ cellPtrOk ptrMax = true ∧ 255 < 256 ∧ mget? in15.dev.buf.cells ptrMax = none) := by
  and_intros <;> decide +kernel

theorem witness_BufferUpkeep :
    (in16.dev.active = true ∧ in16.dev.portUp 1023 = true ∧ in16.dev.fbit F.BUF_PORT.PFC_RX [1023] = false) ∧
    (in17.dev.active = true ∧ in17.dev.portUp 1023 = true ∧ in17.dev.fbit F.BUF_PORT.PFC_RX [1023] = true) ∧
    (in18.dev.active = true ∧ in18.dev.portUp 1023 = true) ∧
    (in19.dev.active = true ∧ 7 < 8 ∧ mget? in19.dev.buf.pause (1023 * 8 + 7) = some 5 ∧ 5 ≤ max 5 in19.dev.now) ∧
    (in20.dev.active = true ∧ 1023 < 1024 ∧ 7 < 8 ∧ mget? in20.dev.buf.pfcNext (8 * 1023 + 7) = some 5 ∧ 5 ≤ max 5 in20.dev.now ∧ in20.dev.fbit F.BUF_IPG_STAT.XOFF [1023, 7] = true ∧ in20.dev.fbitB F.BUF_PORT.PFC_TX [1023] = true ∧ in20.dev.portUp 1023 = true ∧ in20.dev.fgetB F.BUF_IPG_A.PRIMASK [1023, 7] ≠ 0) ∧
    (in21.dev.active = true ∧ 1023 < 1024 ∧ 19 < 20 ∧ mget? in21.dev.buf.heads (32 * 1023 + 19) = some hd ∧ (in21.dev.advanceTo 5).paused 1023 19 = false ∧ (in21.dev.advanceTo 5).shutNow 1023 19 = false ∧ in21.dev.fbit F.BUF_QAGE_CTL.EN [] = false) ∧
    (in22.dev.active = true ∧ 1023 < 1024 ∧ 19 < 20 ∧ mget? in22.dev.buf.heads (32 * 1023 + 19) = some hd ∧ (in22.dev.advanceTo 5).paused 1023 19 = false ∧ (in22.dev.advanceTo 5).shutNow 1023 19 = false ∧ in22.dev.fbit F.BUF_QAGE_CTL.EN [] = true ∧ us (atLeast1 (in22.dev.fget F.BUF_QAGE_CTL.LIMIT [])) < hd.age + ((in22.dev.advanceTo 5).now - hd.last) ∧ in22.dev.fbit F.BUF_EQ_STAT.STUCK [1023, 19] = false ∧ in22.dev.fbit F.BUF_QAGE_CTL.ACTION [] = false) ∧
    (in23.dev.active = true ∧ in23.dev.fbit F.BUF_AUD_CTL.EN [] = true ∧ in23.dev.buf.auditAt + ms 1 ≤ max (ms 1) in23.dev.now ∧ in23.dev.auditDiff = 0) ∧
    (in24.dev.active = true ∧ in24.dev.fbit F.BUF_AUD_CTL.EN [] = true ∧ in24.dev.buf.auditAt + ms 1 ≤ max (ms 1) in24.dev.now ∧ in24.dev.auditDiff ≠ 0 ∧ atLeast1 (in24.dev.fget F.BUF_AUD_CTL.PERSIST []) ≤ in24.dev.buf.auditMiss + 1 ∧ in24.dev.buf.walk = none) ∧
    (in25.dev.up = true ∧ in25.dev.buf.walk = none) ∧
    (in26.dev.active = true ∧ in26.dev.buf.walk = some 5 ∧ (List.map (fun x ↦ x.1) (List.filter (fun x ↦ !x.2.inflight && decide (x.2.since ≤ 5) && !in26.dev.buf.copies.any fun c ↦ c.cells.contains x.1) in26.dev.buf.cells)).length < 2 ^ 21 ∧ in26.dev.fbit F.BUF_AUD_CTL.RECLAIM [] = false) ∧
    (in27.dev.active = true ∧ in27.dev.buf.walk = some 5 ∧ (List.map (fun x ↦ x.1) (List.filter (fun x ↦ !x.2.inflight && decide (x.2.since ≤ 5) && !in27.dev.buf.copies.any fun c ↦ c.cells.contains x.1) in27.dev.buf.cells)).length < 2 ^ 21 ∧ in27.dev.fbit F.BUF_AUD_CTL.RECLAIM [] = true) := by
  and_intros <;> decide +kernel

theorem witness_HoldReleaseChecksLayout :
    (in28.dev.up = true ∧ in28.dev.reserve + in28.dev.fget F.BUF_HDRM.SIZE [] + (in28.dev.fget F.BUF_SP.SIZE [0] + in28.dev.fget F.BUF_SP.SIZE [1] + in28.dev.fget F.BUF_SP.SIZE [2] + in28.dev.fget F.BUF_SP.SIZE [3]) ≤ 1310720 - 8192) ∧
    (in29.dev.up = true ∧ in29.dev.reserve + in29.dev.fget F.BUF_HDRM.SIZE [] + (in29.dev.fget F.BUF_SP.SIZE [0] + in29.dev.fget F.BUF_SP.SIZE [1] + in29.dev.fget F.BUF_SP.SIZE [2] + in29.dev.fget F.BUF_SP.SIZE [3]) ≤ 1310720 - 8192 ∧ 1023 < 1024) ∧
    (in30.dev.up = true ∧ 1310720 - 8192 < in30.dev.reserve + in30.dev.fget F.BUF_HDRM.SIZE [] + (in30.dev.fget F.BUF_SP.SIZE [0] + in30.dev.fget F.BUF_SP.SIZE [1] + in30.dev.fget F.BUF_SP.SIZE [2] + in30.dev.fget F.BUF_SP.SIZE [3]) ∧ 1024 ≤ 1024) ∧
    (in31.dev.up = true ∧ (9223372036854775807#64).getLsbD 63 = false ∧ regDecode (RegName.BUF_CTL.addr []) = some (RegName.BUF_CTL, [])) ∧
    (in32.dev.up = true ∧ (9223372036854775807#64).getLsbD 63 = false ∧ 1023 < 1024 ∧ regDecode (RegName.BUF_PORT.addr [1023]) = some (RegName.BUF_PORT, [1023])) := by
  and_intros <;> decide +kernel

theorem witness_DynamicThresholds :
    (-7 ≤ (-7 : Int) ∧ -7 ≤ 3 ∧ thA.buf.voq = [] ∧ thA.buf.crossed = [] ∧ sext 4 (thA.fgetB F.BUF_EQ.ALPHA [1023, 19]) = -7) ∧
    (-7 ≤ (-7 : Int) ∧ -7 ≤ 3 ∧ thA.buf.voq = [] ∧ thA.buf.crossed = [] ∧ sext 4 (thA.fgetB F.BUF_IPG_A.ALPHA [1023, 7]) = -7) := by
  and_intros <;> decide +kernel

end W8

namespace W9

def p0 (d : Dev) : Dev := ((((d.fset F.LN_PSTAT.STATE [1023] 5).fset F.LN_PORT.SLICE [1023] 31).fset F.LN_PORT.SLOT [1023] 31).fset F.MAE_CTL.HOLD [31] 0).fset F.LN_PORT.EN [1023] 1
def cp (f : Copy → Copy) : Copy := f { id := 4, inPort := 1022, port := 1023, queue := 19, pg := some 8191, pool := 3, ended := true, enqueued := true, seg := .head, cellsDone := true, len := some 16384, bytes := List.replicate 60 7 }
def cs (x : Copy) (h : Dev → Dev) : State := sA fun d => h (p0 { d with buf := { d.buf with copies := [x] } })
def in1 : State := cs (cp id) id
def in2 : State := sA p0
def shut (d : Dev) : Dev := { d with shu := { d.shu with activeLen := [(slotKey 31 31, 1)] }, cyc := { d.cyc with per := 2 ^ 44 } }
def due (f : Copy → Copy) : Copy := f (cp fun x => { x with selected := true, staged := true, estage := 12, vec := { disp := dispReset } })
def in3 : State := cs (due id) id
def in4 : State := cs (due id) fun d => shut (d.fset F.SHU_CTL.EN [31, 31] 1) |>.fset F.CYC_STATUS.STATE [] 2
def snd (f : Copy → Copy) : Copy := f (due fun x => { x with started := true, bad := some 3 })
def in5 : State := cs (snd id) fun d => d.fset F.LN_PORT.RATE [1023] 4
def in6 : State := cs (snd fun x => { x with frag := some 64 }) fun d => d.fset F.LN_PORT.RATE [1023] 4
def in6x1 : Copy := snd fun x => { x with frag := some 64 }
def shp (x : ShaperSt) (d : Dev) : Dev := { d with que := { d.que with shapers := [(shpKey 31 31 32, x)] } }
def in7 : State := sA (shp { entry := some 5 })
def in8 : State := sA fun d => let d := (shp { entry := some 5 }) d; { d with que := { d.que with released := [(31, 5, 32)] } }
def shx (e : Nat) : ShaperSt := { entry := some e }
def in9 : State := sA fun d => ((shp (shx (ns 8192))) d).fset F.SHP_STAT.WHEEL [31,31,32] 1
def in10 : State := sA fun d => ((shp (shx (ns 8193))) d).fset F.SHP_STAT.WHEEL [31,31,32] 1
def in11 : State := sA fun d => d.fset F.MTR_A.CBS [31, 65535] 5
def in12 : State := sA fun d => (d.fset F.PEP_RING.BASE [255] 2047).fset F.PEP_RING.SIZE [255] 1
def in13 : State := sA fun d => Dev.fset { d with que := { d.que with rings := [(255, [{ seq := 1, bytes := [1] }])] } } F.PEP_RING.EN [255] 1 |>.fset F.PEP_RING_STAT.USED [255] 1
def pp : PepPending := { slice := 31, ring := 255, kind := 0, bytes := List.replicate 64 1 }
def rg (b : Nat) (d : Dev) : Dev := Dev.fset { d with que := { d.que with pending := [pp, pp] } } F.PEP_RING.EN [255] b |>.fset F.PEP_RING.SIZE [255] 1
def in14 : State := sA (rg 1)
def in15 : State := sA (rg 0)
def in16 : State := sA p0
def cyc (d : Dev) : Dev := Dev.fset { d with cyc := { d.cyc with per := 2 ^ 44 } } F.CYC_STATUS.STATE [] 2
def mk (d : Dev) : Dev := (cyc (((shut d).fset F.SHU_CTL.EN [31, 31] 1).fset F.SHU_STAT.OPEN [31, 31] (2 ^ 19) |>.fset F.SHU_STAT.PARKED [31, 31] 0)).fset F.LN_PORT.RATE [1023] 4
def in17 : State := cs (snd id) mk
def in18 : State := sA id
def in19 : State := sA id
def in20 : State := sA id
def com (d : Dev) : Dev := d.fset F.SHU_CTL.COMMIT [31, 31] 1
def in21 : State := sA com
def se (n v : Nat) (d : Dev) : Dev := d.fset F.SHU_ENTRY.PHASE [31, 31, n] v
def len (n : Nat) (d : Dev) : Dev := d.fset F.SHU_CTL.LEN [31, 31] n
def in22 : State := sA fun d => com (len 2 (se 0 7 d))
def in23 : State := sA fun d => cyc (com (len 2 (se 1 7 d)))
def in24 : State := sA fun d => com (len 2 (se 1 7 d))
def in25 : State := sA fun d => (p0 d).fset F.SHU_STAT.PSTATE [31, 31] 1
def in26 : State := sA fun d => (p0 d).fset F.SHU_STAT.PSTATE [31, 31] 1

theorem witness_SchedulingAndTransmission :
    (in1.dev.active = true ∧ 1023 < 1024 ∧ 19 < 20 ∧ in1.dev.portSlot 1023 < 32 ∧ in1.dev.buf.copies = [cp id] ∧ (cp id).port = 1023 ∧ (cp id).queue = 19 ∧ (cp id).enqueued = true ∧ (cp id).seg = Seg.head ∧ (cp id).selected = false ∧ (cp id).started = false ∧ (cp id).domMsg = false ∧ (cp id).len = some 16384 ∧ 16384 ≤ 16384 ∧ (cp id).mirror = false ∧ in1.dev.inForce = [] ∧ in1.dev.portServes 1023 = true ∧ in1.dev.queueElig 1023 19 = true ∧ in1.dev.fbit F.SHU_CTL.EN (in1.dev.pIx 1023) = false ∧ (∀ k ≤ 32, in1.dev.fbit F.SHP_CFG.EN (in1.dev.pIx 1023 ++ [k]) = false) ∧ (∀ k < 32, 0 ≤ in1.dev.deficit 1023 k)) ∧
    (in2.dev.active = true ∧ in2.dev.buf.copies = []) ∧
    (in3.dev.active = true ∧ 1023 < 1024 ∧ (in3.dev.advanceTo 5).portServes 1023 = true ∧ (in3.dev.advanceTo 5).awake 1023 = true ∧ (in3.dev.advanceTo 5).dueCopy 1023 = some (due id) ∧ (in3.dev.advanceTo 5).sending 1023 = none ∧ (in3.dev.port 1023).release = [] ∧ (due id).started = false ∧ (due id).port = 1023 ∧ (in3.dev.advanceTo 5).txPlan (due id) = some none ∧ in3.dev.inForce = [] ∧ (due id).vec.disp.fget 7 = 0 ∧ in3.dev.fbit F.PEP_SAMP.EEN [1023] = false) ∧
    (in4.dev.active = true ∧ 1023 < 1024 ∧ (in4.dev.advanceTo 5).portServes 1023 = true ∧ (in4.dev.advanceTo 5).awake 1023 = true ∧ (in4.dev.advanceTo 5).dueCopy 1023 = some (due id) ∧ (in4.dev.advanceTo 5).sending 1023 = none ∧ (in4.dev.port 1023).release = [] ∧ (due id).started = false ∧ (due id).port = 1023 ∧ (in4.dev.advanceTo 5).txPlan (due id) = none ∧ (due id).queue < 20) ∧
    (in5.dev.active = true ∧ 1023 < 1024 ∧ in5.dev.portSlot 1023 < 32 ∧ in5.dev.sending 1023 = some (snd id) ∧ (snd id).port = 1023 ∧ (snd id).queue < 20 ∧ CellsNamed in5.dev ∧ (snd id).pages = [] ∧ (snd id).frag = none ∧ in5.dev.now ≤ us 1 ∧ (snd id).startTime + in5.dev.wireTime 1023 ((snd id).full.length + 4 - (snd id).sentBytes) ≤ us 1 ∧ (snd id).ended = true ∧ (snd id).cellsDone = true ∧ (snd id).fid = none ∧ (snd id).caps = [] ∧ in5.dev.portState 1023 ≠ 6) ∧
    (in6.dev.active = true ∧ 1023 < 1024 ∧ in6.dev.portSlot 1023 < 32 ∧ in6.dev.sending 1023 = some in6x1 ∧ in6x1.port = 1023 ∧ in6x1.queue < 20 ∧ CellsNamed in6.dev ∧ in6x1.pages = [] ∧ in6x1.frag = some 64 ∧ in6.dev.now ≤ us 1 ∧ in6x1.startTime + in6.dev.wireTime 1023 64 ≤ us 1) ∧
    (in7.dev.active = true ∧ 31 < 32 ∧ 31 < 32 ∧ 32 < 33 ∧ (in7.dev.shaper 31 31 32).entry = some 5 ∧ 5 ≤ (in7.dev.advanceTo 5).fab ∧ in7.dev.fbit F.SHP_STAT.WHEEL [31, 31, 32] = false ∧ in7.dev.shpReleased 31 5 < 32 ∧ 0 ≤ (in7.dev.advanceTo 5).shpCredit 31 31 32) ∧
    (in8.dev.active = true ∧ 31 < 32 ∧ 31 < 32 ∧ 32 < 33 ∧ (in8.dev.shaper 31 31 32).entry = some 5 ∧ 5 ≤ (in8.dev.advanceTo 5).fab ∧ in8.dev.fbit F.SHP_STAT.WHEEL [31, 31, 32] = false ∧ 32 ≤ in8.dev.shpReleased 31 5) ∧
    (in9.dev.active = true ∧ 31 < 32 ∧ 31 < 32 ∧ 32 < 33 ∧ in9.dev.que.shapers = [(shpKey 31 31 32, shx (ns 8192))] ∧ (shx (ns 8192)).entry = some (ns 8192) ∧ in9.dev.fbit F.SHP_STAT.WHEEL [31, 31, 32] = true ∧ ns 8192 < (in9.dev.advanceTo 5).fab + ns 8192) ∧
    (in10.dev.active = true ∧ 31 < 32 ∧ 31 < 32 ∧ 32 < 33 ∧ in10.dev.que.shapers = [(shpKey 31 31 32, shx (ns 8193))] ∧ (shx (ns 8193)).entry = some (ns 8193) ∧ in10.dev.fbit F.SHP_STAT.WHEEL [31, 31, 32] = true ∧ (in10.dev.advanceTo 5).fab + ns 8192 ≤ ns 8193) ∧
    (in11.dev.up = true ∧ 31 < 32 ∧ 65535 < 65536) := by
  and_intros <;> first | decide +kernel | exact cellsNamed_of (by decide +kernel)

theorem witness_RingsAndShutters :
    (in12.dev.up = true ∧ 255 < 256 ∧ in12.dev.fbit F.PEP_RING.EN [255] = false) ∧
    (in13.dev.up = true ∧ 255 < 256 ∧ in13.dev.que.draining = []) ∧
    (in14.dev.active = true ∧ in14.dev.que.pending = [pp, pp] ∧ pp.slice = 31 ∧ pp.ring < 256 ∧ in14.dev.fbit F.PEP_RING.EN [pp.ring] = true ∧ ringBytes (in14.dev.ring pp.ring) + pp.bytes.length ≤ in14.dev.ringSize pp.ring ∧ in14.dev.que.ringLost.contains pp.ring = false) ∧
    (in15.dev.active = true ∧ in15.dev.que.pending = [pp, pp] ∧ pp.slice = 31 ∧ pp.ring < 256 ∧ in15.dev.fbit F.PEP_RING.EN [pp.ring] = false) ∧
    (in16.dev.active = true ∧ 1023 < 1024 ∧ in16.dev.portSlot 1023 < 32 ∧ in16.dev.fbit F.LN_PORT.EN [1023] = true ∧ in16.dev.shu.skips = [] ∧ in16.dev.sending 1023 = none) ∧
    (in17.dev.active = true ∧ 1023 < 1024 ∧ in17.dev.portSlot 1023 < 32 ∧ in17.dev.fbit F.LN_PORT.EN [1023] = true ∧ in17.dev.shu.skips = [] ∧ in17.dev.sending 1023 = some (snd id) ∧ (snd id).queue < 20 ∧ in17.dev.preemptable 1023 (snd id).queue = false ∧ (snd id).overrun = false ∧ in17.dev.phaseValid = true ∧ (snd id).port = 1023 ∧ in17.dev.fbit F.SHU_STAT.PARKED (in17.dev.pIx 1023) = false ∧ bitN (in17.dev.fget F.SHU_STAT.OPEN (in17.dev.pIx 1023)) (snd id).queue = true ∧ bitN ((in17.dev.advanceTo 5).portMask 1023) (snd id).queue = false) ∧
    (in18.dev.up = true ∧ 31 < 32 ∧ 31 < 32) ∧
    (in19.dev.up = true ∧ 31 < 32 ∧ 31 < 32 ∧ 255 < 256 ∧ in19.dev.fbit F.SHU_CTL.COMMIT [31, 31] = false) ∧
    (in20.dev.up = true ∧ 31 < 32 ∧ 31 < 32 ∧ in20.dev.fbit F.SHU_CTL.COMMIT [31, 31] = false) ∧
    (in21.dev.up = true ∧ 31 < 32 ∧ 31 < 32 ∧ (255 < 256 ∨ 255 = 256 ∧ in21.dev.fget F.SHU_CTL.LEN [31, 31] ≠ wbits 18446744073709551615 8 0) ∧ in21.dev.fbit F.SHU_CTL.COMMIT [31, 31] = true ∧ in21.dev.shuArg 31 31 < 1024) ∧
    (in22.dev.active = true ∧ 31 < 32 ∧ 31 < 32 ∧ in22.dev.fbit F.SHU_CTL.COMMIT [31, 31] = true ∧ in22.dev.shu.checked.contains (32 * 31 + 31) = false ∧ 0 < 1 ∧ 1 < min 256 (in22.dev.fget F.SHU_CTL.LEN [31, 31]) ∧ in22.dev.fget F.SHU_ENTRY.PHASE [31, 31, 1] < in22.dev.fget F.SHU_ENTRY.PHASE [31, 31, 1 - 1] ∧ (∀ (j : ℕ), 0 < j → j < 1 → in22.dev.fget F.SHU_ENTRY.PHASE [31, 31, j - 1] ≤ in22.dev.fget F.SHU_ENTRY.PHASE [31, 31, j])) ∧
    (in23.dev.active = true ∧ 31 < 32 ∧ 31 < 32 ∧ in23.dev.fbit F.SHU_CTL.COMMIT [31, 31] = true ∧ in23.dev.shu.checked.contains (32 * 31 + 31) = false ∧ (∀ (j : ℕ), 0 < j → j < min 256 (in23.dev.fget F.SHU_CTL.LEN [31, 31]) → in23.dev.fget F.SHU_ENTRY.PHASE [31, 31, j - 1] ≤ in23.dev.fget F.SHU_ENTRY.PHASE [31, 31, j]) ∧ in23.dev.cycState ≠ 0) ∧
    (in24.dev.active = true ∧ 31 < 32 ∧ 31 < 32 ∧ in24.dev.fbit F.SHU_CTL.COMMIT [31, 31] = true ∧ in24.dev.shu.checked.contains (32 * 31 + 31) = false ∧ (∀ (j : ℕ), 0 < j → j < min 256 (in24.dev.fget F.SHU_CTL.LEN [31, 31]) → in24.dev.fget F.SHU_ENTRY.PHASE [31, 31, j - 1] ≤ in24.dev.fget F.SHU_ENTRY.PHASE [31, 31, j]) ∧ in24.dev.cycState = 0 ∧ in24.dev.slotPort 31 31 = none) ∧
    (in25.dev.active = true ∧ 1023 < 1024 ∧ in25.dev.portSlot 1023 < 32 ∧ in25.dev.portUp 1023 = true ∧ in25.dev.fget F.SHU_STAT.PSTATE (in25.dev.pIx 1023) = 1) ∧
    (in26.dev.active = true ∧ 1023 < 1024 ∧ in26.dev.portSlot 1023 < 32 ∧ in26.dev.portUp 1023 = true ∧ in26.dev.fget F.SHU_STAT.PSTATE (in26.dev.pIx 1023) = 1 ∧ mget 0 in26.dev.shu.verifyAt 1023 + ms 30 ≤ max (ms 30) in26.dev.now) := by
  and_intros <;> first | decide +kernel | (intro j a b; revert a; revert b; revert j; decide +kernel)

end W9

namespace W10

def cp (f : Copy → Copy) : Copy := f { id := 4, inPort := 1022, port := 1023, queue := 15, pg := some 8191, pool := 3, ended := true, enqueued := true, seg := .head, cellsDone := true, len := some 60, cells := [3], bytes := List.replicate 60 7 }
def spq (d : Dev) : Dev := ((d.fset F.SPL_Q.EN [1023, 15] 1).fset F.SPL_Q.HI [1023, 15] 0).fset F.BUF_EQ_STAT.ONDIE [1023, 15] 1
def ops (d : Dev) : Dev := (List.range 4).foldl (fun d k => ((d.fset F.SPL_CTL.EN [k] 1).fset F.SPL_CTL.HOLD [k] 0).fset F.SPL_STATUS.TRAINED [k] 1) d
def cs (x : Copy) (h : Dev → Dev) : State := sA fun d => h (spq { d with buf := { d.buf with copies := [x], cells := [(3, { copies := [4] })] } })
def okS : State := cs (cp id) ops
def pg0 : Nat := 1184
def okE : Dev := match okS.dev.pagesAlloc 1023 15 [pg0] with | .ok e => e | _ => dv .standby
def in2 : State := cs (cp id) fun d => ops (d.fset F.SPL_Q.PALPHA [1023, 15] 0 |>.fset F.SPL_GPOOL.SHARED_FREE [] 0)
def sp (f : Copy → Copy) : Copy := f (cp fun x => { x with seg := .spilling, pages := [pg0], pcells := [2] })
def in3 : State := cs (sp id) fun d => ops { d with spl := { d.spl with pages := [(pg0, {})] } }
def hd (n : Nat) (d : Dev) : Dev := (d.fset F.SPL_Q.HI [1023, 15] 100).fset F.SPL_Q.HEAD [1023, 15] n
def md (f : Copy → Copy) : Copy := f (sp fun x => { x with seg := .middle, cells := [] })
def in4 : State := cs (md id) fun d => hd 1 (ops { d with spl := { d.spl with pages := [(pg0, {})] } })
def in5 : State := cs (sp id) fun d => hd 1 (ops { d with spl := { d.spl with pages := [(pg0, {})] } })
def rt (f : Copy → Copy) : Copy := f (md fun x => { x with seg := .returning })
def in6 : State := cs (rt id) fun d => hd 1 (ops { d with spl := { d.spl with pages := [(pg0, {})] } })
def pm : Nat := 2 ^ 25 - 1
def pS (x : PageSt) : State := sA fun d => Dev.fset { d with spl := { d.spl with pages := [(pm, x)] } } F.SPL_POOL.INFLIGHT [3] 5
def in7 : State := pS { inflight := true }
def in8 : State := pS { }
def in9 : State := sA id
def stk (f : StackSt → StackSt) (d : Dev) : Dev := d.stackMod 3 f
def in10 : State := sA fun d => stk (fun x => { x with cache := 511 }) d |>.fset F.SPL_POOL.FREE [3] 1023
def in11 : State := sA fun d => d.fset F.SPL_CTL.HOLD [3] 1
def in12 : State := sA fun d => (List.range 4).foldl (fun d k => d.fset F.SPL_STATUS.RETIRED [k] 0xFFFFFFFF) (d.fset F.SPL_Q.EN [1023, 15] 1 |>.fset F.SPL_Q.PMIN [1023, 15] 5)
def in13 : State := sA fun d => d.fset F.SPL_AUD_CTL.EN [3] 1
def in14 : State := sA fun d => d.fset F.SPL_AUD_CTL.EN [3] 1 |>.fset F.SPL_POOL.FREE [3] 0 |>.fset F.SPL_AUD_CTL.PERSIST [3] 0
def in15 : State := sA id
def in16 : State := sA fun d => stk (fun x => { x with walk := some [pm] }) { d with spl := { d.spl with pages := [(pm, {})] } }
def rows (d : Dev) : Dev := stk (fun x => { x with rows := [(511, [true], some 3)] }) d
def in17 : State := sA rows
def srs (n : Nat) (d : Dev) : Dev := d.fset F.SPL_STATUS.SRSTATE [3] n
def in18 : State := sA fun d => (srs 0 d).fset F.SPL_CTL.SR_EN [3] 1 |>.fset F.SPL_CTL.SR_IDLE [3] 1
def in19 : State := sA fun d => (srs 3 (stk (fun x => { x with reqSince := some 0 }) d))
def in20 : State := sA id
def trn (d : Dev) : Dev := d.fset F.SPL_TRAIN.EN [3] 1 |>.fset F.SPL_TRAIN.PERIOD [3] 1 |>.fset F.SPL_TRAIN.MARGIN_MIN [3] 255
def in21 : State := sA trn
def in22 : State := sA fun d => (trn d).fset F.SPL_RETIRE.AUTO [3] 0
def in23 : State := sA id
def rtr : Retire := { pc := 31, start := 0 }
def in24 : State := sA (stk fun x => { x with retiring := some { pc := 0, start := 0 } })
def rd : Copy := rt fun x => { x with pages := [pm] }
def in25 : State := cs rd id
def in26 : State := sA fun d => stk (fun x => { x with retiring := some rtr }) { d with spl := { d.spl with pages := [(pm, { inflight := true })] } }

theorem witness_SpillPages :
    (okS.dev.active = true ∧ okS.dev.copy? 4 = some (cp id) ∧ (cp id).port < 1024 ∧ okS.dev.spilling (cp id).port (cp id).queue = true ∧ Option.map Copy.id (okS.dev.candidate (cp id).port (cp id).queue) = some 4 ∧ (cp id).cellsDone = true ∧ [pg0].length = ceilDiv ((cp id).cells.length + 1 - okS.dev.pageRoom (cp id).port (cp id).queue) 16 ∧ (okS.dev.roomFor Copy.writing (List.map (fun x ↦ x.2.1) (List.filter (fun x ↦ x.1 == 32 * (cp id).port + (cp id).queue && decide (0 < okS.dev.pageRoom (cp id).port (cp id).queue)) okS.dev.spl.fill) ++ [pg0]) (spreadCells ((cp id).cells.length + 1) ((if (List.map (fun x ↦ x.2.1) (List.filter (fun x ↦ x.1 == 32 * (cp id).port + (cp id).queue && decide (0 < okS.dev.pageRoom (cp id).port (cp id).queue)) okS.dev.spl.fill)).isEmpty = true then [] else [okS.dev.pageRoom (cp id).port (cp id).queue]) ++ List.map (fun _ ↦ 16) [pg0])) = true) ∧ okS.dev.pagesAlloc (cp id).port (cp id).queue [pg0] = PageRes.ok okE) ∧
    (in2.dev.active = true ∧ in2.dev.copy? 4 = some (cp id) ∧ (cp id).port < 1024 ∧ in2.dev.spilling (cp id).port (cp id).queue = true ∧ Option.map Copy.id (in2.dev.candidate (cp id).port (cp id).queue) = some 4 ∧ (cp id).cellsDone = true ∧ [pg0].length = ceilDiv ((cp id).cells.length + 1 - in2.dev.pageRoom (cp id).port (cp id).queue) 16 ∧ (in2.dev.roomFor Copy.writing (List.map (fun x ↦ x.2.1) (List.filter (fun x ↦ x.1 == 32 * (cp id).port + (cp id).queue && decide (0 < in2.dev.pageRoom (cp id).port (cp id).queue)) in2.dev.spl.fill) ++ [pg0]) (spreadCells ((cp id).cells.length + 1) ((if (List.map (fun x ↦ x.2.1) (List.filter (fun x ↦ x.1 == 32 * (cp id).port + (cp id).queue && decide (0 < in2.dev.pageRoom (cp id).port (cp id).queue)) in2.dev.spl.fill)).isEmpty = true then [] else [in2.dev.pageRoom (cp id).port (cp id).queue]) ++ List.map (fun _ ↦ 16) [pg0])) = true) ∧ in2.dev.pagesAlloc (cp id).port (cp id).queue [pg0] = PageRes.denied) ∧
    (in3.dev.active = true ∧ in3.dev.copy? 4 = some (sp id) ∧ (sp id).seg = Seg.spilling ∧ in3.dev.srActive (sp id).pages = true ∧ in3.dev.mayWrite (sp id).pages = true ∧ (∀ p ∈ (sp id).pages, in3.dev.pcOut (pageStack p) (pagePc p) = false)) ∧
    (in4.dev.active = true ∧ 15 < 16 ∧ (in4.dev.middle 1023 15).head? = some (md id) ∧ (List.map (fun x ↦ x.cells.length) (in4.dev.headSeg 1023 15)).sum < in4.dev.headTarget 1023 15 ∧ (md id).seg = Seg.middle ∧ (∀ x ∈ (md id).pages, in4.dev.pageLost x = false) ∧ in4.dev.roomFor Copy.reading (md id).pages (md id).pcells = true) ∧
    (in5.dev.active = true ∧ 15 < 16 ∧ (in5.dev.middle 1023 15).head? = some (sp id) ∧ (List.map (fun x ↦ x.cells.length) (in5.dev.headSeg 1023 15)).sum < in5.dev.headTarget 1023 15 ∧ (sp id).seg = Seg.spilling) ∧
    (in6.dev.active = true ∧ in6.dev.copy? 4 = some (rt id) ∧ (rt id).seg = Seg.returning ∧ in6.dev.srActive (rt id).pages = true ∧ (∀ x ∈ (rt id).pages, in6.dev.draining (pageStack x) (pagePc x) = false ∧ in6.dev.pageLost x = false) ∧ [10239].length = cellsOf ((rt id).len.getD (rt id).bytes.length) ∧ [10239].Nodup ∧ (∀ x ∈ [10239], cellPtrOk x = true ∧ cellCluster x = in6.dev.portCluster (rt id).port ∧ mget? in6.dev.buf.cells x = none)) ∧
    (in7.dev.active = true ∧ pm < 2 ^ 25 ∧ mget? in7.dev.spl.pages pm = some { inflight := true : PageSt } ∧ { inflight := true : PageSt }.inflight = true) ∧
    (in8.dev.active = true ∧ pm < 2 ^ 25 ∧ mget? in8.dev.spl.pages pm = some { : PageSt } ∧ { : PageSt }.inflight = false) ∧
    (in9.dev.active = true ∧ pm < 2 ^ 25 ∧ mget? in9.dev.spl.pages pm = none) ∧
    (in10.dev.active = true ∧ 3 < 4 ∧ in10.dev.spl.stk.length = 4 ∧ (in10.dev.stack 3).cache < 512 ∧ in10.dev.fget F.SPL_STATUS.SRSTATE [3] = 0 ∧ (in10.dev.stack 3).cache < in10.dev.fget F.SPL_POOL.FREE [3]) ∧
    (in11.dev.up = true ∧ 1023 < 1024 ∧ 15 < 16 ∧ (in11.dev.fbit F.SPL_Q.EN [1023, 15] = true ∨ in11.dev.qAccepts RegName.SPL_Q [1023, 15] = true) ∧ ((if in11.dev.qAccepts RegName.SPL_Q [1023, 15] = true then in11.dev.fset F.SPL_Q.EN [1023, 15] 1 else in11.dev).splReserve ≤ (List.map (fun k ↦ in11.dev.stackPool k) (List.range 4)).sum - 8192)) ∧
    (in12.dev.up = true ∧ 1023 < 1024 ∧ 15 < 16 ∧ (in12.dev.fbit F.SPL_Q.EN [1023, 15] = true ∨ in12.dev.qAccepts RegName.SPL_Q [1023, 15] = true) ∧ ((List.map (fun k ↦ in12.dev.stackPool k) (List.range 4)).sum - 8192 < (if in12.dev.qAccepts RegName.SPL_Q [1023, 15] = true then in12.dev.fset F.SPL_Q.EN [1023, 15] 1 else in12.dev).splReserve)) ∧
    (in13.dev.active = true ∧ 3 < 4 ∧ in13.dev.spl.stk.length = 4 ∧ in13.dev.fbit F.SPL_AUD_CTL.EN [3] = true ∧ (in13.dev.stack 3).auditAt + ms 1 ≤ max (ms 1) in13.dev.now ∧ in13.dev.pageDiff 3 = 0) ∧
    (in14.dev.active = true ∧ 3 < 4 ∧ in14.dev.spl.stk.length = 4 ∧ in14.dev.fbit F.SPL_AUD_CTL.EN [3] = true ∧ (in14.dev.stack 3).auditAt + ms 1 ≤ max (ms 1) in14.dev.now ∧ in14.dev.pageDiff 3 ≠ 0 ∧ atLeast1 (in14.dev.fget F.SPL_AUD_CTL.PERSIST [3]) ≤ (in14.dev.stack 3).auditMiss + 1 ∧ (in14.dev.stack 3).walk = none) ∧
    (in15.dev.up = true ∧ 3 < 4 ∧ in15.dev.spl.stk.length = 4 ∧ (in15.dev.stack 3).walk = none) ∧
    (in16.dev.active = true ∧ 3 < 4 ∧ in16.dev.spl.stk.length = 4 ∧ (in16.dev.stack 3).walk = some [pm] ∧ in16.dev.fbit F.SPL_AUD_CTL.RECLAIM [3] = false ∧ (List.filter (fun p ↦ (!in16.dev.buf.copies.any fun c ↦ c.pages.contains p) && match mget? in16.dev.spl.pages p with | some x => !x.inflight | none => false) [pm]).length < 2 ^ 24) ∧
    (in17.dev.active = true ∧ 3 < 4 ∧ Instr.refresh 3 511 ∈ [Instr.refresh 3 511, Instr.rowOpenTimeExpiry 3 511]) := by
  and_intros <;> decide +kernel

theorem witness_SpillStacks :
    (in18.dev.active = true ∧ 3 < 4 ∧ in18.dev.spl.stk.length = 4) ∧
    (in19.dev.active = true ∧ 3 < 4 ∧ in19.dev.spl.stk.length = 4 ∧ in19.dev.fget F.SPL_STATUS.SRSTATE [3] = 3 ∧ (in19.dev.stack 3).reqSince = some 0) ∧
    (in20.dev.up = true ∧ 3 < 4) ∧
    (in21.dev.active = true ∧ 3 < 4 ∧ 31 < 32 ∧ 255 < 256 ∧ in21.dev.spl.stk.length = 4 ∧ in21.dev.fbit F.SPL_TRAIN.EN [3] = true ∧ (mget? (in21.dev.stack 3).trainDue 31).getD 0 + ms (atLeast1 (in21.dev.fget F.SPL_TRAIN.PERIOD [3])) ≤ max (ms 1) in21.dev.now ∧ in21.dev.fget F.SPL_STATUS.SRSTATE [3] = 0 ∧ in21.dev.pcOut 3 31 = false ∧ in21.dev.drainGap 3 31 = true ∧ in21.dev.fget F.SPL_TRAIN.MARGIN_MIN [3] ≤ 255) ∧
    (in22.dev.active = true ∧ 3 < 4 ∧ 31 < 32 ∧ 254 < 256 ∧ in22.dev.spl.stk.length = 4 ∧ in22.dev.fbit F.SPL_TRAIN.EN [3] = true ∧ (mget? (in22.dev.stack 3).trainDue 31).getD 0 + ms (atLeast1 (in22.dev.fget F.SPL_TRAIN.PERIOD [3])) ≤ max (ms 1) in22.dev.now ∧ in22.dev.fget F.SPL_STATUS.SRSTATE [3] = 0 ∧ in22.dev.pcOut 3 31 = false ∧ in22.dev.drainGap 3 31 = true ∧ 254 < in22.dev.fget F.SPL_TRAIN.MARGIN_MIN [3] ∧ in22.dev.fbit F.SPL_RETIRE.AUTO [3] = false) ∧
    (in23.dev.up = true ∧ 3 < 4 ∧ 31 < 32 ∧ in23.dev.spl.stk.length = 4 ∧ in23.dev.pcOut 3 31 = false ∧ (in23.dev.stack 3).retireQ.contains 31 = false ∧ (in23.dev.stack 3).retiring = none) ∧
    (in24.dev.up = true ∧ 3 < 4 ∧ 31 < 32 ∧ in24.dev.spl.stk.length = 4 ∧ in24.dev.pcOut 3 31 = false ∧ (in24.dev.stack 3).retireQ.contains 31 = false ∧ (in24.dev.stack 3).retiring = some { pc := 0, start := 0 : Retire }) ∧
    (in25.dev.active = true ∧ 3 < 4 ∧ 31 < 32 ∧ in25.dev.spl.stk.length = 4 ∧ rd.port < 1024 ∧ rd.queue < 16 ∧ CellsNamed in25.dev ∧ List.filter (fun z ↦ z.reading && z.pages.any fun p ↦ pageStack p == 3 && pagePc p == 31) in25.dev.buf.copies = [rd]) ∧
    (in26.dev.active = true ∧ 3 < 4 ∧ in26.dev.spl.stk.length = 4 ∧ (in26.dev.stack 3).retiring = some rtr ∧ rtr.pc < 32 ∧ (in26.dev.stack 3).retireQ = [] ∧ (in26.dev.stack 3).silent.contains rtr.pc = false ∧ (∀ y ∈ in26.dev.spl.pages, pageStack y.1 = 3 → pagePc y.1 = rtr.pc → y.2.inflight = true ∨ y.2.orphan = true)) := by
  and_intros <;> first | decide +kernel | exact cellsNamed_of (by decide +kernel)

end W10

namespace W11

def pt (st mode : Nat) (f : PortSt → PortSt) (d : Dev) : Dev :=
  ((Dev.fset { d with lane := { d.lane with ports := [(5, {}), (1023, f {})] } } F.LN_PORT.EN [1023] 1).fset F.LN_PORT.SLICE [1023] 31).fset F.LN_PORT.SLOT [1023] 31
    |>.fset F.LN_PORT.MODE [1023] mode |>.fset F.LN_PSTAT.STATE [1023] st |>.fset F.LN_PORT.RATE [1023] 4 |>.fset F.LN_PORT.FLOOR [1023] 1 |>.fset F.LN_STATUS.PWR [1054] 2
def off (mode : Nat) (d : Dev) : Dev := (pt 0 mode id d).fset F.LN_PORT.EN [1023] 0
def in1 : State := sA fun d => (off 3 d).fset F.GLB_PROFILE.ROLE [] 3 |>.fset F.FAB_STK.EN [] 1
def in2 : State := sA fun d => (off 0 d).fset F.LN_PORT.FLOOR [1023] 7
def in3 : State := sA fun d => (off 1 d)
def in4 : State := sA (pt 5 3 id)
def in5 : State := sA (pt 1 0 id)
def in6 : State := sA (pt 1 0 id)
def in7 : State := sA (pt 1 0 id)
def in8 : State := sA fun d => (pt 2 0 (fun x => { x with rate := 4 }) d)
def in9 : State := sA fun d => (pt 2 1 (fun x => { x with rate := 4 }) d)
def in10 : State := sA fun d => (pt 2 0 (fun x => { x with rate := 4, partner := some { rates := [1, 3] } }) d)
def in11 : State := sA fun d => (pt 2 3 (fun x => { x with rate := 1, partner := some { rates := [1, 3] } }) d)
def in12 : State := sA fun d => (pt 2 3 (fun x => { x with retryAt := some 5 }) d)
def in13 : State := sA (pt 3 3 id)
def in14 : State := sA (pt 4 3 id)
def in15 : State := sA (pt 4 1 id)
def in16 : State := sA (pt 4 1 fun x => { x with resume := true })
def in17 : State := sA (pt 5 1 id)
def in18 : State := sA (pt 5 3 id)
def in19 : State := sA (pt 5 3 id)
def in20 : State := sA (pt 5 3 id)
def in21 : State := sA (pt 2 3 id)
def in22 : State := sA (pt 2 3 id)
def in23 : State := sA (pt 2 3 id)
def in24 : State := sA (pt 6 3 id)
def in25 : State := sA (pt 7 3 id)

theorem witness_PortStates :
    (in1.dev.up = true ∧ 1023 < 1024 ∧ in1.dev.fbit F.LN_PORT.EN [1023] = false ∧ (in1.dev.portMode 1023 = 3 ∧ in1.dev.role = 3 ∧ in1.dev.fbit F.FAB_STK.EN [] = true)) ∧
    (in2.dev.up = true ∧ 1023 < 1024 ∧ in2.dev.fbit F.LN_PORT.EN [1023] = false ∧ (¬(in2.dev.portMode 1023 = 3 ∧ in2.dev.role = 3 ∧ in2.dev.fbit F.FAB_STK.EN [] = true)) ∧ in2.dev.portOk 1023 = false) ∧
    (in3.dev.up = true ∧ 1023 < 1024 ∧ in3.dev.fbit F.LN_PORT.EN [1023] = false ∧ (¬(in3.dev.portMode 1023 = 3 ∧ in3.dev.role = 3 ∧ in3.dev.fbit F.FAB_STK.EN [] = true)) ∧ in3.dev.portOk 1023 = true ∧ in3.dev.sliceDown (in3.dev.portSlice 1023) = false) ∧
    (in4.dev.up = true ∧ 1023 < 1024 ∧ in4.dev.fbit F.LN_PORT.EN [1023] = true) ∧
    (in5.dev.active = true ∧ 1023 < 1024 ∧ in5.dev.portState 1023 = 1 ∧ (in5.dev.port 1023).retryAt = none ∧ 3 ∈ in5.dev.ownRates 1023 ∧ 3 ∈ [0, 2, 3] ∧ (∀ x ∈ in5.dev.ownRates 1023, x ∈ [0, 2, 3] → x ≤ 3)) ∧
    (in6.dev.active = true ∧ 1023 < 1024 ∧ in6.dev.portState 1023 = 1 ∧ (in6.dev.port 1023).retryAt = none ∧ (∀ x ∈ in6.dev.ownRates 1023, x ∉ [0, 5])) ∧
    (in7.dev.active = true ∧ 1023 < 1024 ∧ in7.dev.portState 1023 = 1 ∧ (in7.dev.port 1023).retryAt = none ∧ (in7.dev.port 1023).since + sec 3 ≤ max (sec 3) in7.dev.now) ∧
    (in8.dev.active = true ∧ 1023 < 1024 ∧ in8.dev.portState 1023 = 2 ∧ (in8.dev.port 1023).retryAt = none ∧ (in8.dev.port 1023).rate < 8 ∧ in8.dev.sparingOf (in8.dev.portSlice 1023) = none ∧ [0].length = in8.dev.portLanes 1023 ∧ in8.dev.lanesOn (in8.dev.portLaneList 1023) = true ∧ (∀ n ∈ in8.dev.portLaneList 1023, in8.dev.fget F.LN_STATUS.FAULT [n] = 0) ∧ (in8.dev.fbit F.LN_PSTAT.JOINED [1023] = true → ∀ x ∈ (in8.dev.portLaneList 1023).zip [0], in8.dev.fget F.LN_ADAPT.MARGIN_MIN [x.1] ≤ x.2)) ∧
    (in9.dev.active = true ∧ 1023 < 1024 ∧ in9.dev.portState 1023 = 2 ∧ (in9.dev.port 1023).retryAt = none ∧ (in9.dev.port 1023).fullTrain = false ∧ (in9.dev.port 1023).since + ms (10 * atLeast1 (in9.dev.fget F.LN_PCTL.TRAIN_TMO [1023])) ≤ max (sec 6) in9.dev.now ∧ (in9.dev.portMode 1023 = 1 ∨ in9.dev.portMode 1023 = 2)) ∧
    (in10.dev.active = true ∧ 1023 < 1024 ∧ in10.dev.portState 1023 = 2 ∧ (in10.dev.port 1023).retryAt = none ∧ (in10.dev.port 1023).fullTrain = false ∧ (in10.dev.port 1023).since + ms (10 * atLeast1 (in10.dev.fget F.LN_PCTL.TRAIN_TMO [1023])) ≤ max (sec 6) in10.dev.now ∧ (in10.dev.portMode 1023 = 0 ∨ in10.dev.portMode 1023 = 3) ∧ (in10.dev.port 1023).noAn = false ∧ in10.dev.commonBelow 1023 (in10.dev.port 1023).rate = some 3) ∧
    (in11.dev.active = true ∧ 1023 < 1024 ∧ in11.dev.portState 1023 = 2 ∧ (in11.dev.port 1023).retryAt = none ∧ (in11.dev.port 1023).fullTrain = false ∧ (in11.dev.port 1023).since + ms (10 * atLeast1 (in11.dev.fget F.LN_PCTL.TRAIN_TMO [1023])) ≤ max (sec 6) in11.dev.now ∧ (in11.dev.portMode 1023 = 0 ∨ in11.dev.portMode 1023 = 3) ∧ (in11.dev.port 1023).noAn = false ∧ in11.dev.commonBelow 1023 (in11.dev.port 1023).rate = none) ∧
    (in12.dev.active = true ∧ 1023 < 1024 ∧ (in12.dev.port 1023).retryAt = some 5 ∧ 5 ≤ max 5 in12.dev.now) ∧
    (in13.dev.active = true ∧ 1023 < 1024 ∧ in13.dev.portState 1023 = 3) ∧
    (in14.dev.active = true ∧ 1023 < 1024 ∧ PortsNamed in14.dev ∧ in14.dev.portState 1023 = 4 ∧ in14.dev.sliceDown (in14.dev.portSlice 1023) = false ∧ in14.dev.lanesOn (in14.dev.portLaneList 1023) = true) ∧
    (in15.dev.active = true ∧ 1023 < 1024 ∧ in15.dev.portState 1023 = 4 ∧ (in15.dev.port 1023).resume = false ∧ (in15.dev.port 1023).since + ms 10 ≤ max (ms 10) in15.dev.now ∧ in15.dev.sliceDown (in15.dev.portSlice 1023) = false) ∧
    (in16.dev.active = true ∧ 1023 < 1024 ∧ in16.dev.portState 1023 = 4 ∧ (in16.dev.port 1023).resume = true ∧ (in16.dev.port 1023).since + us 800 ≤ max (us 800) in16.dev.now) ∧
    (in17.dev.active = true ∧ 1023 < 1024 ∧ in17.dev.portUp 1023 = true ∧ in17.dev.arriving 1023 = none ∧ in17.dev.sliceDown (in17.dev.portSlice 1023) = false) ∧
    (in18.dev.up = true ∧ 1023 < 1024 ∧ in18.dev.portUp 1023 = true ∧ in18.dev.arriving 1023 = none) ∧
    (in19.dev.up = true ∧ 1023 < 1024 ∧ in19.dev.portUp 1023 = true ∧ in19.dev.arriving 1023 = none ∧ 3 % 4 ≠ 0) ∧
    (in20.dev.up = true ∧ 1023 < 1024 ∧ in20.dev.portUp 1023 = true ∧ in20.dev.arriving 1023 = none) ∧
    (in21.dev.up = true ∧ 1023 < 1024 ∧ in21.dev.portUp 1023 = false ∧ 3 % 4 ≠ 0) ∧
    (in22.dev.up = true ∧ 1023 < 1024 ∧ in22.dev.portUp 1023 = false) ∧
    (in23.dev.up = true ∧ 1023 < 1024 ∧ in23.dev.portUp 1023 = false) ∧
    (in24.dev.up = true ∧ 1023 < 1024 ∧ in24.dev.portUp 1023 = false ∧ in24.dev.portState 1023 = 6 ∧ in24.dev.sliceDown (in24.dev.portSlice 1023) = false) ∧
    (in25.dev.up = true ∧ 1023 < 1024 ∧ in25.dev.portUp 1023 = false ∧ in25.dev.portState 1023 = 7 ∧ in25.dev.sliceHeld (in25.dev.portSlice 1023) = false) := by
  and_intros <;> first | decide +kernel | (unfold PortsNamed; decide +kernel)

end W11

namespace W12

def pt (st mode : Nat) (f : PortSt → PortSt) (d : Dev) : Dev :=
  ((Dev.fset { d with lane := { d.lane with ports := [(5, {}), (1023, f {})] } } F.LN_PORT.EN [1023] 1).fset F.LN_PORT.SLICE [1023] 31).fset F.LN_PORT.SLOT [1023] 31
    |>.fset F.LN_PORT.MODE [1023] mode |>.fset F.LN_PSTAT.STATE [1023] st |>.fset F.LN_PORT.RATE [1023] 4 |>.fset F.LN_PORT.FLOOR [1023] 1 |>.fset F.LN_STATUS.PWR [1054] 2
def up : Dev → Dev := pt 5 3 id
def ln (f : LaneSt → LaneSt) (d : Dev) : Dev := (d.laneMod 1054 f)
def in1 : State := sA fun d => (up d).fset F.LN_ADAPT.FREEZE_EN [1054] 1
def in2 : State := sA fun d => (up d).fset F.LN_ADAPT.SNAP_INT [1054] 0 |>.fset F.LN_STATUS.MARGIN [1054] 255
def in3 : State := sA fun d => (up d).fset F.LN_STATUS.SNAP_MARGIN [1054] 255 |>.fset F.LN_ADAPT.DRIFT_LIM [1054] 5
def in4 : State := sA fun d => (ln (fun x => { x with lowCount := 3 }) (up d)).fset F.LN_STATUS.SNAP_MARGIN [1054] 255 |>.fset F.LN_ADAPT.DRIFT_LIM [1054] 5
def spr (d : Dev) : Dev := (pt 5 3 (fun x => { x with partner := some { wired := true } }) d).fset F.LN_PSTAT.JOINED [1023] 1 |>.fset F.LN_SPARE.WIRED [31] 1 |>.fset F.LN_SPARE.AUTO [31] 1 |>.fset F.LN_SPARE.SER_LIM [31] 3
def in5 : State := sA spr
def in6 : State := sA spr
def jn (d : Dev) : Dev := (up d).fset F.LN_PSTAT.JOINED [1023] 1
def in7 : State := sA fun d => (jn d).fset F.LN_PCTL.QTX_EN [1023] 1 |>.fset F.LN_PCTL.QIDLE [1023] 0
def tq (f : PortSt → PortSt) (d : Dev) : Dev := (pt 5 3 f d).fset F.LN_PSTAT.TXQ [1023] 1
def selc : Copy := { id := 4, inPort := 1022, port := 1023, queue := 19, selected := true, enqueued := true }
def in8 : State := sA fun d => { tq id d with buf := { d.buf with copies := [selc] } }
def wnd (d : Dev) : Dev := Dev.fset { tq id d with shu := { d.shu with activeLen := [(slotKey 31 31, 2)], active := [(256 * slotKey 31 31 + 1, BitVec.ofNat 64 (0xFFFFF * 2 ^ 32 + 1))] }, buf := { d.buf with copies := [{ selc with selected := false, seg := .head }] }, cyc := { d.cyc with per := 2 ^ 44 } } F.SHU_CTL.EN [31, 31] 1 |>.fset F.CYC_STATUS.STATE [] 2
def in9 : State := sA wnd
def in10 : State := sA (tq fun x => { x with waking := some 5 })
def in11 : State := sA (tq id)
def in12 : State := sA fun d => (up d).fset F.LN_PCTL.QRX_EN [1023] 1
def in13 : State := sA fun d => (up d).fset F.LN_PSTAT.RXQ [1023] 1 |>.fset F.LN_STATUS.FROZEN [1054] 1
def in14 : State := sA fun d => { up d with lane := { (up d).lane with groupOn := [(65, 7)] } }
def in15 : State := sA id
def in16 : State := sA up
def in17 : State := sA spr
def in18 : State := sA fun d => d.fset F.LN_STATUS.FAULT [1055] 31
def in19 : State := sA fun d => (pt 4 3 id d).fset F.LN_STATUS.FAULT [1054] 16
def in20 : State := sA spr
def sg (f : Sparing → Sparing) (d : Dev) : Dev := { spr d with lane := { (spr d).lane with sparing := [(31, f { target := 31, port := 1023, start := 0 })] } } |>.fset F.LN_SPARE.STATE [31] 1
def sgx (m : Option Nat) : Sparing := { target := 31, port := 1023, start := 0, moveAt := m }
def in21 : State := sA (sg id)
def in22 : State := sA (sg fun x => { x with moveAt := some 5 })
def inj (m : Nat) (d : Dev) : Dev := (up d).fset F.INJ_CTL.MODE [1023] m
def in23 : State := sA fun d => { inj 1 d with fuses := { d.fuses with deadbolt := true } }
def in24 : State := sA (inj 6)
def in25 : State := sA (inj 4)
def hcp (n : Nat) : Copy := { selc with id := n, held := true, estage := 12, ended := true, bytes := List.replicate 60 7 }
def in26 : State := sA fun d => { pt 5 3 (fun x => { x with held := [4, 7], release := [3] }) d with buf := { d.buf with copies := [hcp 4, hcp 7] } } |>.fset F.INJ_CTL.EN [1023] 1
def icp : Copy := { hcp 4 with held := false, inPort := 1022 }
def injS (m : Nat) (h : Dev → Dev) : State := sA fun d => h ({ inj m d with buf := { d.buf with copies := [icp] } } |>.fset F.INJ_CTL.EN [1023] 1 |>.fset F.INJ_CTL.K [1023] 0)
def in27 : State := injS 1 fun d => d.fset F.INJ_CTL.PEN [1023] 1 |>.fset F.INJ_MATCH_M.BYTES [1023] 1
def in28 : State := injS 1 id
def in29 : State := injS 2 fun d => d.fset F.INJ_CTL.MOFF [1023] 511 |>.fset F.INJ_CTL.OFF [1023] 511
def in30 : State := injS 3 id
def in31 : State := injS 4 fun d => d.fset F.INJ_CTL.DELAY [1023] 65535
def hu (h : List Nat) (m : Nat) (cs : List Copy) (d : Dev) : Dev := { pt 5 3 (fun x => { x with held := h, release := [3], heldUntil := some 5 }) d with buf := { d.buf with copies := cs } } |>.fset F.INJ_CTL.EN [1023] 1 |>.fset F.INJ_CTL.MODE [1023] m
def in32 : State := sA (hu [4, 7] 3 [hcp 4, hcp 7])
def in33 : State := sA (hu [4] 4 [icp])
def in34 : State := sA fun d => (inj 5 d).fset F.INJ_CTL.EN [1023] 1 |>.fset F.INJ_CTL.K [1023] 0

theorem witness_LaneCareAndSparing :
    (in1.dev.active = true ∧ 1023 < 1024 ∧ in1.dev.portUp 1023 = true ∧ in1.dev.arriving 1023 = none ∧ (in1.dev.port 1023).lastRx + in1.dev.codewords 1023 4096 ≤ max (sec 1) in1.dev.now) ∧
    (in2.dev.active = true ∧ 1054 < 1056 ∧ in2.dev.adapting 1054 = true ∧ (in2.dev.laneSt 1054).snapAt + ms (100 * atLeast1 (in2.dev.fget F.LN_ADAPT.SNAP_INT [1054])) ≤ max (ms 100) in2.dev.now ∧ in2.dev.fget F.LN_ADAPT.MARGIN_MIN [1054] ≤ in2.dev.fget F.LN_STATUS.MARGIN [1054]) ∧
    (in3.dev.active = true ∧ 1054 < 1056 ∧ in3.dev.adapting 1054 = true ∧ 250 < 256 ∧ (in3.dev.laneSt 1054).afterRevert = none ∧ in3.dev.fget F.LN_STATUS.SNAP_MARGIN [1054] ≤ 250 + in3.dev.fget F.LN_ADAPT.DRIFT_LIM [1054]) ∧
    (in4.dev.active = true ∧ 1054 < 1056 ∧ in4.dev.adapting 1054 = true ∧ 249 < 256 ∧ (in4.dev.laneSt 1054).afterRevert = none ∧ 249 + in4.dev.fget F.LN_ADAPT.DRIFT_LIM [1054] < in4.dev.fget F.LN_STATUS.SNAP_MARGIN [1054] ∧ (in4.dev.laneSt 1054).lowCount = 3) ∧
    (in5.dev.active = true ∧ 1054 < 1056 ∧ in5.dev.portOfLane 1054 = some 1023 ∧ in5.dev.portUp 1023 = true ∧ (8 ≤ 2 ^ in5.dev.fget F.LN_SPARE.SER_LIM [1054 / 33] ∨ false = true ∨ in5.dev.fbit F.LN_SPARE.AUTO [1054 / 33] = false)) ∧
    (in6.dev.active = true ∧ 1054 < 1056 ∧ in6.dev.portOfLane 1054 = some 1023 ∧ in6.dev.portUp 1023 = true ∧ 2 ^ in6.dev.fget F.LN_SPARE.SER_LIM [1054 / 33] < 9 ∧ false = false ∧ in6.dev.fbit F.LN_SPARE.AUTO [1054 / 33] = true ∧ in6.dev.sliceRepairing (1054 / 33) = false ∧ in6.dev.maySpare 1054 = true ∧ in6.dev.lanePort 1054 = some 1023) ∧
    (in7.dev.active = true ∧ 1023 < 1024 ∧ in7.dev.mayQuiet 1023 = true ∧ in7.dev.fbit F.LN_PCTL.QTX_EN [1023] = true ∧ (in7.dev.port 1023).lastSel + ns (100 * atLeast1 (in7.dev.fget F.LN_PCTL.QIDLE [1023])) ≤ max (ns 100) in7.dev.now) ∧
    (in8.dev.active = true ∧ 1023 < 1024 ∧ in8.dev.fbit F.LN_PSTAT.TXQ [1023] = true ∧ (in8.dev.port 1023).waking = none ∧ ((in8.dev.outstanding 1023).isSome = true ∨ in8.dev.releaseList 1023 ≠ [])) ∧
    (in9.dev.active = true ∧ 1023 < 1024 ∧ in9.dev.fbit F.LN_PSTAT.TXQ [1023] = true ∧ (in9.dev.port 1023).waking = none ∧ (in9.dev.advanceTo 0).shuttered 1023 = true ∧ (in9.dev.advanceTo 0).phaseValid = true ∧ (∃ q < 20, (in9.dev.advanceTo 0).headSeg 1023 q ≠ [] ∧ ∃ x, (in9.dev.advanceTo 0).toOpening 1023 q = some x ∧ x ≤ us 1)) ∧
    (in10.dev.active = true ∧ 1023 < 1024 ∧ in10.dev.fbit F.LN_PSTAT.TXQ [1023] = true ∧ (in10.dev.port 1023).waking = some 5 ∧ 5 ≤ max 5 in10.dev.now) ∧
    (in11.dev.active = true ∧ 1023 < 1024 ∧ in11.dev.fbit F.LN_PSTAT.TXQ [1023] = true ∧ (in11.dev.port 1023).lastRefresh + ms 1 ≤ max (ms 1) in11.dev.now) ∧
    (in12.dev.active = true ∧ 1023 < 1024 ∧ in12.dev.portUp 1023 = true ∧ in12.dev.fbit F.LN_PCTL.QRX_EN [1023] = true ∧ in12.dev.fbit F.LN_PSTAT.RXQ [1023] = false) ∧
    (in13.dev.active = true ∧ 1023 < 1024 ∧ in13.dev.portUp 1023 = true ∧ in13.dev.fbit F.LN_PSTAT.RXQ [1023] = true) ∧
    (in14.dev.active = true ∧ 65 < 66 ∧ (mget? in14.dev.lane.groupOn 65).isSome = true ∧ in14.dev.pwr.on.getLsbD 65 = true) ∧
    (in15.dev.active = true ∧ 1055 < 1056 ∧ 4 < 5 ∧ bitN (in15.dev.fget F.LN_STATUS.FAULT [1055]) 4 = false ∧ in15.dev.maySpare 1055 = false ∧ in15.dev.portOfLane 1055 = none) ∧
    (in16.dev.active = true ∧ 1054 < 1056 ∧ 4 < 5 ∧ bitN (in16.dev.fget F.LN_STATUS.FAULT [1054]) 4 = false ∧ 1023 < 1024 ∧ in16.dev.maySpare 1054 = false ∧ in16.dev.portOfLane 1054 = some 1023 ∧ in16.dev.portUp 1023 = true ∧ in16.dev.arriving 1023 = none ∧ in16.dev.sliceDown (in16.dev.portSlice 1023) = false) ∧
    (in17.dev.active = true ∧ 1054 < 1056 ∧ 4 < 5 ∧ bitN (in17.dev.fget F.LN_STATUS.FAULT [1054]) 4 = false ∧ 1023 < 1024 ∧ in17.dev.fbit F.LN_SPARE.AUTO [1054 / 33] = true ∧ in17.dev.maySpare 1054 = true ∧ in17.dev.lanePort 1054 = some 1023) ∧
    (in18.dev.active = true ∧ 1055 < 1056 ∧ 4 < 5 ∧ bitN (in18.dev.fget F.LN_STATUS.FAULT [1055]) 4 = true ∧ (in18.dev.laneSt 1055).faultAt + sec 1 ≤ max (sec 1) in18.dev.now ∧ in18.dev.portOfLane 1055 = none) ∧
    (in19.dev.active = true ∧ 1054 < 1056 ∧ 4 < 5 ∧ bitN (in19.dev.fget F.LN_STATUS.FAULT [1054]) 4 = true ∧ (in19.dev.laneSt 1054).faultAt + sec 1 ≤ max (sec 1) in19.dev.now ∧ 1023 < 1024 ∧ in19.dev.portOfLane 1054 = some 1023 ∧ in19.dev.portState 1023 < 5 ∧ in19.dev.sliceDown (in19.dev.portSlice 1023) = false) ∧
    (in20.dev.up = true ∧ 31 < 32 ∧ 31 < 32 ∧ 1023 < 1024 ∧ in20.dev.sliceRepairing 31 = false ∧ in20.dev.maySpare (33 * 31 + 31) = true ∧ in20.dev.lanePort (33 * 31 + 31) = some 1023) ∧
    (in21.dev.active = true ∧ 31 < 32 ∧ in21.dev.sparingOf 31 = some (sgx none) ∧ (sgx none).down = false ∧ (sgx none).restore = false ∧ (sgx none).target < 32 ∧ (sgx none).port < 1024 ∧ (sgx none).moveAt = none) ∧
    (in22.dev.active = true ∧ 31 < 32 ∧ in22.dev.sparingOf 31 = some (sgx (some 5)) ∧ (sgx (some 5)).down = false ∧ (sgx (some 5)).restore = false ∧ (sgx (some 5)).target < 32 ∧ (sgx (some 5)).port < 1024 ∧ (sgx (some 5)).moveAt = some 5 ∧ 5 ≤ (in22.dev.advanceTo 5).fab) := by
  and_intros <;> decide +kernel

theorem witness_FaultInjector :
    (in23.dev.up = true ∧ 1023 < 1024 ∧ in23.dev.fuses.deadbolt = true ∧ Instr.injectorEnable 1023 ∈ [Instr.injectorEnable 1023, Instr.injectorDisable 1023]) ∧
    (in24.dev.up = true ∧ 1023 < 1024 ∧ in24.dev.fuses.deadbolt = false ∧ in24.dev.fbit F.INJ_CTL.EN [1023] = false ∧ ((∃ q ∈ in24.dev.portList, q ≠ 1023 ∧ in24.dev.fbit F.INJ_CTL.EN [q] = true ∧ in24.dev.portSlice q = in24.dev.portSlice 1023) ∨ 6 ≤ in24.dev.fget F.INJ_CTL.MODE [1023] ∨ in24.dev.fget F.INJ_CTL.MODE [1023] = 5 ∧ in24.dev.portRs 1023 = false)) ∧
    (in25.dev.up = true ∧ 1023 < 1024 ∧ in25.dev.fuses.deadbolt = false ∧ in25.dev.fbit F.INJ_CTL.EN [1023] = false ∧ (∀ q ∈ in25.dev.portList, q ≠ 1023 → in25.dev.fbit F.INJ_CTL.EN [q] = true → in25.dev.portSlice q ≠ in25.dev.portSlice 1023) ∧ in25.dev.fget F.INJ_CTL.MODE [1023] < 6 ∧ (in25.dev.fget F.INJ_CTL.MODE [1023] = 5 → in25.dev.portRs 1023 = true)) ∧
    (in26.dev.up = true ∧ 1023 < 1024 ∧ in26.dev.fuses.deadbolt = false) ∧
    (in27.dev.active = true ∧ 1023 < 1024 ∧ in27.dev.atInjector 1023 1 = some icp ∧ in27.dev.injReady 1023 icp = true ∧ (1, Instr.injectDrop 1023) ∈ [(1, Instr.injectDrop 1023), (2, Instr.injectCorrupt 1023), (3, Instr.injectReorder 5 1023), (4, Instr.injectDelay 5 1023)] ∧ (in27.dev.port 1023).held = [] ∧ in27.dev.injMatch 1023 icp = false) ∧
    (in28.dev.active = true ∧ 1023 < 1024 ∧ in28.dev.atInjector 1023 1 = some icp ∧ in28.dev.injReady 1023 icp = true ∧ (1, Instr.injectDrop 1023) ∈ [(1, Instr.injectDrop 1023), (2, Instr.injectCorrupt 1023), (3, Instr.injectReorder 5 1023), (4, Instr.injectDelay 5 1023)] ∧ (in28.dev.port 1023).held = [] ∧ in28.dev.injMatch 1023 icp = true ∧ in28.dev.fget F.INJ_CTL.K [1023] = 0 ∧ 1 = 1 ∧ icp.port < 1024 ∧ CellsNamed in28.dev) ∧
    (in29.dev.active = true ∧ 1023 < 1024 ∧ in29.dev.atInjector 1023 2 = some icp ∧ in29.dev.injReady 1023 icp = true ∧ (2, Instr.injectCorrupt 1023) ∈ [(1, Instr.injectDrop 1023), (2, Instr.injectCorrupt 1023), (3, Instr.injectReorder 5 1023), (4, Instr.injectDelay 5 1023)] ∧ (in29.dev.port 1023).held = [] ∧ in29.dev.injMatch 1023 icp = true ∧ in29.dev.fget F.INJ_CTL.K [1023] = 0 ∧ 2 = 2) ∧
    (in30.dev.active = true ∧ 1023 < 1024 ∧ in30.dev.atInjector 1023 3 = some icp ∧ in30.dev.injReady 1023 icp = true ∧ (3, Instr.injectReorder 5 1023) ∈ [(1, Instr.injectDrop 1023), (2, Instr.injectCorrupt 1023), (3, Instr.injectReorder 5 1023), (4, Instr.injectDelay 5 1023)] ∧ (in30.dev.port 1023).held = [] ∧ in30.dev.injMatch 1023 icp = true ∧ in30.dev.fget F.INJ_CTL.K [1023] = 0 ∧ 3 = 3 ∧ (in30.dev.port 1023).heldUntil = none) ∧
    (in31.dev.active = true ∧ 1023 < 1024 ∧ in31.dev.atInjector 1023 4 = some icp ∧ in31.dev.injReady 1023 icp = true ∧ (4, Instr.injectDelay 5 1023) ∈ [(1, Instr.injectDrop 1023), (2, Instr.injectCorrupt 1023), (3, Instr.injectReorder 5 1023), (4, Instr.injectDelay 5 1023)] ∧ (in31.dev.port 1023).held = [] ∧ in31.dev.injMatch 1023 icp = true ∧ in31.dev.fget F.INJ_CTL.K [1023] = 0 ∧ 4 = 4) ∧
    (in32.dev.active = true ∧ 1023 < 1024 ∧ (in32.dev.port 1023).heldUntil = some 5 ∧ 5 ≤ max 5 in32.dev.now ∧ in32.dev.fget F.INJ_CTL.MODE [1023] = 3 ∧ (in32.dev.port 1023).held ≠ []) ∧
    (in33.dev.active = true ∧ 1023 < 1024 ∧ (in33.dev.port 1023).heldUntil = some 5 ∧ 5 ≤ max 5 in33.dev.now ∧ in33.dev.atInjector 1023 4 = some icp ∧ icp.ended = true ∧ (in33.dev.port 1023).held = [icp.id]) ∧
    (in34.dev.active = true ∧ 1023 < 1024 ∧ in34.dev.portUp 1023 = true ∧ in34.dev.fuses.deadbolt = false ∧ in34.dev.fbit F.INJ_CTL.EN [1023] = true ∧ in34.dev.fget F.INJ_CTL.MODE [1023] = 5 ∧ in34.dev.fget F.INJ_CTL.K [1023] = 0) := by
  and_intros <;> first | decide +kernel | exact cellsNamed_of (by decide +kernel)

end W12

namespace W13

def in1 : State := sS id
def in2 : State := sA fun d => d.fset F.CLK_STATUS.XO_LOST [] 1
def in3 : State := sS fun d => d.fset F.CLK_STATUS.REFSEL [] 1
def in4 : State := sS fun d => d.fset F.CLK_STATUS.REF1_OK [] 1
def in5 : State := sS id
def in6 : State := sS fun d => (d.fset F.CLK_STATUS.REF0_OK [] 1).fset F.CLK_CTL.REF_PRI [] 1
def in7 : State := sS id
def in8 : State := sS fun d => (d.setPll 7 false true).setRef 0 1
def in9 : State := sS fun d => d.muxAsk [6]
def in10 : State := sS fun d => d.muxAsk [7]
def in11 : State := sS fun d => (d.fset F.CLK_DVFS.CUR [] 1).fset F.CLK_DVFS.TARGET [] 3
def in12 : State := sS fun d => (d.fset F.CLK_DVFS.CUR [] 3).fset F.CLK_DVFS.TARGET [] 1
def in13 : State := sS fun d => ((d.fset F.CLK_DVFS.CUR [] 3).fset F.CLK_DVFS.TARGET [] 1).fset F.CLK_DVFS.VREG_LOST [] 1
def in14 : State := sS fun d => { d with clk := { d.clk with step := some { up := true, target := 5, waitV := false } } }
def in15 : State := sS fun d => { d with clk := { d.clk with step := some { up := false, target := 5, waitV := false } } }
def in16 : State := sS fun d => { d with clk := { d.clk with step := some { up := false, target := 5, waitV := true } } }
def in17 : State := sS fun d => { d with clk := { d.clk with step := some { up := true, target := 5, waitV := true } } }
def in18 : State := sS fun d => Dev.setPll { d with clk := { d.clk with step := some { up := true, target := 0, waitV := true } } } 0 false true
def in19 : State := sS fun d => { d with clk := { d.clk with step := some { up := false, target := 5, waitV := true } } }
def in20 : State := sS fun d => d.fset F.CLK_DVFS.VREG_LOST [] 1
def in21 : State := sS id
def in22 : State := sS fun d => { d with clk := { d.clk with measure := some 0 } }
def in23 : State := sS fun d => { d with clk := { d.clk with measure := some 0 } }

theorem witness_ClocksAndSteps :
    (in1.dev.up = true ∧ in1.dev.fbit F.CLK_STATUS.XO_LOST [] = false) ∧
    (in2.dev.up = true ∧ in2.dev.fbit F.CLK_STATUS.XO_LOST [] = true) ∧
    (in3.dev.up = true ∧ 0 < 2 ∧ in3.dev.fget F.CLK_STATUS.REFSEL [] ≠ 0) ∧
    (in4.dev.up = true ∧ 0 < 2 ∧ in4.dev.fget F.CLK_STATUS.REFSEL [] = 0) ∧
    (in5.dev.up = true ∧ 1 < 2 ∧ in5.dev.refSince 1 + sec 10 ≤ max (sec 10) in5.dev.now ∧ in5.dev.fget F.CLK_STATUS.REFSEL [] = 1 - 1 ∧ in5.dev.refOk (1 - 1) = false) ∧
    (in6.dev.up = true ∧ 1 < 2 ∧ in6.dev.refSince 1 + sec 10 ≤ max (sec 20) in6.dev.now ∧ in6.dev.fget F.CLK_STATUS.REFSEL [] = 1 - 1 ∧ in6.dev.refOk (1 - 1) = true) ∧
    (in7.dev.up = true ∧ 7 < 8 ∧ in7.dev.coasting 7 = false) ∧
    (in8.dev.up = true ∧ 7 < 8 ∧ in8.dev.coasting 7 = true ∧ in8.dev.refThere 7 = true) ∧
    (in9.dev.up = true ∧ 6 < 8 ∧ 6 ∈ in9.dev.clk.switching) ∧
    (in10.dev.up = true ∧ 7 < 8 ∧ 7 ∈ in10.dev.clk.switching) ∧
    (in11.dev.up = true ∧ in11.dev.aligned = false ∧ in11.dev.clk.step = none ∧ in11.dev.clk.uvForced = false ∧ in11.dev.fbit F.CLK_OP.RETIRED [in11.dev.curOp] = false ∧ in11.dev.coasting 0 = false ∧ in11.dev.curOp < in11.dev.fget F.CLK_DVFS.TARGET [] ∧ in11.dev.curOp < 5 ∧ in11.dev.fbit F.CLK_OP.RETIRED [in11.dev.curOp + 1] = false) ∧
    (in12.dev.up = true ∧ in12.dev.aligned = false ∧ in12.dev.clk.step = none ∧ in12.dev.clk.uvForced = false ∧ in12.dev.fbit F.CLK_OP.RETIRED [in12.dev.curOp] = false ∧ in12.dev.coasting 0 = false ∧ in12.dev.fget F.CLK_DVFS.TARGET [] < in12.dev.curOp ∧ in12.dev.curOp ≤ 5 ∧ in12.dev.fbit F.CLK_OP.RETIRED [in12.dev.curOp - 1] = false ∧ in12.dev.fbit F.CLK_DVFS.VREG_LOST [] = false) ∧
    (in13.dev.up = true ∧ in13.dev.aligned = false ∧ in13.dev.clk.step = none ∧ in13.dev.clk.uvForced = false ∧ in13.dev.fbit F.CLK_OP.RETIRED [in13.dev.curOp] = false ∧ in13.dev.coasting 0 = false ∧ in13.dev.fget F.CLK_DVFS.TARGET [] < in13.dev.curOp ∧ (in13.dev.fbit F.CLK_OP.RETIRED [in13.dev.curOp - 1] = true ∨ in13.dev.fbit F.CLK_DVFS.VREG_LOST [] = true)) ∧
    (in14.dev.up = true ∧ in14.dev.clk.step = some { up := true, target := 5, waitV := false : DvfsStep } ∧ { up := true, target := 5, waitV := false : DvfsStep }.target ≤ 5 ∧ { up := true, target := 5, waitV := false : DvfsStep }.waitV = false ∧ { up := true, target := 5, waitV := false : DvfsStep }.since + us 1 ≤ max (us 1) in14.dev.now ∧ ({ up := true, target := 5, waitV := false : DvfsStep }.up = true ∨ { up := true, target := 5, waitV := false : DvfsStep }.freqOnly = true)) ∧
    (in15.dev.up = true ∧ in15.dev.clk.step = some { up := false, target := 5, waitV := false : DvfsStep } ∧ { up := false, target := 5, waitV := false : DvfsStep }.target ≤ 5 ∧ { up := false, target := 5, waitV := false : DvfsStep }.waitV = false ∧ { up := false, target := 5, waitV := false : DvfsStep }.since + us 1 ≤ max (us 1) in15.dev.now ∧ { up := false, target := 5, waitV := false : DvfsStep }.up = false ∧ { up := false, target := 5, waitV := false : DvfsStep }.freqOnly = false) ∧
    (in16.dev.up = true ∧ in16.dev.clk.step = some { up := false, target := 5, waitV := true : DvfsStep } ∧ { up := false, target := 5, waitV := true : DvfsStep }.target ≤ 5 ∧ { up := false, target := 5, waitV := true : DvfsStep }.waitV = true ∧ in16.dev.fbit F.CLK_DVFS.VREG_LOST [] = false ∧ { up := false, target := 5, waitV := true : DvfsStep }.voltOnly = false ∧ { up := false, target := 5, waitV := true : DvfsStep }.up = false) ∧
    (in17.dev.up = true ∧ in17.dev.clk.step = some { up := true, target := 5, waitV := true : DvfsStep } ∧ { up := true, target := 5, waitV := true : DvfsStep }.target ≤ 5 ∧ { up := true, target := 5, waitV := true : DvfsStep }.waitV = true ∧ in17.dev.fbit F.CLK_DVFS.VREG_LOST [] = false ∧ { up := true, target := 5, waitV := true : DvfsStep }.voltOnly = false ∧ { up := true, target := 5, waitV := true : DvfsStep }.up = true ∧ in17.dev.coasting 0 = false) ∧
    (in18.dev.up = true ∧ in18.dev.clk.step = some { up := true, target := 0, waitV := true : DvfsStep } ∧ { up := true, target := 0, waitV := true : DvfsStep }.target ≤ 5 ∧ { up := true, target := 0, waitV := true : DvfsStep }.waitV = true ∧ in18.dev.fbit F.CLK_DVFS.VREG_LOST [] = false ∧ { up := true, target := 0, waitV := true : DvfsStep }.voltOnly = false ∧ { up := true, target := 0, waitV := true : DvfsStep }.up = true ∧ in18.dev.coasting 0 = true) ∧
    (in19.dev.up = true ∧ in19.dev.clk.step = some { up := false, target := 5, waitV := true : DvfsStep } ∧ { up := false, target := 5, waitV := true : DvfsStep }.target ≤ 5 ∧ { up := false, target := 5, waitV := true : DvfsStep }.waitV = true ∧ { up := false, target := 5, waitV := true : DvfsStep }.since + us (atLeast1 (in19.dev.fget F.CLK_DVFS.SETTLE_TMO [])) ≤ max (us 300) in19.dev.now) ∧
    (in20.dev.up = true ∧ in20.dev.fbit F.CLK_DVFS.VREG_LOST [] = true ∧ in20.dev.clk.step = none ∧ in20.dev.aligned = false) ∧
    (in21.dev.up = true ∧ 5 < 2 ^ 48) ∧
    (in22.dev.up = true ∧ 281474976710655 < 2 ^ 48 ∧ in22.dev.clk.measure = some 0) ∧
    (in23.dev.up = true ∧ 281474976710655 < 2 ^ 48 ∧ in23.dev.clk.measure = some 0 ∧ 0 + ms (atLeast1 (in23.dev.fget F.CLK_FMEAS_CTL.TMO [])) ≤ max (sec 100) in23.dev.now) := by
  and_intros <;> decide +kernel

end W13

namespace W14

def ld (d : Dev) : Dev := d.fset F.GLB_PROFILE.LOADED [] 1
def hot (v : Int) (d : Dev) : Dev := (List.range 64).foldl (fun (d : Dev) j => d.fset F.PWR_TSENS.TEMP [j] (unsext 12 v)) d
def warming (d : Dev) : Dev := { (d.fset F.PWR_STATE.WARMING [] 1) with pwr := { d.pwr with warmSince := some 0 } }
def warmS (d : Dev) : Dev := { hot 400 d with spl := { d.spl with stk := List.replicate 4 { temp := 40 } } }
def stk (d : Dev) : Dev := { d with spl := { d.spl with stk := d.spl.stk.map fun x => { x with temp := 40 } } }
def in1 : State := sS id
def in2 : State := sS fun d => ld (hot (-400) d)
def in3 : State := sS fun d => ld (warmS d)
def in4 : State := sS fun d => warming (warmS d)
def in5 : State := sS fun d => warming d
def in6 : State := sS fun d => warming d
def in7 : State := sS fun d => warming d
def in8 : State := sS fun d => { d with pwr := { d.pwr with restAfter := true } }
def in9 : State := sA id
def in10 : State := sA fun d => Dev.fset { d with pwr := { d.pwr with drainSince := some 0 } } F.PWR_STATE.REQ [] 1
def in11 : State := sA fun d => Dev.fset { d with pwr := { d.pwr with drainSince := some 0 }, prs := { d.prs with frames := [{ id := 3, port := 1 }] } } F.PWR_STATE.REQ [] 1
def wk (b : Nat) (d : Dev) : Dev := Dev.fset { d with pwr := { d.pwr with supplies := [.aon] } } F.TRN_CTL.WAKE_EN [] b
def sR (f : Dev → Dev) : State := { pending := [], dev := f (dv .rest) }
def alarm1 (d : Dev) : Dev := d.fset F.TRN_ALARM.EN [] 1
def in12 : State := sS id
def in13 : State := sS alarm1
def in14 : State := sR (wk 31)
def in15 : State := sR fun d => d.fset F.TRN_CTL.WAKE_EN [] 16 |> alarm1
def in16 : State := sR fun d => (d.fset F.TRN_WAKE.TRIPPED [] 1) |> alarm1
def in17 : State := sR fun d => d.fset F.TRN_CTL.WAKE_EN [] 4
def in18 : State := sS id
def in19 : State := sS id
def rail (d : Dev) : Dev := (d.fset F.PWR_RAIL.EN [0] 1).fset F.PWR_RAIL.EN [15] 1
def in20 : State := sS rail
def cap (raw : Nat) : CapInput := { raw := raw, links := 5940, control := 500, compute := [5560, 4300, 3340, 2600, 1970, 1490], p0 := 20000, spill := 0, frames := [], cells := [] }
def loopOn (d : Dev) : Dev := ((((d.fset F.PWR_CTL.LOOP_EN [] 1).fset F.PWR_CTL.OPMIN [] 5).fset F.PWR_STATUS.GAIN [] 1024).fset F.PWR_CAP.CAP [] 1130).fset F.PWR_CAP.CREDIT_MAX [] 0
def in21 : State := sA loopOn
def in22 : State := sA fun d => (loopOn d).fset F.PWR_CAP.CAP [] 1030
def hint1 : Hint := { cls := 1, cyc := some 0, phase := 0, len := 7 }
def in23 : State := sA fun d => { d with pwr := { d.pwr with hints := [hint1] }, cyc := { d.cyc with per := 2 ^ 40 } }
def in24 : State := sA fun d => { d with pwr := { d.pwr with hints := [{ hint1 with stop := some 3 }, { hint1 with stop := some 5 }] }, cyc := { d.cyc with per := 2 ^ 40 } }
def in25 : State := sA id
def in26 : State := sA id
def in27 : State := sA fun d => d.fset F.PWR_THERM.HOT [] 1000
def in28 : State := sA fun d => Dev.fset { d with pwr := { d.pwr with thermal := 5 } } F.PWR_THERM.HOT [] 1000
def in29 : State := sA fun d => Dev.fset { d with pwr := { d.pwr with thermal := 1, coolSince := some 0 } } F.PWR_THERM.HOT [] 100
def in30 : State := sA fun d => d.fset F.AGE_CTL.AUTO [] 1

theorem witness_PowerAndAgeing :
    (in1.dev.pwr.dev = DevState.standby ∧ in1.dev.fbit F.GLB_PROFILE.LOADED [] = false) ∧
    (in2.dev.pwr.dev = DevState.standby ∧ in2.dev.fbit F.GLB_PROFILE.LOADED [] = true ∧ in2.dev.fbit F.PWR_STATE.WARMING [] = false ∧ in2.dev.warm = false) ∧
    (in3.dev.pwr.dev = DevState.standby ∧ in3.dev.fbit F.GLB_PROFILE.LOADED [] = true ∧ in3.dev.fbit F.PWR_STATE.WARMING [] = false ∧ in3.dev.warm = true) ∧
    (in4.dev.pwr.dev = DevState.standby ∧ in4.dev.fbit F.PWR_STATE.WARMING [] = true ∧ in4.dev.warm = true) ∧
    (in5.dev.pwr.dev = DevState.standby ∧ in5.dev.fbit F.PWR_STATE.WARMING [] = true ∧ in5.dev.pwr.warmSince = some 0 ∧ 0 + sec (atLeast1 (in5.dev.fget F.PWR_THERM.WARM_TMO [])) ≤ max (sec 1023) in5.dev.now) ∧
    (in6.dev.pwr.dev = DevState.standby) ∧
    (in7.dev.pwr.dev = DevState.standby) ∧
    (in8.dev.pwr.dev = DevState.standby ∧ in8.dev.pwr.restAfter = true) ∧
    (in9.dev.active = true ∧ in9.dev.pwr.drainSince = none ∧ Instr.standbyRequest 4 ∈ [Instr.standbyRequest 4, Instr.restRequest 4]) ∧
    (in10.dev.active = true ∧ in10.dev.pwr.drainSince = some 0 ∧ in10.dev.buf.copies = [] ∧ in10.dev.req ≠ 2 ∧ in10.dev.prs.frames = []) ∧
    (in11.dev.active = true ∧ in11.dev.pwr.drainSince = some 0 ∧ in11.dev.buf.copies = [] ∧ in11.dev.req ≠ 2 ∧ 0 + ms 10 ≤ max (ms 10) in11.dev.now ∧ (∀ p ∈ in11.dev.portList, in11.dev.portUp p = false) ∧ (∃ f ∈ in11.dev.prs.frames, f.loc ≠ FrameLoc.gone ∧ f.loc ≠ FrameLoc.admitted)) ∧
    ((0 = 0 ∧ Instr.jhiComparator 4 127 = Instr.jhiComparator 4 127 ∧ ↑(in12.dev.fget F.TRN_CTL.JHI_T []) ≤ 127 ∨ 0 = 1 ∧ Instr.jhiComparator 4 127 = Instr.jloComparator 4 127 ∧ 127 ≤ sext 8 (in12.dev.fget F.TRN_CTL.JLO_T []) ∨ 0 = 3 ∧ Instr.jhiComparator 4 127 = Instr.cpedEnergy 4 ∨ 0 = 4 ∧ Instr.jhiComparator 4 127 = Instr.timeAlarm 4 ∧ in12.dev.fbit F.TRN_ALARM.EN [] = true ∧ in12.dev.fget F.TRN_ALARM.SEC [] ≤ tSec (in12.dev.advanceTo 4).fab) ∧ in12.dev.up = true ∧ 0 ≠ 4) ∧
    ((4 = 0 ∧ Instr.timeAlarm 4 = Instr.jhiComparator 4 (-128) ∧ ↑(in13.dev.fget F.TRN_CTL.JHI_T []) ≤ (-128 : Int) ∨ 4 = 1 ∧ Instr.timeAlarm 4 = Instr.jloComparator 4 (-128) ∧ -128 ≤ sext 8 (in13.dev.fget F.TRN_CTL.JLO_T []) ∨ 4 = 3 ∧ Instr.timeAlarm 4 = Instr.cpedEnergy 4 ∨ 4 = 4 ∧ Instr.timeAlarm 4 = Instr.timeAlarm 4 ∧ in13.dev.fbit F.TRN_ALARM.EN [] = true ∧ in13.dev.fget F.TRN_ALARM.SEC [] ≤ tSec (in13.dev.advanceTo 4).fab) ∧ in13.dev.up = true ∧ 4 = 4) ∧
    ((0 = 0 ∧ Instr.jhiComparator 4 127 = Instr.jhiComparator 4 127 ∧ ↑(in14.dev.fget F.TRN_CTL.JHI_T []) ≤ 127 ∨ 0 = 1 ∧ Instr.jhiComparator 4 127 = Instr.jloComparator 4 127 ∧ 127 ≤ sext 8 (in14.dev.fget F.TRN_CTL.JLO_T []) ∨ 0 = 3 ∧ Instr.jhiComparator 4 127 = Instr.cpedEnergy 4 ∨ 0 = 4 ∧ Instr.jhiComparator 4 127 = Instr.timeAlarm 4 ∧ in14.dev.fbit F.TRN_ALARM.EN [] = true ∧ in14.dev.fget F.TRN_ALARM.SEC [] ≤ tSec (in14.dev.advanceTo 4).fab) ∧ in14.dev.pwr.dev = DevState.rest ∧ in14.dev.fbit F.TRN_WAKE.TRIPPED [] = false ∧ bitN (in14.dev.fget F.TRN_CTL.WAKE_EN []) 0 = true ∧ Supply.core ∉ in14.dev.pwr.supplies ∧ in14.dev.fbit F.TRN_WAKE.PENDING [] = false) ∧
    ((4 = 0 ∧ Instr.timeAlarm 4 = Instr.jhiComparator 4 (-128) ∧ ↑(in15.dev.fget F.TRN_CTL.JHI_T []) ≤ (-128 : Int) ∨ 4 = 1 ∧ Instr.timeAlarm 4 = Instr.jloComparator 4 (-128) ∧ -128 ≤ sext 8 (in15.dev.fget F.TRN_CTL.JLO_T []) ∨ 4 = 3 ∧ Instr.timeAlarm 4 = Instr.cpedEnergy 4 ∨ 4 = 4 ∧ Instr.timeAlarm 4 = Instr.timeAlarm 4 ∧ in15.dev.fbit F.TRN_ALARM.EN [] = true ∧ in15.dev.fget F.TRN_ALARM.SEC [] ≤ tSec (in15.dev.advanceTo 4).fab) ∧ in15.dev.pwr.dev = DevState.rest ∧ in15.dev.fbit F.TRN_WAKE.TRIPPED [] = false ∧ bitN (in15.dev.fget F.TRN_CTL.WAKE_EN []) 4 = true ∧ Supply.core ∈ in15.dev.pwr.supplies) ∧
    ((4 = 0 ∧ Instr.timeAlarm 4 = Instr.jhiComparator 4 127 ∧ ↑(in16.dev.fget F.TRN_CTL.JHI_T []) ≤ 127 ∨ 4 = 1 ∧ Instr.timeAlarm 4 = Instr.jloComparator 4 127 ∧ 127 ≤ sext 8 (in16.dev.fget F.TRN_CTL.JLO_T []) ∨ 4 = 3 ∧ Instr.timeAlarm 4 = Instr.cpedEnergy 4 ∨ 4 = 4 ∧ Instr.timeAlarm 4 = Instr.timeAlarm 4 ∧ in16.dev.fbit F.TRN_ALARM.EN [] = true ∧ in16.dev.fget F.TRN_ALARM.SEC [] ≤ tSec (in16.dev.advanceTo 4).fab) ∧ in16.dev.pwr.dev = DevState.rest ∧ in16.dev.fbit F.TRN_WAKE.TRIPPED [] = true) ∧
    (in17.dev.pwr.dev = DevState.rest ∧ in17.dev.fbit F.TRN_WAKE.TRIPPED [] = false ∧ in17.dev.fget F.TRN_CTL.UV_T [] < 1024 ∧ (in17.dev.fbit F.TRN_WAKE.PENDING [] = true ∨ bitN (in17.dev.fget F.TRN_CTL.WAKE_EN []) 2 = true) ∧ Instr.vuvComparator 4 1024 ∈ [Instr.vuvComparator 4 1024, Instr.vddCorePresent 4]) ∧
    (in18.dev.up = true ∧ 0 < in18.dev.fget F.TRN_CTL.UV_T [] ∧ in18.dev.clk.uvForced = false) ∧
    (in19.dev.up = true ∧ in19.dev.fget F.TRN_CTL.UV_T [] + 20 ≤ 1043) ∧
    (in20.dev.up = true) ∧
    (in21.dev.up = true ∧ in21.dev.inForce = [] ∧ in21.dev.pwr.hints = [] ∧ in21.dev.aligned = false ∧ (∀ r ∈ in21.dev.rails, in21.dev.fbit F.PWR_RAIL.LOST [r] = false) ∧ in21.dev.fbit F.PWR_STATUS.DISAGREE [] = false ∧ in21.dev.fbit F.PWR_CTL.LOOP_EN [] = true ∧ 1 ≤ 5 ∧ in21.dev.ceilingNow (decide ((cap 11140).p0 ≤ 10 * max 450 (min 1250 (in21.dev.fget F.PWR_CAP.CAP [])))) ≤ 1 ∧ 1 ≤ max (in21.dev.ceilingNow (decide ((cap 11140).p0 ≤ 10 * max 450 (min 1250 (in21.dev.fget F.PWR_CAP.CAP []))))) (in21.dev.fget F.PWR_CTL.OPMIN []) ∧ (in21.dev.fbit F.CLK_OP.RETIRED [1] = false ∧ in21.dev.spillAt (cap 11140) 1 ≤ spillMax ∧ (cap 11140).power 1 (in21.dev.spillAt (cap 11140) 1) ≤ 10 * max 450 (min 1250 (in21.dev.fget F.PWR_CAP.CAP [])) * 2000000) ∧ (∀ (j : ℕ), in21.dev.ceilingNow (decide ((cap 11140).p0 ≤ 10 * max 450 (min 1250 (in21.dev.fget F.PWR_CAP.CAP [])))) ≤ j → j < 1 → ¬(in21.dev.fbit F.CLK_OP.RETIRED [j] = false ∧ in21.dev.spillAt (cap 11140) j ≤ spillMax ∧ (cap 11140).power j (in21.dev.spillAt (cap 11140) j) ≤ 10 * max 450 (min 1250 (in21.dev.fget F.PWR_CAP.CAP [])) * 2000000)) ∧ (cap 11140).raw * in21.dev.fget F.PWR_STATUS.GAIN [] / 1024 ≤ 10 * max 450 (min 1250 (in21.dev.fget F.PWR_CAP.CAP [])) ∧ in21.dev.fget F.PWR_STATUS.LIMIT [] = 0) ∧
    (in22.dev.up = true ∧ in22.dev.inForce = [] ∧ in22.dev.pwr.hints = [] ∧ in22.dev.aligned = false ∧ (∀ r ∈ in22.dev.rails, in22.dev.fbit F.PWR_RAIL.LOST [r] = false) ∧ in22.dev.fbit F.PWR_STATUS.DISAGREE [] = false ∧ in22.dev.fbit F.PWR_CTL.LOOP_EN [] = true ∧ 2 ≤ 5 ∧ in22.dev.ceilingNow (decide ((cap 11240).p0 ≤ 10 * max 450 (min 1250 (in22.dev.fget F.PWR_CAP.CAP [])))) ≤ 2 ∧ 2 ≤ max (in22.dev.ceilingNow (decide ((cap 11240).p0 ≤ 10 * max 450 (min 1250 (in22.dev.fget F.PWR_CAP.CAP []))))) (in22.dev.fget F.PWR_CTL.OPMIN []) ∧ (in22.dev.fbit F.CLK_OP.RETIRED [2] = false ∧ in22.dev.spillAt (cap 11240) 2 ≤ spillMax ∧ (cap 11240).power 2 (in22.dev.spillAt (cap 11240) 2) ≤ 10 * max 450 (min 1250 (in22.dev.fget F.PWR_CAP.CAP [])) * 2000000) ∧ (∀ (j : ℕ), in22.dev.ceilingNow (decide ((cap 11240).p0 ≤ 10 * max 450 (min 1250 (in22.dev.fget F.PWR_CAP.CAP [])))) ≤ j → j < 2 → ¬(in22.dev.fbit F.CLK_OP.RETIRED [j] = false ∧ in22.dev.spillAt (cap 11240) j ≤ spillMax ∧ (cap 11240).power j (in22.dev.spillAt (cap 11240) j) ≤ 10 * max 450 (min 1250 (in22.dev.fget F.PWR_CAP.CAP [])) * 2000000)) ∧ 10 * max 450 (min 1250 (in22.dev.fget F.PWR_CAP.CAP [])) < (cap 11240).raw * in22.dev.fget F.PWR_STATUS.GAIN [] / 1024) ∧
    (in23.dev.up = true) ∧
    (in24.dev.up = true) ∧
    (in25.dev.up = true ∧ (List.replicate 64 1039).length = 64 ∧ (∀ v ∈ List.replicate 64 1039, -2048 ≤ v ∧ v ≤ 2047) ∧ (∀ v ∈ List.replicate 64 1039, v < 1040)) ∧
    (in26.dev.up = true ∧ (List.replicate 64 1040).length = 64 ∧ (∀ v ∈ List.replicate 64 1040, -2048 ≤ v ∧ v ≤ 2047) ∧ (∃ v ∈ List.replicate 64 1040, 1040 ≤ v)) ∧
    (in27.dev.up = true ∧ 8 * in27.dev.throtT ≤ in27.dev.hot ∧ in27.dev.pwr.thermal = 0) ∧
    (in28.dev.up = true ∧ 8 * in28.dev.throtT ≤ in28.dev.hot ∧ 0 < in28.dev.pwr.thermal ∧ in28.dev.pwr.throttleAt + us 100 ≤ max (us 100) in28.dev.now) ∧
    (in29.dev.up = true ∧ in29.dev.hot < 8 * in29.dev.throtT ∧ 0 < in29.dev.pwr.thermal ∧ in29.dev.pwr.coolSince = some 0 ∧ 0 + ms 1 ≤ max (ms 1) in29.dev.now ∧ in29.dev.pwr.throttleAt + ms 1 ≤ max (ms 1) in29.dev.now) ∧
    (in30.dev.up = true ∧ (Instr.ageGo 5 70000 = Instr.ageGo 5 70000 ∨ Instr.ageGo 5 70000 = Instr.ageReplan 5 70000 ∧ (in30.dev.pwr.replanDue = true ∨ in30.dev.pwr.lastReplan + sec (3600 * atLeast1 (in30.dev.fget F.AGE_CTL.PERIOD [])) ≤ max 5 in30.dev.now))) := by
  and_intros <;> first | decide +kernel

end W14

namespace W15

def up1 (d : Dev) : Dev :=
  { d with lane := { d.lane with ports := [(5, { partner := some { domain := 9 } }), (1023, { partner := some { domain := 9 } })] } }
    |>.fset F.LN_PSTAT.STATE [1023] 5 |>.fset F.LN_PSTAT.JOINED [1023] 1 |>.fset F.LN_PSTAT.STATE [5] 5 |>.fset F.LN_PSTAT.JOINED [5] 1
def fb (role st mg term : Nat) (d : Dev) : Dev :=
  (Dev.rset ((up1 d).fset F.GLB_PROFILE.ROLE [] role) .FAB_MGR [] (BitVec.ofNat 64 mg)).fset F.FAB_CTL.EN [] 1 |>.fset F.FAB_CTL.DOMAIN [] 9
   |>.fset F.FAB_STATUS.STATE [] st |>.fset F.FAB_STATUS.TERM [] term |>.fset F.FAB_CTL.DQ [] 3
def role (r : Nat) (d : Dev) : Dev := d.fset F.GLB_PROFILE.ROLE [] r
def ext (d : Dev) : Dev := d.fset F.TIM_PTP_CLOCK.EXTCFG [] 1
def uid7 (d : Dev) : Dev := { d with fuses := { d.fuses with uid := 7 } }
def dm (typ hops : Nat) (pl : List Byte) : DomRx := { port := 1023, ver := 1, typ := typ, hops := hops, tomgr := false, domain := 9, origin := 77, term := 3, seq := 5, len := pl.length, payload := pl }
def z (n : Nat) : List Byte := List.replicate n 0
def m8 : DomRx := dm 8 0 (z 8)
def m5 : DomRx := { dm 5 0 (z 16) with domain := 8 }
def T : Nat := ms 200
def in1 : State := sS id
def in2 : State := sS fun d => (role 3 d).fset F.FAB_STK.EN [] 1
def in3 : State := sS (role 1)
def in4 : State := sS fun d => ext (role 1 d) |>.fset F.CYC_CTL.SRC [] 1
def in5 : State := sS fun d => ext (role 2 (uid7 d))
def in6 : State := sS id
def in7 : State := sA (fb 1 2 9 3)
def in8 : State := sA (fb 1 2 9 3)
def seen (sq : Nat) (d : Dev) : Dev := { d with fabric := { d.fabric with lastSeq := [(77, sq, 0)] } }
def in9 : State := sA (fb 1 2 9 4)
def in10 : State := sA (fb 1 2 9 3)
def in11 : State := sA (seen 5)
def in12 : State := sA (fb 1 1 9 3)
def in13 : State := sA (fun d => (fb 1 2 9 3 d).fset F.FAB_STATUS.DEFICIT [] 65535)
def in14 : State := sA (fb 2 3 9 3)
def mem (l : List Member) (d : Dev) : Dev := { d with fabric := { d.fabric with members := l } }
def m0 : Member := { uid := 7, num := 0, lastHello := 0, pri := 0 }
def in15 : State := sA (fun d => uid7 (fb 2 3 7 3 (mem [m0] d)))
def in16 : State := sA (fun d => uid7 (fb 2 3 7 3 (mem [m0, { m0 with uid := 8, num := 255 }] d)))
def in16x0 : Member := { m0 with uid := 8, num := 255 }
def in17 : State := sA (fun d => { d with fabric := { d.fabric with released := [(255, 0), (255, sec 5), (3, 4)] } })
def ros (start count total dep : Nat) (l : List (Nat × Nat × Nat)) : List Byte := beBytes 2 start ++ beBytes 2 count ++ beBytes 2 total ++ beBytes 1 dep ++ z 1 ++ l.flatMap fun e => beBytes 8 e.1 ++ beBytes 1 e.2.1 ++ beBytes 1 e.2.2 ++ z 2
def in18 : State := sA (fun d => uid7 (fb 1 1 0 3 d))
def cyc1 (d : Dev) : Dev := let d := (d.fset F.CYC_CTL.SRC [] 1).fset F.CYC_STATUS.STATE [] 2; { d with cyc := { d.cyc with per := 2 ^ 44, num := 100, gnum := 100, gbase := sec 1 * 65536, change := some { eff := 90, period := 2 ^ 30, stretch := 1 } } }
def cym (num eff src : Nat) : List Byte := beBytes 6 1 ++ beBytes 4 0 ++ beBytes 2 0 ++ beBytes 6 num ++ beBytes 4 100000 ++ beBytes 2 5 ++ beBytes 2 13107 ++ beBytes 6 eff ++ beBytes 1 src ++ z 7
def in19 : State := sA (fun d => cyc1 (fb 1 2 0 3 d))
def ep (n : Nat) (d : Dev) : Dev := { d with cyc := { d.cyc with epochs := List.replicate n { id := 1, groups := 1, cyc := 200, phase := 0 } } }
def in20 : State := sA (fun d => ep 7 (cyc1 (fb 2 3 7 3 d)))
def in21 : State := sA (fun d => ep 8 (cyc1 (fb 2 3 7 3 d)))
def epm (c : Nat) : List Byte := beBytes 2 65535 ++ z 2 ++ beBytes 8 (2 ^ 63 + 1) ++ beBytes 6 c ++ z 2 ++ beBytes 4 77
def in22 : State := sA (fun d => ep 7 (cyc1 (fb 1 2 77 3 d)))
def in23 : State := sA (fun d => ep 8 (cyc1 (fb 1 2 77 3 d)))
def in24 : State := sA (fun d => ep 8 (cyc1 (fb 1 2 77 3 d)))
def m7 : Member := { uid := 77, num := 255, lastHello := 0, pri := 0 }
def pam (v : Nat) : List Byte := beBytes 2 v ++ z 8 ++ beBytes 2 9 ++ beBytes 2 65535 ++ z 2
def in25 : State := sA (fun d => (fb 2 3 7 3 (mem [m7] d)).fset F.FAB_CTL.POLICY [] 2)
def in26 : State := sA (fun d => (fb 2 3 7 3 (mem [m7] d)).fset F.FAB_MEMBER.VALID [255] 1)
def in27 : State := sA (fun d => uid7 (fb 1 2 77 3 d))
def sil (d : Dev) : Dev := { d with fabric := { d.fabric with lastCycleRx := some 5 } }
def in28 : State := sA (fun d => (sil (uid7 (fb 1 2 77 65535 (mem [m7, m0] d)))).fset F.FAB_STATUS.DEPUTY [] 1)
def in29 : State := sA (fun d => (sil (uid7 (fb 1 2 77 3 d))))
def in30 : State := sA (fb 1 2 78 3)
def in31 : State := sA (fb 2 3 78 3)
def in32 : State := sA (fun d => uid7 (fb 2 5 77 65535 (mem [m7] d)))
def in33 : State := sA (fb 1 6 77 3)
def stk (me : Option Nat) (d : Dev) : Dev := let d := (role 3 (uid7 (up1 d))).fset F.FAB_STK.EN [] 1 |>.rset .FAB_STK_PORTS [15] (2 ^ 63); { d with fabric := { d.fabric with stkMe := me } }
def in34 : State := sA (stk (some 3))
def in35 : State := sA (stk (some 3))
def in36 : State := sA fun d => let d := stk none d; { d with fabric := { d.fabric with stk := [{ uid := 8, pri := 1, num := some 1, lastSeen := ms 170 }] } }

theorem witness_DomainsAndStacks :
    (in1.dev.up = true ∧ in1.dev.role = 0) ∧
    (in2.dev.up = true ∧ in2.dev.role = 3 ∧ in2.dev.fbit F.FAB_STK.EN [] = true) ∧
    (in3.dev.up = true ∧ (in3.dev.role = 1 ∨ in3.dev.role = 2) ∧ in3.dev.fabEn = false ∧ (in3.dev.fbit F.TIM_PTP_CLOCK.EXTCFG [] = false ∨ in3.dev.role = 1 ∧ in3.dev.cycSrc ≠ 1 ∨ in3.dev.role = 2 ∧ in3.dev.cycSrc = 1)) ∧
    (in4.dev.up = true ∧ (in4.dev.role = 1 ∨ in4.dev.role = 2) ∧ in4.dev.fabEn = false ∧ in4.dev.fbit F.TIM_PTP_CLOCK.EXTCFG [] = true ∧ in4.dev.role = 1 ∧ in4.dev.cycSrc = 1) ∧
    (in5.dev.up = true ∧ (in5.dev.role = 1 ∨ in5.dev.role = 2) ∧ in5.dev.fabEn = false ∧ in5.dev.fbit F.TIM_PTP_CLOCK.EXTCFG [] = true ∧ in5.dev.role = 2 ∧ in5.dev.cycSrc ≠ 1) ∧
    (in6.dev.up = true ∧ (1, Instr.helloRx 4 (dm 1 0 (z 8))) ∈ [(1, Instr.helloRx 4 (dm 1 0 (z 8))), (2, Instr.rosterRx 4 (dm 1 0 (z 8))), (3, Instr.cycleMsgRx 4 (dm 1 0 (z 8))), (4, Instr.epochRx 4 (dm 1 0 (z 8))), (5, Instr.paceRx 4 (dm 1 0 (z 8))), (6, Instr.shedRx 4 (dm 1 0 (z 8))), (7, Instr.takeoverRx 4 (dm 1 0 (z 8)))] ∧ (in6.dev.fabEn = false ∨ (dm 1 0 (z 8)).port ∉ in6.dev.domainLinks)) ∧
    (in7.dev.up = true ∧ (7, Instr.takeoverRx 4 m8) ∈ [(1, Instr.helloRx 4 m8), (2, Instr.rosterRx 4 m8), (3, Instr.cycleMsgRx 4 m8), (4, Instr.epochRx 4 m8), (5, Instr.paceRx 4 m8), (6, Instr.shedRx 4 m8), (7, Instr.takeoverRx 4 m8)] ∧ in7.dev.fabEn = true ∧ m8.port ∈ in7.dev.domainLinks ∧ domFormatOk m8 = false) ∧
    (in8.dev.up = true ∧ (5, Instr.paceRx 4 m5) ∈ [(1, Instr.helloRx 4 m5), (2, Instr.rosterRx 4 m5), (3, Instr.cycleMsgRx 4 m5), (4, Instr.epochRx 4 m5), (5, Instr.paceRx 4 m5), (6, Instr.shedRx 4 m5), (7, Instr.takeoverRx 4 m5)] ∧ in8.dev.fabEn = true ∧ m5.port ∈ in8.dev.domainLinks ∧ domFormatOk m5 = true ∧ (m5.domain ≠ in8.dev.fget F.FAB_CTL.DOMAIN [] ∨ ∃ x, in8.dev.lastSeqOf m5.origin = some x ∧ seqAbove m5.seq x.1 = false)) ∧
    (in9.dev.up = true ∧ (2, Instr.rosterRx 4 (dm 2 0 (z 8))) ∈ [(1, Instr.helloRx 4 (dm 2 0 (z 8))), (2, Instr.rosterRx 4 (dm 2 0 (z 8))), (3, Instr.cycleMsgRx 4 (dm 2 0 (z 8))), (4, Instr.epochRx 4 (dm 2 0 (z 8))), (5, Instr.paceRx 4 (dm 2 0 (z 8))), (6, Instr.shedRx 4 (dm 2 0 (z 8))), (7, Instr.takeoverRx 4 (dm 2 0 (z 8)))] ∧ Heard in9.dev 2 (dm 2 0 (z 8)) ∧ (¬Prevails in9.dev (dm 2 0 (z 8))) ∧ (dm 2 0 (z 8)).hops = 0 ∧ 2 ∈ [2, 3, 4, 6, 7]) ∧
    (Heard in10.dev 1 (dm 1 15 (z 8)) ∧ in10.dev.inCharge = false ∧ 0 < (dm 1 15 (z 8)).hops ∧ in10.dev.fabric.releasedAt + ms 100 ≤ max T in10.dev.now ∧ (∃ p ∈ in10.dev.domainLinks, p ≠ (dm 1 15 (z 8)).port ∧ ((dm 1 15 (z 8)).tomgr = true → p = in10.dev.fget F.FAB_STATUS.UPPORT []))) ∧
    (in11.dev.up = true ∧ (∀ y ∈ in11.dev.fabric.lastSeq, y.1 = 77 → y.2.2 + ms 100 ≤ max T in11.dev.now)) ∧
    (in12.dev.up = true ∧ in12.dev.fabEn = true ∧ in12.dev.fabric.releasedAt + ms 100 ≤ max T in12.dev.now ∧ in12.dev.role = 1 ∧ in12.dev.inCharge = false ∧ in12.dev.fabState ≠ 6 ∧ (∀ (x : ℕ), in12.dev.fabric.lastHello = some x → x + ms 10 ≤ max T in12.dev.now)) ∧
    (in13.dev.up = true ∧ in13.dev.fabEn = true ∧ in13.dev.fabric.releasedAt + ms 100 ≤ max T in13.dev.now ∧ in13.dev.fabState = 2 ∧ in13.dev.fabric.lastPace + ms 100 ≤ max T in13.dev.now) ∧
    (in14.dev.up = true ∧ in14.dev.fabEn = true ∧ in14.dev.fabric.releasedAt + ms 100 ≤ max T in14.dev.now ∧ in14.dev.inCharge = true ∧ (in14.dev.fabric.rosterDue = true ∨ in14.dev.fabric.lastRoster + ms 100 ≤ max T in14.dev.now)) ∧
    (Heard in15.dev 1 (dm 1 0 ([1, 200, 1] ++ z 5)) ∧ in15.dev.inCharge = true ∧ (dm 1 0 ([1, 200, 1] ++ z 5)).hops = 0 ∧ in15.dev.fabric.waitingUids = [] ∧ (∀ x ∈ in15.dev.fabric.members, x.uid ≠ (dm 1 0 ([1, 200, 1] ++ z 5)).origin) ∧ 1 ≤ 1 ∧ 1 ≤ 255 ∧ (∀ x ∈ in15.dev.fabric.members, x.num ≠ 1) ∧ (∀ x ∈ in15.dev.fabric.released, x.1 ≠ 1) ∧ (∀ (k : ℕ), 1 ≤ k → k < 1 → (∃ x ∈ in15.dev.fabric.members, x.num = k) ∨ ∃ x ∈ in15.dev.fabric.released, x.1 = k)) ∧
    (in16.dev.up = true ∧ in16x0 ∈ in16.dev.fabric.members ∧ in16.dev.inCharge = true ∧ 255 < 256 ∧ in16x0.num = 255 ∧ in16x0.uid ≠ in16.dev.uid ∧ in16x0.lastHello + ms 50 ≤ max T in16.dev.now ∧ (∀ y ∈ in16.dev.fabric.members, y.num = 255 → y = in16x0)) ∧
    (in17.dev.up = true ∧ (255, 0) ∈ in17.dev.fabric.released ∧ (255, 0).1 = 255 ∧ (255, 0).2 + sec 1 ≤ max (sec 1) in17.dev.now ∧ in17.dev.fabric.waitingUids = []) ∧
    (Heard in18.dev 2 (dm 2 0 (ros 0 2 9 255 [(77, 0, 1), (7, 255, 3)])) ∧ Prevails in18.dev (dm 2 0 (ros 0 2 9 255 [(77, 0, 1), (7, 255, 3)])) ∧ (dm 2 0 (ros 0 2 9 255 [(77, 0, 1), (7, 255, 3)])).hops = 0 ∧ in18.dev.role = 1 ∧ in18.dev.fabState = 1 ∧ (in18.dev.uid, 255, 3) ∈ rosterEntries (dm 2 0 (ros 0 2 9 255 [(77, 0, 1), (7, 255, 3)])).payload ∧ (∀ e ∈ rosterEntries (dm 2 0 (ros 0 2 9 255 [(77, 0, 1), (7, 255, 3)])).payload, e.1 = in18.dev.uid → e = (in18.dev.uid, 255, 3))) ∧
    (Heard in19.dev 3 (dm 3 0 (cym 100 102 0)) ∧ Prevails in19.dev (dm 3 0 (cym 100 102 0)) ∧ (dm 3 0 (cym 100 102 0)).hops = 0 ∧ in19.dev.role = 1 ∧ in19.dev.inCharge = false ∧ in19.dev.cycSrc = 1 ∧ in19.dev.cycState = 2 ∧ in19.dev.cyc.change = some { eff := 90, period := 2 ^ 30, stretch := 1 : CycChange } ∧ (↑((sec (beNat (slice (dm 3 0 (cym 100 102 0)).payload 0 6)) + ns (beNat (slice (dm 3 0 (cym 100 102 0)).payload 6 4)) + beNat (slice (dm 3 0 (cym 100 102 0)).payload 10 2)) * 65536) - in19.dev.gridTime (beNat (slice (dm 3 0 (cym 100 102 0)).payload 12 6))).natAbs ≤ 65536 * 65536) ∧
    (in20.dev.up = true ∧ in20.dev.role ≠ 0 ∧ 2000 < 2 ^ 48 ∧ ((in20.dev.advanceTo 4).phaseValid = true ∧ (in20.dev.advanceTo 4).phaseReached 2000 (in20.dev.fget F.FAB_EPOCH_PHASE.PHASE []) = false ∧ (in20.dev.advanceTo 4).fab + us (atLeast1 ((in20.dev.advanceTo 4).fget F.FAB_CTL.LEAD [])) ≤ (in20.dev.advanceTo 4).phaseTime 2000 (in20.dev.fget F.FAB_EPOCH_PHASE.PHASE [])) ∧ in20.dev.inCharge = true ∧ in20.dev.cyc.epochs.length < 8) ∧
    (in21.dev.up = true ∧ in21.dev.role ≠ 0 ∧ 2000 < 2 ^ 48 ∧ (¬((in21.dev.advanceTo 4).phaseValid = true ∧ (in21.dev.advanceTo 4).phaseReached 2000 (in21.dev.fget F.FAB_EPOCH_PHASE.PHASE []) = false ∧ (in21.dev.advanceTo 4).fab + us (atLeast1 ((in21.dev.advanceTo 4).fget F.FAB_CTL.LEAD [])) ≤ (in21.dev.advanceTo 4).phaseTime 2000 (in21.dev.fget F.FAB_EPOCH_PHASE.PHASE [])) ∨ in21.dev.inCharge = false ∨ 8 ≤ in21.dev.cyc.epochs.length)) ∧
    (Heard in22.dev 4 (dm 4 0 (epm 2000)) ∧ Prevails in22.dev (dm 4 0 (epm 2000)) ∧ (dm 4 0 (epm 2000)).hops = 0 ∧ in22.dev.inCharge = false ∧ (in22.dev.advanceTo 4).phaseReached { id := beNat (slice (dm 4 0 (epm 2000)).payload 0 2), groups := BitVec.ofNat 64 (beNat (slice (dm 4 0 (epm 2000)).payload 4 8)), cyc := beNat (slice (dm 4 0 (epm 2000)).payload 12 6), phase := beNat (slice (dm 4 0 (epm 2000)).payload 20 4) : Epoch }.cyc { id := beNat (slice (dm 4 0 (epm 2000)).payload 0 2), groups := BitVec.ofNat 64 (beNat (slice (dm 4 0 (epm 2000)).payload 4 8)), cyc := beNat (slice (dm 4 0 (epm 2000)).payload 12 6), phase := beNat (slice (dm 4 0 (epm 2000)).payload 20 4) : Epoch }.phase = false ∧ in22.dev.cyc.epochs.length < 8) ∧
    (Heard in23.dev 4 (dm 4 0 (epm 2000)) ∧ Prevails in23.dev (dm 4 0 (epm 2000)) ∧ (dm 4 0 (epm 2000)).hops = 0 ∧ in23.dev.inCharge = false ∧ (in23.dev.advanceTo 4).phaseReached { id := beNat (slice (dm 4 0 (epm 2000)).payload 0 2), groups := BitVec.ofNat 64 (beNat (slice (dm 4 0 (epm 2000)).payload 4 8)), cyc := beNat (slice (dm 4 0 (epm 2000)).payload 12 6), phase := beNat (slice (dm 4 0 (epm 2000)).payload 20 4) : Epoch }.cyc { id := beNat (slice (dm 4 0 (epm 2000)).payload 0 2), groups := BitVec.ofNat 64 (beNat (slice (dm 4 0 (epm 2000)).payload 4 8)), cyc := beNat (slice (dm 4 0 (epm 2000)).payload 12 6), phase := beNat (slice (dm 4 0 (epm 2000)).payload 20 4) : Epoch }.phase = false ∧ 8 ≤ in23.dev.cyc.epochs.length) ∧
    (Heard in24.dev 4 (dm 4 0 (epm 100)) ∧ Prevails in24.dev (dm 4 0 (epm 100)) ∧ (dm 4 0 (epm 100)).hops = 0 ∧ in24.dev.inCharge = false ∧ (in24.dev.advanceTo T).phaseReached { id := beNat (slice (dm 4 0 (epm 100)).payload 0 2), groups := BitVec.ofNat 64 (beNat (slice (dm 4 0 (epm 100)).payload 4 8)), cyc := beNat (slice (dm 4 0 (epm 100)).payload 12 6), phase := beNat (slice (dm 4 0 (epm 100)).payload 20 4) : Epoch }.cyc { id := beNat (slice (dm 4 0 (epm 100)).payload 0 2), groups := BitVec.ofNat 64 (beNat (slice (dm 4 0 (epm 100)).payload 4 8)), cyc := beNat (slice (dm 4 0 (epm 100)).payload 12 6), phase := beNat (slice (dm 4 0 (epm 100)).payload 20 4) : Epoch }.phase = true) ∧
    (Heard in25.dev 5 (dm 5 0 (pam 1024)) ∧ (dm 5 0 (pam 1024)).hops = 0 ∧ in25.dev.inCharge = true ∧ m7 ∈ in25.dev.fabric.members ∧ m7.uid = (dm 5 0 (pam 1024)).origin ∧ (∀ y ∈ in25.dev.fabric.members, y.uid = (dm 5 0 (pam 1024)).origin → y = m7) ∧ m7.num < 256 ∧ in25.dev.policy = 2) ∧
    (Heard in26.dev 5 (dm 5 0 (pam 1023)) ∧ (dm 5 0 (pam 1023)).hops = 0 ∧ in26.dev.inCharge = true ∧ m7 ∈ in26.dev.fabric.members ∧ m7.uid = (dm 5 0 (pam 1023)).origin ∧ (∀ y ∈ in26.dev.fabric.members, y.uid = (dm 5 0 (pam 1023)).origin → y = m7) ∧ m7.num < 256 ∧ in26.dev.policy = 0 ∧ in26.dev.cycSrc ≠ 2 ∧ in26.dev.fbit F.FAB_MEMBER.VALID [m7.num] = true ∧ (∀ n < 256, n ≠ m7.num → in26.dev.fget F.FAB_MEMBER.DEFICIT [n] ≤ beNat (slice (dm 5 0 (pam 1023)).payload 0 2)) ∧ in26.dev.fget F.CYC_STATUS.EFF_STRETCH [] < min 13107 (beNat (slice (dm 5 0 (pam 1023)).payload 0 2)) ∧ in26.dev.fabric.announced ≠ min 13107 (beNat (slice (dm 5 0 (pam 1023)).payload 0 2))) ∧
    (Heard in27.dev 6 (dm 6 0 (beBytes 8 7 ++ beBytes 2 65535 ++ z 6)) ∧ Prevails in27.dev (dm 6 0 (beBytes 8 7 ++ beBytes 2 65535 ++ z 6)) ∧ (dm 6 0 (beBytes 8 7 ++ beBytes 2 65535 ++ z 6)).hops = 0 ∧ in27.dev.fabState = 2 ∧ beNat (slice (dm 6 0 (beBytes 8 7 ++ beBytes 2 65535 ++ z 6)).payload 0 8) = in27.dev.uid) ∧
    (in28.dev.up = true ∧ in28.dev.fabEn = true ∧ in28.dev.fabState = 2 ∧ (∀ y ∈ in28.dev.fabric.members, y.num < 256) ∧ in28.dev.fabric.lastCycleRx = some 5 ∧ 5 + max (ms 10) (3 * in28.dev.cyc.per / 65536) ≤ max T in28.dev.now ∧ in28.dev.fbit F.FAB_STATUS.DEPUTY [] = true) ∧
    (in29.dev.up = true ∧ in29.dev.fabEn = true ∧ in29.dev.fabState = 2 ∧ (∀ y ∈ in29.dev.fabric.members, y.num < 256) ∧ in29.dev.fabric.lastCycleRx = some 5 ∧ 5 + max (ms 10) (3 * in29.dev.cyc.per / 65536) ≤ max T in29.dev.now ∧ in29.dev.fbit F.FAB_STATUS.DEPUTY [] = false ∧ in29.dev.fabric.silent = false) ∧
    (Heard in30.dev 7 (dm 7 0 (z 8)) ∧ Prevails in30.dev (dm 7 0 (z 8)) ∧ (dm 7 0 (z 8)).hops = 0 ∧ in30.dev.inCharge = false) ∧
    (Heard in31.dev 7 (dm 7 0 (z 8)) ∧ Prevails in31.dev (dm 7 0 (z 8)) ∧ (dm 7 0 (z 8)).hops = 0 ∧ in31.dev.inCharge = true) ∧
    (in32.dev.up = true ∧ in32.dev.fabEn = true ∧ in32.dev.fabState = 5 ∧ (∀ y ∈ in32.dev.fabric.members, y.num < 256)) ∧
    (in33.dev.up = true ∧ in33.dev.fabState = 6) ∧
    (in34.dev.up = true ∧ in34.dev.stkOn = true ∧ in34.dev.fabric.stkMe = some 3 ∧ (∀ (x : ℕ), in34.dev.fabric.lastStk = some x → x + ms 10 ≤ max T in34.dev.now)) ∧
    (in35.dev.up = true ∧ in35.dev.stkOn = true ∧ in35.dev.stackPort 1023 = true ∧ 8 ≠ in35.dev.uid) ∧
    (in36.dev.up = true ∧ in36.dev.stkOn = true ∧ { uid := 8, pri := 1, num := some 1, lastSeen := ms 170 : StkDev } ∈ in36.dev.fabric.stk ∧ { uid := 8, pri := 1, num := some 1, lastSeen := ms 170 : StkDev }.uid = 8 ∧ { uid := 8, pri := 1, num := some 1, lastSeen := ms 170 : StkDev }.lastSeen + ms 30 ≤ max T in36.dev.now) := by
  and_intros <;> first | decide +kernel | (unfold Prevails; decide +kernel)

end W15

namespace W16

def f0 : Flow := { slice := 31, profile := 3, hash := 5, port := 1023, packets := 9, bytes := 900, first := 0, last := 0 }
def fl (l : List Flow) (d : Dev) : Dev := { d with mat := { d.mat with flows := l } }
def in1 : State := sA (fl [f0, { f0 with last := sec 29, hash := 6 }, { f0 with slice := 30 }])
def in2 : State := sA (fl [f0, { f0 with slice := 30 }])
def in3 : State := sA (fl [f0, { f0 with profile := 2 }, { f0 with slice := 30 }])
def selc (j ix : Nat) (d : Dev) : Dev := (d.fset F.TEL_CSEL.EN [31, j] 1).fset F.TEL_CSEL.INDEX [31, j] ix
def okIx : Nat := Ct.LN_RX_OVERRUN_CNT 3
def badIx : Nat := Ct.FAB_LATE_CNT 0
def deny (i : Nat) (d : Dev) : Dev := d.fset F.CNT_ALLOW.ALLOW [bitsN i 31 26] (d.fget F.CNT_ALLOW.ALLOW [bitsN i 31 26] - 2 ^ (bitsN i 25 21))
def in4 : State := sA fun d => (deny badIx (selc 0 okIx (selc 15 badIx (selc 7 4294967295 d)))).count okIx 5
def in5 : State := sA fun d => (d.fset F.EVT_STATUS.STATUS [47] 0xFFFFFFFF).fset F.EVT_STATUS.HIGH [47] 0xF0F0F0F0
def in6 : State := sA id
def pt (st : Nat) (d : Dev) : Dev :=
  (((Dev.fset { d with lane := { d.lane with ports := [(5, {}), (1023, {})] } } F.LN_PORT.EN [1023] 1).fset F.LN_PORT.SLICE [1023] 31).fset F.LN_PORT.SLOT [1023] 31).fset F.LN_PSTAT.STATE [1023] st
def in7 : State := sA fun d => let d := pt 5 d; { d with prs := { d.prs with frames := [{ id := 3, port := 1023 }, { id := 4, port := 5 }] } }
def cur (r : SliceRepair) (st : Nat) (d : Dev) : Dev := (Dev.fset { d with rep := { d.rep with cur := some r } } F.GLB_REP_STATUS.STATE [] st).fset F.GLB_REP_STATUS.SLICE [] r.slice
def r31 : SliceRepair := { slice := 31, start := 0, upPorts := [1023], lost := 2 ^ 24 }
def in8 : State := sA fun d => cur { r31 with slice := 0 } 1 (pt 5 d)
def in8x0 : SliceRepair := { r31 with slice := 0 }
def in9 : State := sA fun d => cur r31 1 (pt 5 d)
def in10 : State := sA fun d => cur r31 2 (pt 7 d)
def in11 : State := sA fun d => cur r31 2 (pt 7 d)
def in12 : State := sA fun d => (cur r31 3 (pt 5 d)).fset F.GLB_REP_STATUS.NEXT [] 15
def fq (st : Nat) (d : Dev) : Dev := Dev.fset { d with csq := { d.csq with faulted := [1], faultTime := [(1, 0)] } } F.CSQ_STATUS.STATE [] st
def rq (st : Nat) (d : Dev) : Dev := let d := fq st d; { d with csq := { d.csq with repairing := [1] } }
def in13 : State := sA (fq 2)
def in14 : State := sA fun d => (fq 2 d).fset F.GLB_REP_CTL.CSQ_AUTO [] 1
def in15 : State := sA (rq 2)
def in16 : State := sA (rq 2)
def x31 : Sparing := { target := 31, port := 1023, start := 0, restore := true }
def spg (d : Dev) : Dev := let d := (pt 5 d).fset F.LN_SPARE.STATE [31] 3 |>.fset F.LN_SPARE.REPLACED [31] 31; { d with lane := { d.lane with sparing := [(31, x31)] } }
def in17 : State := sA spg
def in18 : State := sA spg
def in19 : State := sA fun d => (pt 5 d).fset F.LN_SPARE.STATE [31] 3 |>.fset F.LN_SPARE.REPLACED [31] 31
def in20 : State := sA fun d => (pt 5 d).fset F.LN_SPARE.STATE [31] 2
def in21 : State := sA fun d => cur r31 2 (pt 5 d)

theorem witness_DigestsEventsAndRepair :
    (in1.dev.up = true ∧ 31 < 32 ∧ in1.dev.sliceOn 31 = true) ∧
    (in2.dev.up = true ∧ 31 < 32) ∧
    (in3.dev.up = true ∧ 31 < 32 ∧ 3 < 4) ∧
    (in4.dev.up = true ∧ 31 < 32 ∧ in4.dev.sliceOn 31 = true) ∧
    (in5.dev.up = true ∧ 47 < 48) ∧
    (in6.dev.up = true ∧ 47 < 48) ∧
    (in7.dev.up = true ∧ 31 < 32 ∧ in7.dev.rep.cur = none ∧ 31 ∉ in7.dev.rep.queue) ∧
    (in8.dev.up = true ∧ 31 < 32 ∧ in8.dev.rep.cur = some in8x0 ∧ in8x0.slice ≠ 31 ∧ 31 ∉ in8.dev.rep.queue) ∧
    (in9.dev.up = true ∧ in9.dev.rep.cur = some r31 ∧ r31.slice < 32 ∧ in9.dev.fget F.GLB_REP_STATUS.STATE [] = 1 ∧ in9.dev.prs.frames = [] ∧ in9.dev.sliceEmpty r31.slice = true) ∧
    (in10.dev.up = true ∧ in10.dev.rep.cur = some r31 ∧ r31.slice < 32 ∧ in10.dev.fget F.GLB_REP_STATUS.STATE [] = 2 ∧ in10.dev.rep.queue = [] ∧ in10.dev.rep.keptLanes = [] ∧ in10.dev.rep.keptGo = [] ∧ in10.dev.fbit F.LN_SPARE.GO [r31.slice] = false ∧ (1 = 1 ∨ 1 = 2)) ∧
    (in11.dev.up = true ∧ in11.dev.rep.cur = some r31 ∧ r31.slice < 32 ∧ in11.dev.fget F.GLB_REP_STATUS.STATE [] = 2) ∧
    (in12.dev.up = true ∧ in12.dev.rep.cur = some r31 ∧ r31.slice < 32 ∧ in12.dev.fget F.GLB_REP_STATUS.STATE [] = 3 ∧ (∀ p ∈ r31.upPorts, in12.dev.fbit F.LN_PORT.EN [p] = false ∨ in12.dev.fbit F.LN_PCTL.DORMANT [p] = true ∨ in12.dev.portState p ≠ 7) ∧ in12.dev.rep.queue = [] ∧ in12.dev.rep.keptLanes = [] ∧ in12.dev.rep.keptGo = [] ∧ in12.dev.fbit F.LN_SPARE.GO [r31.slice] = false) ∧
    (in13.dev.up = true ∧ 1 < 2 ∧ 1 ∈ in13.dev.csq.faulted ∧ 1 ∉ in13.dev.csq.repairing ∧ (in13.dev.precision = true ∨ in13.dev.fget F.CSQ_STATUS.STATE [] ≠ 1)) ∧
    (in14.dev.up = true ∧ 1 < 2 ∧ 1 ∈ in14.dev.csq.faulted ∧ 1 ∉ in14.dev.csq.repairing ∧ (in14.dev.precision = true ∨ in14.dev.fget F.CSQ_STATUS.STATE [] ≠ 1) ∧ mget? in14.dev.csq.faultTime 1 = some 0 ∧ in14.dev.fbit F.GLB_REP_CTL.CSQ_AUTO [] = true ∧ 0 + ms 100 ≤ max (ms 100) in14.dev.now) ∧
    (in15.dev.up = true ∧ 1 < 2 ∧ 1 ∈ in15.dev.csq.repairing ∧ 1 ≠ 0) ∧
    (in16.dev.up = true ∧ 1 < 2 ∧ 1 ∈ in16.dev.csq.repairing) ∧
    (in17.dev.up = true ∧ 31 < 32 ∧ in17.dev.sparingOf 31 = some x31 ∧ x31.restore = true ∧ x31.tested = false ∧ x31.start + ms 10 ≤ max (ms 10) in17.dev.now) ∧
    (in18.dev.up = true ∧ 31 < 32 ∧ in18.dev.sparingOf 31 = some x31 ∧ x31.restore = true ∧ x31.tested = false ∧ x31.start + ms 10 ≤ max (ms 10) in18.dev.now) ∧
    (in19.dev.up = true ∧ 31 < 32 ∧ in19.dev.sliceRepairing 31 = false ∧ in19.dev.sparingOf 31 = none ∧ in19.dev.fget F.LN_SPARE.STATE [31] = 3) ∧
    (in20.dev.up = true ∧ 31 < 32 ∧ in20.dev.sliceRepairing 31 = false ∧ in20.dev.fget F.LN_SPARE.STATE [31] ≠ 3) ∧
    (in21.dev.up = true ∧ 31 < 32 ∧ in21.dev.sliceRepairing 31 = true) := by
  and_intros <;> decide +kernel

end W16

end Sys2Proof.Tests
end

section
/-! SUPPORT. What sending leaves (R59, R68 to R70): a frame that leaves a control port of the device, the events that this raises and the
move of sessions to the other port leave the sequencers' registers, the status bits that are set, and every stopped context. -/

namespace Sys2Proof.Machine

/-- A stopped context is stopped still and holds what it held. -/
def HeldStopped (x y : Ctx) : Prop := y.st = .stopped ∧ y.pc = x.pc ∧ y.g = x.g ∧ y.p = x.p

theorem HeldStopped.trans {x y z : Ctx} (h : HeldStopped x y) (k : HeldStopped y z) : HeldStopped x z := by
  obtain ⟨_, hpc, hg, hp⟩ := h
  obtain ⟨kst, kpc, kg, kp⟩ := k
  exact ⟨kst, kpc.trans hpc, kg.trans hg, kp.trans hp⟩

/-- From d to e the sequencers' registers (chapter 04) read the same, no event status bit is cleared, and stopped contexts are held. -/
structure KeepsStopped (d e : Dev) : Prop where
  regs : ∀ (n : RegName) (ix : List Nat), 0x100020000 ≤ n.addr ix → n.addr ix < 0x100030000 → e.rget n ix = d.rget n ix
  seen : SeenGrows d e
  ctxs : ∀ (i : Nat) (x : Ctx), d.csq.ctxs[i]? = some x → x.st = .stopped → ∃ y, e.csq.ctxs[i]? = some y ∧ HeldStopped x y

namespace KeepsStopped

variable {d e f : Dev}

/-- Nothing is lost where the registers and the sequencers are as before. -/
theorem of_same (hr : e.regs = d.regs) (hq : e.csq = d.csq) : KeepsStopped d e where
  regs n ix _ _ := Dev.rget_congr hr n ix
  seen j hj := by rw [Dev.evSeen, Dev.fget_congr hr]; exact hj
  ctxs i x hx hs := ⟨x, by rw [hq]; exact hx, hs, rfl, rfl, rfl⟩

theorem refl (d : Dev) : KeepsStopped d d := of_same rfl rfl

theorem trans (h : KeepsStopped d e) (k : KeepsStopped e f) : KeepsStopped d f where
  regs n ix h1 h2 := (k.regs n ix h1 h2).trans (h.regs n ix h1 h2)
  seen j hj := k.seen j (h.seen j hj)
  ctxs i x hx hs := by
    obtain ⟨y, hy, hxy⟩ := h.ctxs i x hx hs
    obtain ⟨z, hz, hyz⟩ := k.ctxs i y hy hxy.1
    exact ⟨z, hz, hxy.trans hyz⟩

theorem foldl {β : Type} (g : Dev → β → Dev) (l : List β) (h : ∀ b ∈ l, ∀ d, KeepsStopped d (g d b)) (d : Dev) :
    KeepsStopped d (l.foldl g d) := by
  induction l generalizing d with
  | nil => exact refl d
  | cons b l ih =>
    exact (h b (List.mem_cons_self ..) d).trans (ih (fun c hc => h c (List.mem_cons_of_mem _ hc)) _)

theorem iter (n : Nat) (g : Dev → Dev) (h : ∀ d, KeepsStopped d (g d)) (d : Dev) : KeepsStopped d (Machine.iter n g d) := by
  induction n generalizing d with
  | zero => exact refl d
  | succ n ih => exact (h d).trans (ih _)

/-- A store below the sequencers' registers. -/
theorem rset (d : Dev) (n : RegName) (ix : List Nat) (v : Word) (hn : n.addr ix < 0x100020000) : KeepsStopped d (d.rset n ix v) where
  regs m jx h1 _ := Dev.rget_rset_ne _ _ _ _ _ _ (by omega)
  seen j hj := by
    have ha : n.addr ix ≠ RegName.addr .EVT_STATUS [j / 32] := by rw [evtStatus_addr]; omega
    rw [Dev.evSeen, Dev.fget, Dev.rget_rset_ne _ _ _ _ _ _ ha]
    exact hj
  ctxs i x hx hs := ⟨x, hx, hs, rfl, rfl, rfl⟩

theorem fset (d : Dev) (g : Fld) (ix : List Nat) (v : Nat) (hg : g.reg.addr ix < 0x100020000) : KeepsStopped d (d.fset g ix v) :=
  rset d g.reg ix _ hg

theorem fsets (d : Dev) (l : List (Fld × Nat)) (ix : List Nat) (hl : ∀ p ∈ l, p.1.reg.addr ix < 0x100020000) : KeepsStopped d (d.fsets l ix) :=
  foldl _ l (fun p hp d => fset d p.1 ix p.2 (hl p hp)) d

end KeepsStopped

/-- A record that arrives leaves a stopped context stopped, at its PC and with its values. -/
theorem Ctx.pushRec_stopped (x : Ctx) (r : EvRec) (hs : x.st = .stopped) : HeldStopped x (x.pushRec r) := by
  unfold Ctx.pushRec
  split
  · have hw : Ctx.wakeToHandler { x with evq := x.evq ++ [r] } = { x with evq := x.evq ++ [r] } := by
      unfold Ctx.wakeToHandler
      split <;> simp [hs]
    rw [hw]
    exact ⟨hs, rfl, rfl, rfl⟩
  · exact ⟨hs, rfl, rfl, rfl⟩

/-- What a raise does to the contexts: those that select the event's group take its record (R96). -/
theorem Dev.raiseOne_ctxs (d : Dev) (id sev arg unit : Nat) :
    ∃ r, (d.raiseOne id sev arg unit).csq.ctxs = d.csq.ctxs.map fun x => if x.selects id then x.pushRec r else x := by
  unfold Dev.raiseOne
  extract_lets g i e1 e2 e3 r q e4
  have he4 : e4.csq.ctxs = d.csq.ctxs.map fun x => if x.selects id then x.pushRec r else x := by
    show e3.csq.ctxs.map _ = _
    have h3 : e3.csq = d.csq := by
      simp only [e3, e2]
      split <;> rfl
    rw [h3]
  refine ⟨r, ?_⟩
  split
  · exact he4
  · obtain ⟨c, t, h⟩ := raiseSessions_push e4 (fun d n => d.sessionOpen n && bitN (d.fget F.TVX_EVT_SUB.GROUPS [n]) g) r (List.range 8)
    exact (congrArg (fun d : Dev => d.csq.ctxs) h).trans he4

theorem KeepsStopped.raiseOne (d : Dev) (id sev arg unit : Nat) (hid : id < 1536) : KeepsStopped d (d.raiseOne id sev arg unit) where
  regs n ix _ h := d.raiseOne_rget id sev arg unit hid n ix (.inl (by omega))
  seen j hj := by rw [Dev.raiseOne_seen _ _ _ _ _ hid, hj, Bool.or_true]
  ctxs i x hx hs := by
    obtain ⟨r, hr⟩ := d.raiseOne_ctxs id sev arg unit
    refine ⟨if x.selects id then x.pushRec r else x, by rw [hr, List.getElem?_map, hx]; rfl, ?_⟩
    split
    · exact x.pushRec_stopped r hs
    · exact ⟨hs, rfl, rfl, rfl⟩

theorem KeepsStopped.raiseSev (d : Dev) (id sev arg unit : Nat) (hid : id < 1536) : KeepsStopped d (d.raiseSev id sev arg unit) := by
  unfold Dev.raiseSev
  extract_lets full e
  have he : KeepsStopped d e := raiseOne d id sev arg unit hid
  split
  · exact he
  · exact he.trans (foldl _ full (fun i _ d => raiseOne d _ _ _ _ (by decide)) e)

theorem KeepsStopped.raise (d : Dev) (id arg unit : Nat) (hid : id < 1536) : KeepsStopped d (d.raise id arg unit) := raiseSev d id _ _ unit hid

/-- The addresses of a control port's registers, of a session's and of the recovery log, for the indices that exist. -/
theorem ctlMsec_addr (k : Nat) : RegName.addr .CTL_MSEC [k] = 0x100000020 + 8 * k := rfl
theorem ctlMsecStat_addr (k : Nat) : RegName.addr .CTL_MSEC_STAT [k] = 0x100000030 + 8 * k := rfl
theorem ctlCp_addr (k : Nat) : RegName.addr .CTL_CP [k] = 0x100000000 + 8 * k := rfl
theorem tvxSession_addr (n : Nat) : RegName.addr .TVX_SESSION [n] = 0x100010200 + 8 * n := rfl
theorem glbRecovLog_addr (i : Nat) : RegName.addr .GLB_RECOV_LOG [i] = 0x500 + 8 * i := rfl

theorem KeepsStopped.saSet (d : Dev) (k dir slot : Nat) (x : Sa) (hk : k < 2) : KeepsStopped d (d.saSet k dir slot x) := by
  unfold Dev.saSet
  extract_lets src e bits
  have he : KeepsStopped d e := of_same rfl rfl
  refine he.trans (fsets e _ [k] fun p hp => ?_)
  have hreg : p.1.reg = .CTL_MSEC_STAT := by
    simp only [List.mem_cons, List.not_mem_nil, or_false] at hp
    obtain rfl | rfl | rfl := hp <;> rfl
  rw [hreg, ctlMsecStat_addr]
  omega

/-- A frame leaves a control port that exists. -/
theorem KeepsStopped.cpEmit (d : Dev) (f : CpFrame) (hk : f.port < 2) : KeepsStopped d (d.cpEmit f) := by
  unfold Dev.cpEmit
  extract_lets k d1 log slot x d2 d3 src
  have h1 : KeepsStopped d d1 := of_same rfl rfl
  have hlog : KeepsStopped d (log d1) := of_same rfl rfl
  split
  · exact refl d
  split
  · exact hlog
  split
  · exact h1
  have h2 : KeepsStopped d d2 := hlog.trans (saSet _ _ _ _ _ hk)
  have h3 : KeepsStopped d d3 := by
    simp only [d3]
    split
    · exact h2.trans (raise _ _ _ _ (by decide))
    · exact h2
  split
  · split
    · have hm : RegName.addr .CTL_MSEC [k] < 0x100020000 := by rw [ctlMsec_addr]; omega
      exact ((h3.trans (fset d3 F.CTL_MSEC.TXSA [k] (1 - slot) hm)).trans (saSet _ _ _ _ _ hk)).trans (raiseSev _ _ _ _ _ (by decide))
    · have hs : KeepsStopped d3 { d3 with ctl := { d3.ctl with stopped := d3.ctl.stopped ++ [k] } } := of_same rfl rfl
      exact (h3.trans hs).trans (raiseSev _ _ _ _ _ (by decide))
  · exact h3

theorem KeepsStopped.sessMod (d : Dev) (n : Nat) (f : Session → Session) : KeepsStopped d (d.sessMod n f) := by
  unfold Dev.sessMod
  split <;> exact of_same rfl rfl

theorem KeepsStopped.sessEmit (d : Dev) (n k : Nat) (f : CpFrame) (hk : k < 2) : KeepsStopped d (d.sessEmit n k f) :=
  (cpEmit d _ hk).trans (sessMod _ _ _)

/-- The current port of a session exists: its field has one bit. -/
theorem Dev.sessPort_lt (d : Dev) (n : Nat) (hn : n < 8) : d.sessPort n < 2 := by
  rw [Dev.sessPort, if_pos hn]
  exact d.fget_lt F.TVX_SESSION.PORT [n]

theorem KeepsStopped.sendNumbered (d : Dev) (n : Nat) (f : CpFrame) (hn : n < 8) : KeepsStopped d (d.sendNumbered n f) :=
  (sessMod d n _).trans (sessEmit _ _ _ _ (Dev.sessPort_lt _ n hn))

theorem KeepsStopped.pump (d : Dev) (n : Nat) (hn : n < 8) : KeepsStopped d (d.pump n) := by
  refine iter _ _ (fun d => ?_) d
  split
  · split
    · exact (sessMod d n _).trans (sendNumbered _ n _ hn)
    · exact refl d
  · exact refl d

theorem KeepsStopped.reply (d : Dev) (n tag status : Nat) (faultPc : Option Nat) (icount : Nat) (g : List Word) (hn : n < 8) :
    KeepsStopped d (d.reply n tag status faultPc icount g) := by
  unfold Dev.reply
  extract_lets pc e f
  have he : KeepsStopped d e := by
    simp only [e]
    split <;> exact of_same rfl rfl
  exact (he.trans (sessMod e n _)).trans (pump _ n hn)

theorem KeepsStopped.resend (d : Dev) (n k : Nat) (hk : k < 2) : KeepsStopped d (d.resend n k) :=
  foldl _ _ (fun _ _ d => sessEmit d n k _ hk) d

theorem KeepsStopped.showActive (d : Dev) : KeepsStopped d d.showActive :=
  foldl _ _ (fun k hk d => fset d _ _ _ (by have := List.mem_range.1 hk; rw [ctlCp_addr]; omega)) d

theorem KeepsStopped.recovered (d : Dev) (kind unit lost gap start : Nat) : KeepsStopped d (d.recovered kind unit lost gap start) := by
  unfold Dev.recovered
  extract_lets i d1 d2
  have hi : RegName.addr .GLB_RECOV_LOG [i] < 0x100020000 := by
    have : i < 16 := d.fget_lt F.GLB_REP_STATUS.NEXT []
    rw [glbRecovLog_addr]; omega
  have h1 : KeepsStopped d d1 := rset d _ _ _ hi
  have h2 : KeepsStopped d1 d2 := by
    refine fsets d1 _ [i] fun p hp => ?_
    have hreg : p.1.reg = .GLB_RECOV_LOG := by
      simp only [List.mem_cons, List.not_mem_nil, or_false] at hp
      obtain rfl | rfl | rfl | rfl | rfl | rfl := hp <;> rfl
    rw [hreg]; exact hi
  exact ((h1.trans h2).trans (fset d2 _ _ _ (by decide))).trans (raise _ _ _ _ (by decide))

theorem KeepsStopped.failover (d : Dev) (k : Nat) : KeepsStopped d (d.failover k) := by
  unfold Dev.failover
  extract_lets o who d1 src d2 d3
  have ho : o < 2 := by omega
  have hwho : ∀ n ∈ who, n < 8 := fun n hn => List.mem_range.1 (List.mem_filter.1 hn).1
  have h1 : KeepsStopped d d1 := foldl _ who (fun n hn d =>
    ((fset d F.TVX_SESSION.PORT [n] o (by have := hwho n hn; rw [tvxSession_addr]; omega)).trans (resend _ n o ho)).trans (pump _ n (hwho n hn))) d
  have h2 : KeepsStopped d1 d2 := by
    simp only [d2]
    split
    · have hp : KeepsStopped d1 { d1 with ctl := { d1.ctl with lastPort := o } } := of_same rfl rfl
      exact hp.trans (resend _ _ o ho)
    · exact refl d1
  have h3 : KeepsStopped d d3 := (h1.trans h2).trans (showActive d2)
  split
  · exact refl d
  split
  · exact h3
  · exact (h3.trans (raise _ _ _ _ (by decide))).trans (recovered ..)

theorem KeepsStopped.settlePorts (d0 d : Dev) : KeepsStopped d (Dev.settlePorts d0 d) := by
  refine foldl _ _ (fun k _ d => ?_) d
  split
  · exact failover d k
  · exact refl d

end Sys2Proof.Machine
end

section
/-! SUPPORT. Issue of a sequencer instruction (R82 to R85, R109), said once: what the command of an opcode does with the word that its context
fetches, when the word is illegal and when it executes. -/

namespace Sys2Proof.Machine

@[simp] theorem Dev.ctx_advanceTo (d : Dev) (t sq c : Nat) : (d.advanceTo t).ctx sq c = d.ctx sq c := by simp [Dev.ctx]
@[simp] theorem Dev.seqWord_advanceTo (d : Dev) (t sq c : Nat) : (d.advanceTo t).seqWord sq c = d.seqWord sq c := by simp [Dev.seqWord]
@[simp] theorem Dev.mayFetch_advanceTo (d : Dev) (t sq c : Nat) : (d.advanceTo t).mayFetch sq c = d.mayFetch sq c := by
  simp [Dev.mayFetch, Dev.regionBase, Dev.regionLen]
@[simp] theorem Dev.canIssue_advanceTo (d : Dev) (t sq c : Nat) : (d.advanceTo t).canIssue sq c = d.canIssue sq c := by
  simp [Dev.canIssue, Dev.imageLoaded, Dev.seqInService]

end Sys2Proof.Machine

namespace Sys2Proof.Safety

open Sys2Proof.Machine

section
variable {d : Dev} {sq c op : Nat} {w : Word}

/-- A context that is to issue a word exists, and so do its sequencer and its number. -/
theorem Fetches.ready (h : Fetches d sq c w) : sq < 2 ∧ c < 8 ∧ (d.ctx sq c).st = .ready := by
  have hi := h.1
  simp only [Dev.canIssue, Bool.and_eq_true, decide_eq_true_eq, beq_iff_eq] at hi
  obtain ⟨⟨⟨⟨⟨-, hsq⟩, hc⟩, -⟩, hst⟩, -⟩ := hi
  exact ⟨hsq, hc, hst⟩

theorem Fetches.ctx_eq (h : Fetches d sq c w) : d.csq.ctxs[ctxIx sq c]? = some (d.ctx sq c) := by
  cases hx : d.csq.ctxs[ctxIx sq c]? with
  | some x => simp [Dev.ctx, List.getD, hx]
  | none =>
    have hidle : (d.ctx sq c).st = .idle := by simp [Dev.ctx, List.getD, hx]
    rw [h.ready.2.2] at hidle
    cases hidle

/-- An illegal word stops the routine with fault kind 1, whatever the opcode of the command (R109). -/
theorem Fetches.issue_illegal (h : Fetches d sq c w) (hw : illegalWord w = true) (t : Nat) (exe : Dev → Word → Bool → Dev) :
    d.issue t sq c 0 op exe = Dev.settlePorts (d.advanceTo t) ((d.advanceTo t).routineFault sq c 1) := by
  obtain ⟨hi, hm, hs, rfl⟩ := h
  have hs' : (d.ctx sq c).since ≠ 256 := by omega
  simp [Dev.issue, hi, hm, hs', hw, Dev.eccSeen, bitN]

/-- A legal word of the command's own opcode is handed to it with its predicate. -/
theorem IssuesOp.issue (h : IssuesOp d sq c op w) (t : Nat) (exe : Dev → Word → Bool → Dev) :
    d.issue t sq c 0 op exe = Dev.settlePorts (d.advanceTo t) (exe (d.advanceTo t) w ((d.ctx sq c).goes w)) := by
  obtain ⟨⟨hi, hm, hs, rfl⟩, hlegal, rfl⟩ := h
  have hs' : (d.ctx sq c).since ≠ 256 := by omega
  simp [Dev.issue, hi, hm, hs', hlegal, Dev.eccSeen, Dev.diverges, bitN]

/-- An instruction that changes only its context retires with that change. -/
theorem Issues.local_retires (h : Issues d sq c op w) (t : Nat) (f : Word → Ctx → Ctx) :
    Retires (d.advanceTo t) (d.local t sq c 0 op f) sq c (f w) := by
  have hl : d.local t sq c 0 op f = (d.advanceTo t).finish sq c (f w) := by
    rw [Dev.local, Dev.instr, h.1.issue, h.2, if_pos rfl]
    exact settlePorts_same _ _ fun _ _ hk => hk
  rw [hl]
  rfl

end

theorem lmod_congr {α : Type} (l : List α) (i : Nat) (f g : α → α) (h : ∀ x, l[i]? = some x → f x = g x) : lmod l i f = lmod l i g := by
  induction l generalizing i with
  | nil => rfl
  | cons x l ih =>
    cases i with
    | zero => exact congrArg (· :: l) (h x rfl)
    | succ i => exact congrArg (x :: ·) (ih i h)

/-- What an instruction does to its context may be stated with the registers that the context holds. -/
theorem Retires.congr {d e : Dev} {sq c : Nat} {f f' : Ctx → Ctx} (h : Retires d e sq c f)
    (hf : ∀ x : Ctx, x.g = (d.ctx sq c).g → f x = f' x) : Retires d e sq c f' := by
  have hx : ∀ x, d.csq.ctxs[ctxIx sq c]? = some x → x.g = (d.ctx sq c).g := by
    intro x hx
    simp [Dev.ctx, List.getD, hx]
  have hl := lmod_congr d.csq.ctxs (ctxIx sq c)
    (fun x => f { x with pc := x.pc + 1, icount := x.icount + 1, since := x.since + 1, st := .ready })
    (fun x => f' { x with pc := x.pc + 1, icount := x.icount + 1, since := x.since + 1, st := .ready }) fun x h1 => hf _ (hx x h1)
  rw [Retires, ← hl]
  exact h

end Sys2Proof.Safety
end

section
/-! SUPPORT. CMP: its conditions, its operand B and its predicate (R81, R90, R91). -/

namespace Sys2Proof.Safety

open Sys2Proof.Machine

/-- The eight conditions of CMP, in the order of FN[34:32] (R91). -/
theorem cmpCond_iff (k : Nat) (a b : Word) :
    (k = 0 → (cmpCond k a b = true ↔ a = b)) ∧ (k = 1 → (cmpCond k a b = true ↔ a ≠ b)) ∧
    (k = 2 → (cmpCond k a b = true ↔ a.toNat < b.toNat)) ∧ (k = 3 → (cmpCond k a b = true ↔ b.toNat ≤ a.toNat)) ∧
    (k = 4 → (cmpCond k a b = true ↔ a.toInt < b.toInt)) ∧ (k = 5 → (cmpCond k a b = true ↔ b.toInt ≤ a.toInt)) ∧
    (k = 6 → (cmpCond k a b = true ↔ a &&& b ≠ 0)) ∧ (k = 7 → (cmpCond k a b = true ↔ a &&& b = 0)) := by
  refine ⟨?_, ?_, ?_, ?_, ?_, ?_, ?_, ?_⟩ <;> rintro rfl <;> simp [cmpCond, BitVec.ult, BitVec.slt]

/-- IMM is sign-extended (R84). -/
theorem iSimm_eq (w : Word) : iSimm w = BitVec.signExtend 64 (w.setWidth 32) := by
  have himm : sext 32 (iImm w) = (w.setWidth 32).toInt := by
    simp [sext, iImm, wbits, bitsN, BitVec.toInt]
  rw [iSimm, himm, BitVec.signExtend]
  apply BitVec.eq_of_toNat_eq
  simp only [unsext, BitVec.toNat_ofNat, BitVec.toNat_ofInt]
  omega

theorem setPred_eq (x : Ctx) (n : Nat) (b : Bool) : x.setPred n b = setP n b x := by
  have hbit : BitVec.ofNat 8 (2 ^ n) = 1#8 <<< n := by
    apply BitVec.eq_of_toNat_eq
    simp [Nat.shiftLeft_eq]
  rw [Ctx.setPred, setP, hbit]

theorem iPc_eq (w : Word) : iPc w = (w >>> 35).toNat % 8 := by simp [iPc, wbits, bitsN]

/-- CMP's condition is FN[34:32] (R91). -/
theorem iFn_cond (w : Word) : iFn w 34 32 = (w >>> 32).toNat % 8 := by simp [iFn, wbits, bitsN]

/-- CMP writes its predicate with its condition of the operands, and nothing else (R91). With `cmpCond_iff` this is the first clause of O27,
which holds as it stands. -/
theorem cmp_retires (s : State) (t sq c : Nat) (w : Word) (h : Issues s.dev sq c 0x0B w) :
    let a := (s.dev.ctx sq c).g.getD (iRa w) 0
    let b := if w.getLsbD 38 then BitVec.signExtend 64 (w.setWidth 32) else (s.dev.ctx sq c).g.getD (iRb w) 0
    Does (.cmp t sq c 0) s fun d => Retires (s.dev.advanceTo t) d sq c (setP ((w >>> 35).toNat % 8) (cmpCond ((w >>> 32).toNat % 8) a b)) := by
  intro a b
  have hl := h.local_retires t fun w x => x.setPred (iPc w) (cmpCond (iFn w 34 32) (x.reg (iRa w)) (x.opB w))
  have hr := hl.congr (f' := setP ((w >>> 35).toNat % 8) (cmpCond ((w >>> 32).toNat % 8) a b)) fun x hx => by
    rw [Dev.ctx_advanceTo] at hx
    have ha : x.reg (iRa w) = a := by rw [Ctx.reg, hx]
    have hb : x.opB w = b := by rw [Ctx.opB, Ctx.reg, hx, iSimm_eq]; rfl
    rw [setPred_eq, ha, hb, iPc_eq, iFn_cond]
  refine Does.of_run (f := fun d => d.local t sq c 0 0x0B _) rfl rfl ?_ ?_ hr
  · rw [hr]; simp
  · rw [hr]; simp

end Sys2Proof.Safety
end

section
/-! SUPPORT. A routine fault (R109) and the words of MOVI, MOVHI, BFX and BFI that are ILLEGAL (R84, R91). -/

namespace Sys2Proof.Machine

/-- A context held stopped, by its sequencer and number. -/
theorem KeepsStopped.ctx {d e : Dev} (h : KeepsStopped d e) (sq c : Nat) (hs : (d.ctx sq c).st = .stopped) :
    HeldStopped (d.ctx sq c) (e.ctx sq c) := by
  cases hx : d.csq.ctxs[ctxIx sq c]? with
  | none => simp [Dev.ctx, List.getD, hx] at hs
  | some x =>
    have hd : d.ctx sq c = x := by simp [Dev.ctx, List.getD, hx]
    rw [hd] at hs ⊢
    obtain ⟨y, hy, hxy⟩ := h.ctxs _ x hx hs
    have he : e.ctx sq c = y := by simp [Dev.ctx, List.getD, hy]
    rw [he]
    exact hxy

/-- Beside stopping the context, the end of a routine sends its REPLYs (R71, R72). -/
theorem KeepsStopped.routineEnd (d : Dev) (sq c : Nat) (st : CtxState) (status : Nat) (pc : Option Nat) (hn : (d.ctx sq c).sid < 8) :
    KeepsStopped (d.ctxMod sq c fun x => x.stop st) (d.routineEnd sq c st status pc) := by
  unfold Dev.routineEnd
  extract_lets x d1 src d2 d3
  have h2 : KeepsStopped d1 d2 := of_same rfl rfl
  split
  · exact h2
  · exact (h2.trans (reply d2 x.sid _ _ _ _ _ hn)).trans (foldl _ _ (fun _ _ d => reply d x.sid _ _ _ _ _ hn) d3)

theorem csqCtxFault_addr (sq c : Nat) : RegName.addr .CSQ_CTX_FAULT [sq, c] = 0x100020300 + (0x1000 * sq + 8 * c) := rfl

end Sys2Proof.Machine

namespace Sys2Proof.Safety

open Sys2Proof.Machine

/-- Sending takes nothing back from a fault. -/
theorem Faulted.keepsStopped {d e f : Dev} {sq c kind : Nat} (h : Faulted d e sq c kind) (hsq : sq < 2) (hc : c < 8) (k : KeepsStopped e f) :
    Faulted d f sq c kind := by
  obtain ⟨hst, hpc, hg, hp, hrec, hev⟩ := h
  obtain ⟨kst, kpc, kg, kp⟩ := k.ctx sq c hst
  have hr := k.regs .CSQ_CTX_FAULT [sq, c] (by rw [csqCtxFault_addr]; omega) (by rw [csqCtxFault_addr]; omega)
  exact ⟨kst, kpc.trans hpc, kg.trans hg, kp.trans hp, hr.trans hrec, k.seen _ hev⟩

/-- A routine fault of a context that serves a session stops it with its record and its event (R109). -/
theorem routineFault_faulted (d : Dev) (sq c kind : Nat) (hsq : sq < 2) (hc : c < 8) (hin : ctxIx sq c < d.csq.ctxs.length)
    (hn : (d.ctx sq c).sid < 8) : Faulted d (d.routineFault sq c kind) sq c kind := by
  unfold Dev.routineFault
  extract_lets pc d1 d2
  have hcsq : d1.csq = d.csq := Dev.rset_csq ..
  have hrec : d1.rget .CSQ_CTX_FAULT [sq, c] = BitVec.ofNat 64 (2 ^ 63 + kind * 2 ^ 56 + (d.ctx sq c).pc.toNat) := Dev.rget_rset_same ..
  clear_value d1
  have h1 : d1.ctx sq c = d.ctx sq c := by rw [Dev.ctx, Dev.ctx, hcsq]
  have hctx : (d1.ctxMod sq c fun x => x.stop .stopped).ctx sq c = (d.ctx sq c).stop .stopped := by
    rw [Dev.ctx_ctxMod_same _ _ _ _ (by rw [hcsq]; exact hin), h1]
  have hend : KeepsStopped (d1.ctxMod sq c fun x => x.stop .stopped) d2 := .routineEnd d1 sq c _ _ _ (by rw [h1]; exact hn)
  have hid : (if kind = 5 then Ev.CSQ_SAFEPT else Ev.CSQ_FAULT) < 1536 := by split <;> decide
  have hk := hend.trans (.raise d2 (if kind = 5 then Ev.CSQ_SAFEPT else Ev.CSQ_FAULT) (ctxIx sq c) unitDev hid)
  obtain ⟨kst, kpc, kg, kp⟩ := hk.ctx sq c (by rw [hctx]; rfl)
  rw [hctx] at kpc kg kp
  refine ⟨kst, kpc, kg, kp, ?_, happened_raise d2 _ _ _ hid⟩
  rw [hk.regs .CSQ_CTX_FAULT [sq, c] (by rw [csqCtxFault_addr]; omega) (by rw [csqCtxFault_addr]; omega), Dev.rget_ctxMod]
  exact hrec

/-- The FN bits of an opcode that uses none are clear when FN is 0 (R84). -/
theorem fnClear_none (w : Word) : fnClear w 0 = decide ((w >>> 32).toNat % 128 = 0) := by
  have h : wbits w 38 32 &&& 127 = (w >>> 32).toNat % 128 := by
    rw [show 127 = 2 ^ 7 - 1 from rfl, Nat.and_two_pow_sub_one_eq_mod]
    simp [wbits, bitsN]
  rw [fnClear, Nat.sub_zero, h]
  rfl

/-- A word of MOVI, MOVHI, BFX or BFI with an FN bit set, and one of BFX or BFI with msb < lsb, is ILLEGAL (R84, R91). -/
theorem illegalWord_moveOrField (w : Word) (hop : iOp w = 0x09 ∨ iOp w = 0x0A ∨ iOp w = 0x0C ∨ iOp w = 0x0D)
    (hbad : (w >>> 32).toNat % 128 ≠ 0 ∨ ((iOp w = 0x0C ∨ iOp w = 0x0D) ∧ (w >>> 6).toNat % 64 < w.toNat % 64)) : illegalWord w = true := by
  have hused : fnUsed (iOp w) = some 0 := by
    obtain h | h | h | h := hop <;> rw [h] <;> rfl
  simp only [illegalWord, hused]
  obtain hfn | ⟨hfield, hlt⟩ := hbad
  · rw [fnClear_none, decide_eq_false hfn]
    rfl
  · have hmsb : iMsb w < iLsb w := by
      have : iMsb w = (w >>> 6).toNat % 64 := by simp [iMsb, iImm, wbits, bitsN]; omega
      have : iLsb w = w.toNat % 64 := by simp [iLsb, iImm, wbits, bitsN]
      omega
    obtain h | h := hfield <;> simp [h, hmsb]

/-- The second clause of O27 under the premise that it lacks: the context serves one of the sessions 0 to 7 (R64, R81). -/
theorem moveOrField_illegal_faults (s : State) (t sq c : Nat) (w : Word) (mk : Nat → Nat → Nat → Nat → Instr) (h : Fetches s.dev sq c w)
    (hsid : (s.dev.ctx sq c).sid < 8)
    (hmk : (iOp w, mk) ∈ ([(0x09, .movi), (0x0A, .movhi), (0x0C, .bfx), (0x0D, .bfi)] : List (Nat × (Nat → Nat → Nat → Nat → Instr))))
    (hbad : (w >>> 32).toNat % 128 ≠ 0 ∨ ((iOp w = 0x0C ∨ iOp w = 0x0D) ∧ (w >>> 6).toNat % 64 < w.toNat % 64)) :
    Does (mk t sq c 0) s fun d => Faulted (s.dev.advanceTo t) d sq c 1 := by
  simp only [List.mem_cons, List.not_mem_nil, or_false, Prod.mk.injEq] at hmk
  have hop : iOp w = 0x09 ∨ iOp w = 0x0A ∨ iOp w = 0x0C ∨ iOp w = 0x0D := by
    obtain ⟨h, -⟩ | ⟨h, -⟩ | ⟨h, -⟩ | ⟨h, -⟩ := hmk <;> simp [h]
  have hw := illegalWord_moveOrField w hop hbad
  obtain ⟨hsq, hc, -⟩ := h.ready
  have hin : ctxIx sq c < s.dev.csq.ctxs.length := (List.getElem?_eq_some_iff.1 h.ctx_eq).1
  have hfault : ∀ op f, Faulted (s.dev.advanceTo t) (s.dev.local t sq c 0 op f) sq c 1 := by
    intro op f
    rw [Dev.local, Dev.instr, h.issue_illegal hw]
    exact (routineFault_faulted _ sq c 1 hsq hc (by simpa using hin) (by simpa using hsid)).keepsStopped hsq hc (.settlePorts _ _)
  have hdoes : ∀ i op f, exec i s = (s.run fun d => d.local t sq c 0 op f) → Does i s fun d => Faulted (s.dev.advanceTo t) d sq c 1 :=
    fun i op f hi => ⟨_, hi, (hfault op f).keepsStopped hsq hc (.of_same rfl rfl)⟩
  obtain ⟨-, rfl⟩ | ⟨-, rfl⟩ | ⟨-, rfl⟩ | ⟨-, rfl⟩ := hmk
  · exact hdoes _ 0x09 _ rfl
  · exact hdoes _ 0x0A _ rfl
  · exact hdoes _ 0x0C _ rfl
  · exact hdoes _ 0x0D _ rfl

end Sys2Proof.Safety
end

section
/-! SUPPORT. O27 fails: its second clause also speaks of a context whose routine belongs to no session. The REPLY to such a routine leaves through
the boot ROM's exchange, on the port that this exchange used last, and that number is bounded in no state. With a number that no control port has,
the send stores the status of a security association over the fault record. -/

namespace Sys2Proof.Safety

open Sys2Proof.Machine

/-- A number that no control port has, for which CTL_MSEC_STAT would lie on CSQ_CTX_FAULT[0][0]. -/
def strayPort : Nat := 0x405A

theorem strayPort_addr : RegName.addr .CTL_MSEC_STAT [strayPort] = RegName.addr .CSQ_CTX_FAULT [0, 0] := by decide +kernel

/-- MOVI with FN[32] set, which is ILLEGAL. -/
def strayMovi : Word := BitVec.ofNat 64 (0x09 * 2 ^ 58 + 2 ^ 32)

/-- A device in Standby whose context 0 of sequencer 0 belongs to the boot ROM's exchange and is to issue that word from address 0. -/
def strayDev : Dev :=
  let d : Dev := {}
  { d with
    pwr := { d.pwr with dev := .standby }
    img := { d.img with boot := .standby }
    csq := { d.csq with
      store := [(0, strayMovi)]
      ctxs := lmod d.csq.ctxs (ctxIx 0 0) fun x => { x with st := .ready, sid := bootSess } }
    ctl := { d.ctl with
      boot := { hostWin := 1 }
      lastPort := strayPort
      sas := [(saIx strayPort 0 0, { valid := true })] } }

/-- In that device the exchange's last port is the stray one, with link and with protection on; the context's region is the word alone. -/
def strayState : State where
  pending := []
  dev := ((strayDev.fset F.CSQ_REGION.LEN [0, 0] 1).fset F.CTL_CP.LINK [strayPort] 1).fset F.CTL_MSEC.TXEN [strayPort] 1

theorem strayState_fetches : Fetches strayState.dev 0 0 strayMovi := by
  refine ⟨?_, ?_, ?_, ?_⟩ <;> decide +kernel

/-- The record of context 0 of sequencer 0 in the device that an outcome leaves. -/
def faultRecordAfter (o : Out) : Word :=
  match o with
  | .next s => s.dev.rget .CSQ_CTX_FAULT [0, 0]
  | _ => 0

/-- After the fault CSQ_CTX_FAULT[0][0] reads TXVALID = 1 and TXPN = 2 of the stray port: VALID of the record is 0, and PC is not the context's. -/
theorem strayState_faultRecord : faultRecordAfter (exec (.movi 0 0 0 0) strayState) = 0x4100000000000002 := by decide +kernel

/-- Refutes O27 by its second clause: in `strayState` the routine stops at an illegal MOVI and CSQ_CTX_FAULT does not hold the record of fault
kind 1. The clause lacks the premise that the context serves a session; with it `moveOrField_illegal_faults` proves the clause. -/
theorem not_compareAndFieldForms : ¬ Obligations.CompareAndFieldForms := by
  unfold Obligations.CompareAndFieldForms
  rintro ⟨-, hillegal⟩
  have hop : iOp strayMovi = 0x09 := by decide +kernel
  have hfn : (strayMovi >>> 32).toNat % 128 ≠ 0 := by decide +kernel
  obtain ⟨d, hexec, -, -, -, -, hrec, -⟩ :=
    hillegal strayState 0 0 0 strayMovi .movi strayState_fetches (by rw [hop]; exact List.mem_cons_self ..) (.inl hfn)
  have hread := strayState_faultRecord
  rw [hexec, faultRecordAfter, hrec] at hread
  exact absurd hread (by decide +kernel)

end Sys2Proof.Safety
end

section
/-! SUPPORT. Which register an address selects (R5, R6): an address that decodes lies in the register that it decodes to. -/

namespace Sys2Proof.Machine

/-- The index found for an offset gives the offset back. -/
theorem dimIndex_sum {dims : List (Nat × Nat)} {o : Nat} {ix : List Nat} (h : dimIndex dims o = some ix) :
    ((dims.zip ix).map fun p => p.1.2 * p.2).sum = o := by
  induction dims generalizing o ix with
  | nil =>
    simp only [dimIndex, Option.ite_none_right_eq_some] at h
    simp [h.1]
  | cons dim dims ih =>
    obtain ⟨cnt, stride⟩ := dim
    simp only [dimIndex, Option.ite_none_left_eq_some, Option.map_eq_some_iff] at h
    obtain ⟨-, rest, hrest, rfl⟩ := h
    have hle : o / stride * stride ≤ o := Nat.div_mul_le_self o stride
    simp only [List.zip_cons_cons, List.map_cons, List.sum_cons, ih hrest, Nat.mul_comm stride]
    omega

theorem regDecode_addr {a : Nat} {n : RegName} {ix : List Nat} (h : regDecode a = some (n, ix)) : a / 8 * 8 = n.addr ix := by
  obtain ⟨m, -, hm⟩ := List.mem_filterMap.1 (findFirst_some h).1
  simp only [Option.ite_none_right_eq_some, Option.map_eq_some_iff] at hm
  obtain ⟨hbase, jx, hjx, hpair⟩ := hm
  cases hpair
  rw [RegName.addr, dimIndex_sum hjx]
  omega

/-- The lane windows alone can be without power; no address below them is. -/
theorem Dev.blockOff_eq_false (d : Dev) {a : Nat} (ha : a < 0x1000000000) : d.blockOff a = false := by
  simp [Dev.blockOff, Nat.not_le.2 ha]

end Sys2Proof.Machine
end

section
/-! SUPPORT. A store field by field (R12): a bit that the mask leaves out stays, whatever the register's fields are. -/

namespace Sys2Proof.Machine

/-- A one-bit field is a bit of its register. -/
theorem Dev.fbit_eq_getLsbD (d : Dev) (f : Fld) (ix : List Nat) (hf : f.hi = f.lo) : d.fbit f ix = (d.rget f.reg ix).getLsbD f.lo := by
  simp [Dev.fbit, Dev.fget, wbits, bitsN, hf, BitVec.getLsbD, Nat.testBit, Nat.and_comm 1]

/-- A field that takes a store leaves each bit outside the mask. -/
theorem FieldSpec.getLsbD_store (f : FieldSpec) (qok : Bool) (cur v m : Word) (i : Nat) (hm : m.getLsbD i = false) :
    (f.store qok cur v m).getLsbD i = cur.getLsbD i := by
  unfold FieldSpec.store
  extract_lets b put
  have hlt : cur.getLsbD i = true → i < 64 := BitVec.lt_of_getLsbD
  have hb : b.getLsbD i = false := by simp [b, hm]
  have hput : put.getLsbD i = cur.getLsbD i := by simpa [put, hb] using hlt
  have hrw (c : Prop) [Decidable c] : (if c then cur else put).getLsbD i = cur.getLsbD i := by split <;> [rfl; exact hput]
  cases f.acc with
  | rw | rws | wo => exact hrw _
  | w1c => simpa [hb] using hlt
  | sc => simp [hb]
  | ro | ros => rfl

theorem getLsbD_foldl_store (fs : List FieldSpec) (qok : Bool) (cur v m : Word) (i : Nat) (hm : m.getLsbD i = false) :
    (fs.foldl (fun (w : Word) (f : FieldSpec) => f.store qok w v m) cur).getLsbD i = cur.getLsbD i := by
  induction fs generalizing cur with
  | nil => rfl
  | cons f fs ih => exact (ih _).trans (f.getLsbD_store qok cur v m i hm)

/-- What taking a store changes: the register itself, and the values in force. -/
theorem Dev.storeFields_eq (d : Dev) (n : RegName) (ix : List Nat) (v m : Word) :
    ∃ l, d.storeFields n ix v m =
      ({ d with inForce := l }).rset n ix (n.spec.fields.foldl (fun (w : Word) (f : FieldSpec) => f.store (d.qOpen n ix) w v m) (d.rget n ix)) := by
  unfold Dev.storeFields
  extract_lets fs qok cur new a pend d1
  simp only [d1]
  split <;> exact ⟨_, rfl⟩

theorem Dev.getLsbD_rget_storeFields (d : Dev) (n : RegName) (ix : List Nat) (v m : Word) (i : Nat) (hm : m.getLsbD i = false) :
    ((d.storeFields n ix v m).rget n ix).getLsbD i = (d.rget n ix).getLsbD i := by
  obtain ⟨l, hl⟩ := d.storeFields_eq n ix v m
  rw [hl, Dev.rget_rset_same]
  exact getLsbD_foldl_store _ _ _ _ _ _ hm

end Sys2Proof.Machine
end

section
/-! SUPPORT. What decides the layout check of R202, and what leaves it as it is: every change of a register outside the buffer's size and
reserve registers, and every raise. -/

namespace Sys2Proof.Machine

section
variable {α : Type}

/-- A sum over a sparse map's entries to which key k adds nothing is the same whatever is written at k. -/
theorem sum_map_mdel (m : List (Nat × α)) (k : Nat) (g : Nat × α → Nat) (hg : ∀ v, g (k, v) = 0) :
    ((mdel m k).map g).sum = (m.map g).sum := by
  induction m with
  | nil => rfl
  | cons p m ih =>
    obtain ⟨j, w⟩ := p
    simp only [mdel]
    split
    · subst j; simp [ih, hg]
    · simp [ih]

theorem sum_map_mins (m : List (Nat × α)) (k : Nat) (v : α) (g : Nat × α → Nat) (hg : ∀ v, g (k, v) = 0) :
    ((mins m k v).map g).sum = (m.map g).sum := by
  induction m with
  | nil => simp [mins, hg]
  | cons p m ih =>
    obtain ⟨j, w⟩ := p
    simp only [mins]
    split
    · subst j; simp [hg]
    · split
      · simp [hg]
      · simp [ih]

theorem sum_map_mset [DecidableEq α] (e : α) (m : List (Nat × α)) (k : Nat) (v : α) (g : Nat × α → Nat) (hg : ∀ v, g (k, v) = 0) :
    ((mset e m k v).map g).sum = (m.map g).sum := by
  unfold mset
  split
  · exact sum_map_mdel m k g hg
  · exact sum_map_mins m k v g hg
end

/-- What one stored register adds to the reserve (R201): the MIN of a priority group or of a queue. -/
def reservePart (r : Nat × Word) : Nat :=
  if RegName.addr .BUF_IPG_A [0, 0] ≤ r.1 ∧ r.1 < RegName.addr .BUF_IPG_A [0, 0] + 128 * 1024 then
    (if (r.1 - RegName.addr .BUF_IPG_A [0, 0]) % 16 = 0 then wbits r.2 52 32 else 0)
  else if RegName.addr .BUF_EQ [0, 0] ≤ r.1 ∧ r.1 < RegName.addr .BUF_EQ [0, 0] + 256 * 1024 then wbits r.2 63 44
  else 0

theorem Dev.reserve_eq (d : Dev) : d.reserve = (d.regs.map reservePart).sum := rfl

/-- An address outside BUF_SP and BUF_HDRM, and below the priority groups' and the queues' registers. -/
def OffLayout (a : Nat) : Prop := a < 0x800000020 ∨ (0x800000048 ≤ a ∧ a < 0x801100000)

theorem reservePart_of_offLayout {a : Nat} (ha : OffLayout a) (w : Word) : reservePart (a, w) = 0 := by
  have hipg : RegName.addr .BUF_IPG_A [0, 0] = 0x801100000 := rfl
  have heq : RegName.addr .BUF_EQ [0, 0] = 0x802000000 := rfl
  unfold OffLayout at ha
  rw [reservePart, hipg, heq, if_neg (by omega), if_neg (by omega)]

theorem bufSp_addr (k : Nat) : RegName.addr .BUF_SP [k] = 0x800000020 + 8 * k := rfl
theorem bufPort_addr (p : Nat) : RegName.addr .BUF_PORT [p] = 0x801000000 + 8 * p := rfl

/-- From d to e nothing changes that the check of R202 reads, and no control port's MACsec stops; the fuses and table memory are left. -/
structure KeepsLayout (d e : Dev) : Prop where
  reserve : e.reserve = d.reserve
  pools : ∀ (n : RegName) (ix : List Nat), 0x800000020 ≤ n.addr ix → n.addr ix < 0x800000048 → e.rget n ix = d.rget n ix
  stopped : e.ctl.stopped = d.ctl.stopped
  fuses : e.fuses = d.fuses
  tmem : e.tmem = d.tmem

namespace KeepsLayout

variable {d e f : Dev}

theorem refl (d : Dev) : KeepsLayout d d := ⟨rfl, fun _ _ _ _ => rfl, rfl, rfl, rfl⟩

theorem trans (h : KeepsLayout d e) (k : KeepsLayout e f) : KeepsLayout d f where
  reserve := k.reserve.trans h.reserve
  pools n ix h1 h2 := (k.pools n ix h1 h2).trans (h.pools n ix h1 h2)
  stopped := k.stopped.trans h.stopped
  fuses := k.fuses.trans h.fuses
  tmem := k.tmem.trans h.tmem

/-- A store at an address that the layout is not read from. -/
theorem rset (d : Dev) (n : RegName) (ix : List Nat) (v : Word) (ha : OffLayout (n.addr ix)) : KeepsLayout d (d.rset n ix v) where
  reserve := sum_map_mset _ _ _ _ reservePart (reservePart_of_offLayout ha)
  pools m jx h1 h2 := Dev.rget_rset_ne _ _ _ _ _ _ (by unfold OffLayout at ha; omega)
  stopped := rfl
  fuses := rfl
  tmem := rfl

theorem fset (d : Dev) (g : Fld) (ix : List Nat) (v : Nat) (ha : OffLayout (g.reg.addr ix)) : KeepsLayout d (d.fset g ix v) :=
  rset d g.reg ix _ ha

end KeepsLayout

/-- The check reads the reserve and the sizes alone. -/
theorem KeepsLayout.layoutOk {d e : Dev} (h : KeepsLayout d e) : e.layoutOk = d.layoutOk := by
  have hpool (g : Fld) (ix : List Nat) (h1 : 0x800000020 ≤ g.reg.addr ix) (h2 : g.reg.addr ix < 0x800000048) : e.fget g ix = d.fget g ix := by
    rw [Dev.fget, Dev.fget, h.pools _ _ h1 h2]
  have hhdrm : e.fget F.BUF_HDRM.SIZE [] = d.fget F.BUF_HDRM.SIZE [] := hpool _ _ (by decide) (by decide)
  have hsp : (List.range 4).map (fun k => e.fget F.BUF_SP.SIZE [k]) = (List.range 4).map fun k => d.fget F.BUF_SP.SIZE [k] :=
    List.map_congr_left fun k hk => by
      have := List.mem_range.1 hk
      exact hpool _ _ (by rw [bufSp_addr]; omega) (by rw [bufSp_addr]; omega)
  rw [Dev.layoutOk, Dev.layoutOk, h.reserve, hhdrm, hsp]

/-- A record pushed to a session stops no port. -/
theorem Dev.pushSessionRec_stopped (d : Dev) (n : Nat) (r : EvRec) : (d.pushSessionRec n r).ctl.stopped = d.ctl.stopped := by
  unfold Dev.pushSessionRec
  extract_lets s
  split
  · rfl
  split <;> rfl

theorem Dev.raiseOne_stopped (d : Dev) (id sev arg unit : Nat) : (d.raiseOne id sev arg unit).ctl.stopped = d.ctl.stopped := by
  unfold Dev.raiseOne
  extract_lets g i e1 e2 e3 r q e4
  have he4 : e4.ctl.stopped = d.ctl.stopped := by
    simp only [e4, e3, e2]
    split <;> rfl
  split
  · exact he4
  · refine (foldl_keeps (fun a b : Dev => b.ctl.stopped = a.ctl.stopped) (fun _ => rfl) (fun _ _ _ h k => k.trans h) _ (fun d n => ?_) _ e4).trans he4
    split
    · exact d.pushSessionRec_stopped n r
    · rfl

theorem offLayout_evtStatus {id : Nat} (hid : id < 1536) : OffLayout (RegName.addr .EVT_STATUS [id / 32]) := by
  rw [evtStatus_addr]; unfold OffLayout; omega

theorem KeepsLayout.raiseMark (d : Dev) (id sev : Nat) (hid : id < 1536) : KeepsLayout d (d.raiseMark id sev) := by
  unfold Dev.raiseMark
  extract_lets e
  have he : KeepsLayout d e := fset d _ _ _ (offLayout_evtStatus hid)
  split
  · exact he.trans (fset e _ _ _ (offLayout_evtStatus hid))
  · exact he

theorem KeepsLayout.raiseOne (d : Dev) (id sev arg unit : Nat) (hid : id < 1536) : KeepsLayout d (d.raiseOne id sev arg unit) := by
  have hregs := d.raiseOne_regs id sev arg unit
  have hmark := raiseMark d id sev hid
  obtain ⟨_, _, _, _, hframe⟩ := d.raiseOne_frame id sev arg unit
  exact {
    reserve := by rw [Dev.reserve_eq, hregs]; exact hmark.reserve
    pools := fun n ix h1 h2 => (Dev.rget_congr hregs n ix).trans (hmark.pools n ix h1 h2)
    stopped := d.raiseOne_stopped id sev arg unit
    fuses := by rw [hframe]
    tmem := by rw [hframe] }

theorem KeepsLayout.raise (d : Dev) (id arg unit : Nat) (hid : id < 1536) : KeepsLayout d (d.raise id arg unit) := by
  unfold Dev.raise Dev.raiseSev
  extract_lets full e
  have he : KeepsLayout d e := raiseOne d id _ _ unit hid
  split
  · exact he
  · exact he.trans (foldl_keeps KeepsLayout refl (fun _ _ _ => trans) _ (fun d i => raiseOne d _ _ _ _ (by decide)) full e)

/-- The record of a dropped quiesce field (R11, R24). -/
theorem KeepsLayout.qviol (d : Dev) (a sq c : Nat) : KeepsLayout d (d.qviol a sq c) := by
  have hlog : OffLayout (RegName.addr .GLB_QVIOL []) := by unfold OffLayout; decide
  unfold Dev.qviol
  extract_lets e
  have he : KeepsLayout d e := by
    simp only [e]
    split
    · exact fset d _ _ _ hlog
    · exact (((fset d _ _ _ hlog).trans (fset _ _ _ _ hlog)).trans (fset _ _ _ _ hlog)).trans (fset _ _ _ _ hlog)
  exact he.trans (raise e _ _ _ (by decide))

theorem KeepsLayout.storeReg (d : Dev) (sq c : Nat) (n : RegName) (ix : List Nat) (v m : Word) (ha : OffLayout (n.addr ix)) :
    KeepsLayout d (d.storeReg sq c n ix v m) := by
  unfold Dev.storeReg
  extract_lets ok e
  have he : KeepsLayout d e := by
    obtain ⟨l, hl⟩ := d.storeFields_eq n ix v m
    have hforce : KeepsLayout d { d with inForce := l } := ⟨rfl, fun _ _ _ _ => rfl, rfl, rfl, rfl⟩
    simp only [e, hl]
    exact hforce.trans (rset _ _ _ _ ha)
  split
  · exact he
  · exact he.trans (qviol e _ _ _)

theorem KeepsLayout.showBuf (d : Dev) : KeepsLayout d d.showBuf := fset d _ _ _ (by unfold OffLayout; decide)

theorem offLayout_bufCtl : OffLayout (RegName.addr .BUF_CTL []) := by unfold OffLayout; decide

theorem offLayout_bufPort {p : Nat} (hp : p < 1024) : OffLayout (RegName.addr .BUF_PORT [p]) := by
  rw [bufPort_addr]; unfold OffLayout; omega

theorem KeepsLayout.showBufPort (d : Dev) {p : Nat} (hp : p < 1024) : KeepsLayout d (d.showBufPort p) := fset d _ _ _ (offLayout_bufPort hp)

/-- The release of a HOLD changes neither the sizes nor the reserve. -/
theorem KeepsLayout.holdRelease (d : Dev) {p : Nat} (hp : p ≤ 1024) : KeepsLayout d (d.holdRelease p) := by
  unfold Dev.holdRelease
  split
  · split
    · exact (fset d _ _ _ offLayout_bufCtl).trans (showBuf _)
    · have hport : p < 1024 := by omega
      exact (fset d _ _ _ (offLayout_bufPort hport)).trans (showBufPort _ hport)
  · exact (fset d _ _ _ (by unfold OffLayout; decide)).trans (raise _ _ _ _ (by decide))

end Sys2Proof.Machine
end

section
/-! SUPPORT. The release of a HOLD of the buffer (R202): what it does where the layout fits and where it does not, by command and by register
write. -/

namespace Sys2Proof.Safety

open Sys2Proof.Machine

/-- The cells that R202 adds up: the reserve, the headroom pool and the four service pools. -/
def layoutCells (d : Dev) : Nat :=
  d.reserve + d.fget F.BUF_HDRM.SIZE [] +
    (d.fget F.BUF_SP.SIZE [0] + d.fget F.BUF_SP.SIZE [1] + d.fget F.BUF_SP.SIZE [2] + d.fget F.BUF_SP.SIZE [3])

theorem layoutOk_iff (d : Dev) : d.layoutOk = true ↔ layoutCells d ≤ 1310720 - 8192 := by
  rw [Dev.layoutOk, decide_eq_true_iff, layoutCells, cellTotal]
  simp [List.range_succ, Nat.add_assoc]

theorem layoutOk_eq_false_iff (d : Dev) : d.layoutOk = false ↔ 1310720 - 8192 < layoutCells d := by
  rw [← Bool.not_eq_true, layoutOk_iff, Nat.not_le]

section
variable {d : Dev} {p : Nat}

/-- The three outcomes of a release: of the global HOLD, of a port's, and where the layout does not fit. -/
theorem holdRelease_global (hfit : d.layoutOk = true) : d.holdRelease 1024 = (d.fset F.BUF_CTL.HOLD [] 0).showBuf := by
  rw [Dev.holdRelease, if_pos hfit, if_pos rfl]

theorem holdRelease_port (hfit : d.layoutOk = true) (hp : p < 1024) : d.holdRelease p = (d.fset F.BUF_PORT.HOLD [p] 0).showBufPort p := by
  rw [Dev.holdRelease, if_pos hfit, if_neg hp.ne]

theorem holdRelease_unfit (hunfit : d.layoutOk = false) (p : Nat) :
    d.holdRelease p = (d.fset F.BUF_STATUS.CFGERR [] 1).raise Ev.BUF_CFGERR p (if p = 1024 then unitDev else d.unitPort p) := by
  rw [Dev.holdRelease, hunfit, if_neg Bool.false_ne_true]

/-- The global HOLD reads 0 after a release that fits. -/
theorem holdRelease_global_hold (hfit : d.layoutOk = true) : (d.holdRelease 1024).fbit F.BUF_CTL.HOLD [] = false := by
  rw [holdRelease_global hfit, Dev.fbit, Dev.showBuf, Dev.fget_fset_ne _ _ _ _ _ _ (by decide),
    Dev.fget_fset_same _ _ _ _ (by decide) (by decide)]
  rfl

/-- A port's HOLD reads 0 after a release that fits. -/
theorem holdRelease_port_hold (hfit : d.layoutOk = true) (hp : p < 1024) : (d.holdRelease p).fbit F.BUF_PORT.HOLD [p] = false := by
  have hquiesced (e : Dev) (n : Nat) : (e.fset F.BUF_PORT.QUIESCED [p] n).fget F.BUF_PORT.HOLD [p] = e.fget F.BUF_PORT.HOLD [p] :=
    Dev.fget_fset_disj e F.BUF_PORT.QUIESCED [p] n F.BUF_PORT.HOLD (by decide) (by decide) rfl (by decide)
  rw [holdRelease_port hfit hp, Dev.fbit, Dev.showBufPort, hquiesced, Dev.fget_fset_same _ _ _ _ (by decide) (by decide)]
  rfl

theorem holdRelease_global_onlyRegs (hfit : d.layoutOk = true) : OnlyRegs [(.BUF_CTL, []), (.BUF_STATUS, [])] d (d.holdRelease 1024) := by
  rw [holdRelease_global hfit]
  exact ((OnlyRegs.refl _ d).fset F.BUF_CTL.HOLD [] 0 (by simp)).fset F.BUF_STATUS.QUIESCED [] _ (by simp)

theorem holdRelease_port_onlyRegs (hfit : d.layoutOk = true) (hp : p < 1024) : OnlyRegs [(.BUF_PORT, [p])] d (d.holdRelease p) := by
  rw [holdRelease_port hfit hp]
  exact ((OnlyRegs.refl _ d).fset F.BUF_PORT.HOLD [p] 0 (by simp)).fset F.BUF_PORT.QUIESCED [p] _ (by simp)

/-- A release that does not fit sets CFGERR and raises event 196, and changes no register else. -/
theorem holdRelease_refused (hunfit : d.layoutOk = false) (p : Nat) :
    (d.holdRelease p).fbit F.BUF_STATUS.CFGERR [] = true ∧ Happened (d.holdRelease p) 196 ∧
      OnlyRegsAndEvents [(.BUF_STATUS, [])] d (d.holdRelease p) := by
  rw [holdRelease_unfit hunfit]
  refine ⟨?_, happened_raise _ _ _ _ (by decide), ?_⟩
  · rw [Dev.fbit, Dev.fget_raise _ _ _ _ _ _ (by decide) (by decide), Dev.fget_fset_same _ _ _ _ (by decide) (by decide)]
    rfl
  · exact ((OnlyRegsAndEvents.of_only (OnlyRegs.refl _ d)).fset F.BUF_STATUS.CFGERR [] 1 (by simp)).raise _ _ _ (by decide)

end

/-- A field of a register that is not among those that may have changed. -/
theorem OnlyRegsAndEvents.fbit {l : List (RegName × List Nat)} {d e : Dev} (h : OnlyRegsAndEvents l d e) (g : Fld) (ix : List Nat)
    (hl : ∀ p ∈ l, p.1.addr p.2 ≠ g.reg.addr ix)
    (he : g.reg.addr ix < RegName.addr .EVT_STATUS [0] ∨ RegName.addr .EVT_STATUS [48] ≤ g.reg.addr ix) : e.fbit g ix = d.fbit g ix := by
  rw [Dev.fbit, Dev.fbit, Dev.fget, Dev.fget, h _ _ hl he]

/-- BUF_HOLD_RELEASE (R202) does what the release does. -/
theorem does_bufHoldRelease {s : State} {P : Dev → Prop} {p : Nat} (hup : s.dev.up = true) (hp : p ≤ 1024) (h : P (s.dev.holdRelease p)) :
    Does (.bufHoldRelease p) s P := by
  have hkeeps := KeepsLayout.holdRelease s.dev hp
  refine Does.of_run rfl ?_ hkeeps.fuses hkeeps.tmem h
  simp only [hup, if_true, if_pos hp]

/-- The record of a dropped quiesce field is GLB_QVIOL's and an event. -/
theorem onlyRegsAndEvents_qviol (d : Dev) (a sq c : Nat) : OnlyRegsAndEvents [(.GLB_QVIOL, [])] d (d.qviol a sq c) := by
  have hrefl : OnlyRegs [(.GLB_QVIOL, [])] d d := OnlyRegs.refl _ d
  unfold Dev.qviol
  extract_lets e
  have he : OnlyRegs [(.GLB_QVIOL, [])] d e := by
    simp only [e]
    split
    · exact hrefl.fset F.GLB_QVIOL.OVERRUN [] _ (by simp)
    · exact (((hrefl.fset F.GLB_QVIOL.VALID [] _ (by simp)).fset F.GLB_QVIOL.SEQ [] _ (by simp)).fset F.GLB_QVIOL.CONTEXT [] _
        (by simp)).fset F.GLB_QVIOL.ADDR [] _ (by simp)
  exact (OnlyRegsAndEvents.of_only he).raise _ _ _ (by decide)

/-- A store leaves a bit of the register that its mask leaves out, whatever other field of the register is dropped. -/
theorem fbit_storeReg (d : Dev) (sq c : Nat) (f : Fld) (ix : List Nat) (v m : Word) (hf : f.hi = f.lo) (hm : m.getLsbD f.lo = false)
    (hevt : RegName.addr .EVT_STATUS [48] ≤ f.reg.addr ix) : (d.storeReg sq c f.reg ix v m).fbit f ix = d.fbit f ix := by
  have hstore : (d.storeFields f.reg ix v m).fbit f ix = d.fbit f ix := by
    rw [Dev.fbit_eq_getLsbD _ f ix hf, Dev.fbit_eq_getLsbD _ f ix hf, d.getLsbD_rget_storeFields _ _ _ _ _ hm]
  unfold Dev.storeReg
  extract_lets ok e
  split
  · exact hstore
  · have hqviol : ∀ p ∈ [(RegName.GLB_QVIOL, ([] : List Nat))], p.1.addr p.2 ≠ f.reg.addr ix := by
      have hlow : RegName.addr .GLB_QVIOL [] < RegName.addr .EVT_STATUS [48] := by decide
      intro p hp
      rw [List.mem_singleton.1 hp]
      exact (hlow.trans_le hevt).ne
    exact ((onlyRegsAndEvents_qviol e _ sq c).fbit f ix hqviol (.inr hevt)).trans hstore

/-- A whole-register write whose HOLD is 0 stores the other fields, then releases that HOLD. -/
theorem Store.hold_of_zero (st : Store) (d : Dev) (f : Fld) (p : Nat) (shown : Dev → Dev) (hhits : st.hits f = true) (hone : st.one f = false) :
    st.hold d f p shown = (st.put d [f]).holdRelease p := by
  rw [Store.hold, hhits, hone]; rfl

/-- The store that a register write makes. -/
def wholeStore (sq c : Nat) (n : RegName) (ix : List Nat) (v : Word) : Store := { sq := sq, c := c, n := n, ix := ix, v := v, m := allOnes }

/-- The device once a register write has stored the fields besides a HOLD. -/
def storedBut (d : Dev) (sq c : Nat) (f : Fld) (ix : List Nat) (v : Word) : Dev := (wholeStore sq c f.reg ix v).put d [f]

/-- A register write whose bit 63 is 0, to a register below the lane windows whose HOLD is that bit, releases the HOLD. -/
theorem does_registerWrite_hold {s : State} {P : Dev → Prop} {sq c a : Nat} {v : Word} {f : Fld} {ix : List Nat} {shown : Dev → Dev}
    (hup : s.dev.up = true) (hv : v.getLsbD 63 = false) (hf : f.hi = 63) (hdec : regDecode a = some (f.reg, ix))
    (hoff : OffLayout (f.reg.addr ix)) (hp : p ≤ 1024)
    (hrun : (wholeStore sq c f.reg ix v).run s.dev = (wholeStore sq c f.reg ix v).hold s.dev f p shown)
    (h : P ((storedBut s.dev sq c f ix v).holdRelease p)) : Does (.registerWrite sq c a v) s P := by
  have hkeeps : KeepsLayout s.dev ((storedBut s.dev sq c f ix v).holdRelease p) :=
    (KeepsLayout.storeReg s.dev sq c f.reg ix v _ hoff).trans (KeepsLayout.holdRelease _ hp)
  have hones : allOnes.getLsbD 63 = true := by decide
  have hrelease : (wholeStore sq c f.reg ix v).run s.dev = (storedBut s.dev sq c f ix v).holdRelease p := by
    refine hrun.trans (Store.hold_of_zero _ _ _ _ _ ?_ ?_)
    · rw [Store.hits, hf]; exact hones
    · rw [Store.one, hf, BitVec.getLsbD_and, wholeStore, hv, Bool.false_and]
  have hon : s.dev.blockOff (a / 8 * 8) = false := by
    rw [regDecode_addr hdec]
    exact s.dev.blockOff_eq_false (by unfold OffLayout at hoff; omega)
  refine Does.of_runTables rfl ?_ hkeeps.fuses h
  simp only [hup, if_true, Dev.busWrite, hdec, hon]
  exact (congrArg _ hrelease).trans (settlePorts_same _ _ fun k _ hk => by rwa [hkeeps.stopped] at hk)

/-- Storing the fields besides a HOLD of the buffer leaves that HOLD. -/
theorem fbit_storedBut (d : Dev) (sq c : Nat) (f : Fld) (ix : List Nat) (v : Word) (hhi : f.hi = 63) (hlo : f.lo = 63)
    (hevt : RegName.addr .EVT_STATUS [48] ≤ f.reg.addr ix) : (storedBut d sq c f ix v).fbit f ix = d.fbit f ix := by
  refine fbit_storeReg d sq c f ix v _ (hhi.trans hlo.symm) ?_ hevt
  simp only [Store.less, List.foldl_cons, List.foldl_nil, wholeStore, hhi, hlo]
  decide

/-- The check by a register write (R202). The release runs on a device whose layout is that of the state before, for a write stores no field
that the check reads, and the layout decides between its two branches. -/
theorem does_registerWrite_checksLayout {s : State} {sq c a : Nat} {v : Word} {f : Fld} {ix : List Nat} {shown : Dev → Dev}
    (hup : s.dev.up = true) (hv : v.getLsbD 63 = false) (hhi : f.hi = 63) (hlo : f.lo = 63) (hdec : regDecode a = some (f.reg, ix))
    (hoff : OffLayout (f.reg.addr ix)) (hevt : RegName.addr .EVT_STATUS [48] ≤ f.reg.addr ix)
    (hstatus : RegName.addr .BUF_STATUS [] ≠ f.reg.addr ix) (hp : p ≤ 1024)
    (hrun : (wholeStore sq c f.reg ix v).run s.dev = (wholeStore sq c f.reg ix v).hold s.dev f p shown)
    (hzero : ∀ d : Dev, d.layoutOk = true → (d.holdRelease p).fbit f ix = false) :
    Does (.registerWrite sq c a v) s fun d =>
      (layoutCells s.dev ≤ 1310720 - 8192 → d.fbit f ix = false) ∧
      (1310720 - 8192 < layoutCells s.dev →
        d.fbit f ix = s.dev.fbit f ix ∧ d.fbit F.BUF_STATUS.CFGERR [] = true ∧ Happened d 196) := by
  refine does_registerWrite_hold hup hv hhi hdec hoff hp hrun ?_
  have hlayout : (storedBut s.dev sq c f ix v).layoutOk = s.dev.layoutOk := (KeepsLayout.storeReg s.dev sq c f.reg ix v _ hoff).layoutOk
  refine ⟨fun hfit => hzero _ (hlayout.trans ((layoutOk_iff _).2 hfit)), fun hunfit => ?_⟩
  obtain ⟨hcfgerr, hevent, honly⟩ := holdRelease_refused (hlayout.trans ((layoutOk_eq_false_iff _).2 hunfit)) p
  refine ⟨(honly.fbit f ix (fun q hq => ?_) (.inr hevt)).trans (fbit_storedBut _ _ _ _ _ _ hhi hlo hevt), hcfgerr, hevent⟩
  rw [List.mem_singleton.1 hq]
  exact hstatus

/-- BUF_CTL and BUF_PORT are registers of the buffer's block, whose store handles the HOLD. -/
theorem run_wholeStore_bufCtl (d : Dev) (sq c : Nat) (v : Word) :
    (wholeStore sq c .BUF_CTL [] v).run d = (wholeStore sq c .BUF_CTL [] v).hold d F.BUF_CTL.HOLD 1024 Dev.showBuf := by
  simp [Store.run, wholeStore, Store.buffer, RegName.spec, regSpec.BUF_CTL]
theorem run_wholeStore_bufPort (d : Dev) (sq c p : Nat) (v : Word) :
    (wholeStore sq c .BUF_PORT [p] v).run d = (wholeStore sq c .BUF_PORT [p] v).hold d F.BUF_PORT.HOLD p fun d => d.showBufPort p := by
  simp [Store.run, wholeStore, Store.buffer, RegName.spec, regSpec.BUF_PORT, Store.i]

/-- Settles O48: the command and the write each come down to the release, which the layout decides. -/
theorem holdReleaseChecksLayout : Obligations.HoldReleaseChecksLayout := by
  unfold Obligations.HoldReleaseChecksLayout
  intro s hup sum
  have hfit : s.dev.layoutOk = true ↔ sum ≤ 1310720 - 8192 := layoutOk_iff s.dev
  have hunfit : s.dev.layoutOk = false ↔ 1310720 - 8192 < sum := layoutOk_eq_false_iff s.dev
  refine ⟨fun hsum => ⟨?_, fun p hp => ?_⟩, fun hsum p hp => ?_, fun sq c a v hv => ⟨fun hdec => ?_, fun p hp hdec => ?_⟩⟩
  · exact does_bufHoldRelease hup le_rfl ⟨holdRelease_global_hold (hfit.2 hsum), holdRelease_global_onlyRegs (hfit.2 hsum)⟩
  · exact does_bufHoldRelease hup hp.le ⟨holdRelease_port_hold (hfit.2 hsum) hp, holdRelease_port_onlyRegs (hfit.2 hsum) hp⟩
  · exact does_bufHoldRelease hup hp (holdRelease_refused (hunfit.2 hsum) p)
  · exact does_registerWrite_checksLayout (f := F.BUF_CTL.HOLD) hup hv rfl rfl hdec offLayout_bufCtl (by decide) (by decide) le_rfl
      (run_wholeStore_bufCtl ..) fun _ => holdRelease_global_hold
  · have haddr := bufPort_addr p
    have hevt : RegName.addr .EVT_STATUS [48] ≤ RegName.addr .BUF_PORT [p] := by rw [haddr, evtStatus_addr]; omega
    have hstatus : RegName.addr .BUF_STATUS [] ≠ RegName.addr .BUF_PORT [p] := by
      rw [haddr, show RegName.addr .BUF_STATUS [] = 0x800000008 from rfl]; omega
    exact does_registerWrite_checksLayout (f := F.BUF_PORT.HOLD) hup hv rfl rfl hdec (offLayout_bufPort hp) hevt hstatus hp.le
      (run_wholeStore_bufPort ..) fun _ hok => holdRelease_port_hold hok hp

end Sys2Proof.Safety
end

section
/-! SUPPORT. The thresholds of R203 as rational numbers, and what admission (R204) asks of an owner while no cell is on its way to the buffer. -/

namespace Sys2Proof.Machine

/-- With no cell on its way to the buffer, no owner has any crossing. -/
theorem Dev.crossingFor_eq_zero {d : Dev} (hvoq : d.buf.voq = []) (hcrossed : d.buf.crossed = []) (f : Copy → Bool) : d.crossingFor f = 0 := by
  simp [Dev.crossingFor, Dev.crossingCells, hvoq, hcrossed]

/-- An exponent in the range of R203 is taken as it is. -/
theorem alphaOf_of_range {v : Nat} {k : Int} (hlo : -7 ≤ k) (hhi : k ≤ 3) (hv : sext 4 v = k) : alphaOf v = k := by
  rw [alphaOf, hv]; omega

/-- A power of two from 2^−7 up, in 1/128 of one. -/
theorem pow_toNat_eq_mul_zpow {k : Int} (hlo : -7 ≤ k) : (2 : ℚ) ^ (k + 7).toNat = 128 * (2 : ℚ) ^ k := by
  rw [← zpow_natCast, Int.toNat_of_nonneg (by omega), zpow_add₀ two_ne_zero]
  norm_num [mul_comm]

/-- The threshold is kept in 1/128 cell and the free part in whole cells, 0 when the pool is overfull; both agree with 2^k × F. -/
theorem cells_lt_threshold_iff (n size use : Nat) {k : Int} (hlo : -7 ≤ k) :
    128 * n < (size - use) * 2 ^ (k + 7).toNat ↔ (n : ℚ) < (2 : ℚ) ^ k * ((size : ℚ) - (use : ℚ)) := by
  have hpos : (0 : ℚ) < (2 : ℚ) ^ k := by positivity
  rcases Nat.le_total use size with hfree | hfull
  · rw [← Nat.cast_lt (α := ℚ)]
    push_cast [hfree, pow_toNat_eq_mul_zpow hlo]
    constructor <;> intro h <;> nlinarith
  · have hsub : ((size : ℚ) - (use : ℚ)) ≤ 0 := sub_nonpos.2 (Nat.cast_le.2 hfull)
    have hlimit : (2 : ℚ) ^ k * ((size : ℚ) - (use : ℚ)) ≤ 0 := mul_nonpos_of_nonneg_of_nonpos hpos.le hsub
    have hn : (0 : ℚ) ≤ n := n.cast_nonneg
    rw [Nat.sub_eq_zero_of_le hfull, Nat.zero_mul]
    exact iff_of_false (Nat.not_lt_zero _) (hlimit.trans hn).not_gt

/-- R203 with nothing crossing: an owner passes below 2^k × F. -/
theorem Dev.passes_iff (d : Dev) (alpha pool key : Nat) {k : Int} (hlo : -7 ≤ k) (hhi : k ≤ 3) (halpha : sext 4 alpha = k) :
    d.passes alpha pool key 0 0 = true ↔
      (d.ownCells key : ℚ) < (2 : ℚ) ^ k * ((d.fget F.BUF_SP.SIZE [pool] : ℚ) - (d.fget F.BUF_SP.USE [pool] : ℚ)) := by
  rw [Dev.passes, decide_eq_true_iff, Dev.threshold, alphaOf_of_range hlo hhi halpha]
  exact cells_lt_threshold_iff _ _ _ hlo

section
variable {d : Dev} (hvoq : d.buf.voq = []) (hcrossed : d.buf.crossed = [])
include hvoq hcrossed

/-- Step 4 of R204 with nothing crossing: a queue admits below its MIN, or where it passes. -/
theorem Dev.queueOk_iff (pool p q : Nat) :
    d.queueOk pool (p, q) = true ↔ d.fget F.BUF_EQ_STAT.ONDIE [p, q] < d.fget F.BUF_EQ.MIN [p, q] ∨
      d.passes (d.fgetB F.BUF_EQ.ALPHA [p, q]) pool (qPoolKey (qKey p q) pool) 0 0 = true := by
  simp only [Dev.queueOk, Dev.crossingFor_eq_zero hvoq hcrossed, Nat.add_zero, Bool.or_eq_true, decide_eq_true_eq]

/-- Step 2 of R204 with nothing crossing: a lossy priority group admits to the pool below its MIN, or where it passes. -/
theorem Dev.pgVerdict_lossy_iff (p g pool : Nat) :
    d.pgVerdict p g pool false = .shared ↔ d.pgCells (pgKey p g) < d.fget F.BUF_IPG_A.MIN [p, g] ∨
      d.passes (d.fgetB F.BUF_IPG_A.ALPHA [p, g]) pool (pgPoolKey (pgKey p g) pool) 0 0 = true := by
  simp only [Dev.pgVerdict, Dev.crossingFor_eq_zero hvoq hcrossed, Nat.add_zero, Bool.not_false, if_true, ite_eq_left_iff, reduceCtorEq,
    imp_false, Bool.or_eq_true, decide_eq_true_eq, not_not]
end

end Sys2Proof.Machine

namespace Sys2Proof.Safety

open Sys2Proof.Machine

/-- Settles O49: each admission test, with nothing crossing, is the test of MIN or the threshold of R203. -/
theorem dynamicThresholds : Obligations.DynamicThresholds := by
  unfold Obligations.DynamicThresholds
  intro d p q g pool k hlo hhi hvoq hcrossed limit
  refine ⟨fun halpha => ?_, fun halpha => ?_⟩
  · rw [Dev.queueOk_iff hvoq hcrossed, Dev.passes_iff d _ _ _ hlo hhi halpha]
  · rw [Dev.pgVerdict_lossy_iff hvoq hcrossed, Dev.passes_iff d _ _ _ hlo hhi halpha]

end Sys2Proof.Safety
end
